-- ==== Sys2Proof/Word.lean ====
section
/-! DEFINITION. The word types of the model and the small named types that commands carry as operands. -/

-- one declaration at a time: many at once take a thread and its stack each
set_option Elab.async false

namespace Sys2Proof

/-- A byte. -/
abbrev Byte := BitVec 8
/-- A pair of general registers, or a 16-bit field. -/
abbrev Half := BitVec 16
/-- A 32-bit register of a page (02 R46). -/
abbrev Word := BitVec 32
/-- A 64-bit value. -/
abbrev DWord := BitVec 64

/-- A core: 0–67 the physical scan lanes, 68–71 the service lanes S0–S3, 72 the Steward (01 R21, R26). -/
abbrev Core := Fin 73
/-- A general register number of a context (04 R127). -/
abbrev GReg := BitVec 5
/-- A base pair number (04 R147). -/
abbrev PReg := BitVec 4

/-- The agents that access device addresses (00 R8, 02 R56): the host, the debug access port with the host's rights,
a service lane, the Steward. -/
inductive Agent where
  | host
  | debug
  | svc (i : Fin 4)
  | steward
  deriving DecidableEq, Repr

/-- How many bytes an access takes, and whether its byte enables leave a gap among them (02 R81). -/
structure Extent where
  bytes : Nat
  gap : Bool
  deriving DecidableEq, Repr

/-- The displacement of an LDP or STP, and whether other commands come between its two beats (05 R176, R635). -/
structure PairAt where
  disp : BitVec 9
  split : Bool
  deriving DecidableEq, Repr

/-- How a report of the Rind arrives (14 R465): its CRC passes, and its write of the receive buffer ends before the next freeze (07 R250). -/
structure ReportRx where
  crcOk : Bool
  lands : Bool
  deriving DecidableEq, Repr

/-- The two Vuvas networks (10 R318). -/
inductive Net where
  | a
  | b
  deriving DecidableEq, Repr

/-- What the March test of step 3 at a cold reset, or the ECC scan of a warm one, finds (03 R108, R110, R631). -/
inductive SelfTest where
  /-- No defect. -/
  | clean
  /-- A defect in these physical scan lanes. -/
  | lanes (ps : List (Fin 68))
  /-- A defect outside the scan lanes. -/
  | other
  deriving DecidableEq, Repr

/-- What a boot meets that no register or memory shows (03 R104): the result of step 3, and whether the fuses read correctly
in step 2 (18 R570), and the levels at the strap balls at the end of a cold reset (R102). -/
structure BootObs where
  straps : BitVec 4
  selfTest : SelfTest
  /-- Keys of words that the ECC scan of a warm reset finds uncorrectable, beside those already known (03 R631). -/
  finds : List Nat
  fuseOk : Bool
  deriving DecidableEq, Repr

/-- A CAN frame on the bus (13 R435): identifier with IDE, remote flag, FD format and its bits, and the data bytes. -/
structure CanFrame where
  ide : Bool
  id : BitVec 29
  rtr : Bool
  fdf : Bool
  brs : Bool
  esi : Bool
  dlc : BitVec 4
  data : List Byte
  deriving DecidableEq, Repr

/-- How a selected CAN frame ends (13 R444); an error carries its LEC code and whether ISO 11898-1 exempts it from raising TEC. -/
inductive CanEnd where
  | sent
  | arbLost
  | error (lec : BitVec 3) (exempt : Bool)
  deriving DecidableEq, Repr

end Sys2Proof
end

