-- ==== Sys2Proof/Syntax.lean ====
section
/-! DEFINITION. The commands of the TV6480: one constructor per row of spec/opcode_table.json, named after the row,
with the row's operands. `ag` is the agent whose register access the row is, `c` the core whose current context executes
the instruction (04 R126).  Nothing here says what a command does. -/

-- one declaration at a time: many at once take a thread and its stack each
set_option Elab.async false

namespace Sys2Proof

/-- A command of the block. -/
inductive Instr where
  /-- LOW_PART_LATCH (R9). -/
  | lowPartLatch (ag : Agent) (addr : Word) (n : Extent)
  /-- REGISTER_WRITE (R11). -/
  | registerWrite (ag : Agent) (addr : Word) (n : Extent) (v : DWord)
  /-- RCL_READ (R49). -/
  | rclRead (ag : Agent) (addr : Word)
  /-- HELD_REQUEST_START (R15). -/
  | heldRequestStart (fn : Nat)
  /-- BAR0WIN_WRITE (R45). -/
  | bar0winWrite (ag : Agent) (v : Word)
  /-- SOFT_RST (R54). -/
  | softRst (ag : Agent) (page : Fin 37)
  /-- SOFT_RST_END (R54). -/
  | softRstEnd (page : Fin 37)
  /-- PAGE_ENABLE (R53). -/
  | pageEnable (ag : Agent) (page : Fin 37) (en : Bool)
  /-- FREEZE_SET (R55). -/
  | freezeSet (ag : Agent) (page : Fin 37)
  /-- FREEZE_CLEAR (R55). -/
  | freezeClear (ag : Agent) (page : Fin 37)
  /-- OWNER_WRITE (R56). -/
  | ownerWrite (ag : Agent) (page : Fin 37) (v : Word)
  /-- OWNER_LOCK (R56). -/
  | ownerLock (ag : Agent) (page : Fin 37)
  /-- CFGSWAP_GO (R62). -/
  | cfgswapGo (ag : Agent)
  /-- CONFIG_SWAP (R61). -/
  | configSwap
  /-- CFGSWAP_COPY (R60). -/
  | cfgswapCopy (ag : Agent)
  /-- COPY_DONE (R60). -/
  | copyDone
  /-- MAP_CHECK (R198). -/
  | mapCheck
  /-- EVT_PEND_CLEAR (R68). -/
  | evtPendClear (ag : Agent) (page : Fin 37) (v : Word)
  /-- EVT_SWRAISE (R52). -/
  | evtSwraise (ag : Agent) (v : Word)
  /-- MSIX_MESSAGE (R70). -/
  | msixMessage (vec : BitVec 5)
  /-- LOG_WRITE (R72). -/
  | logWrite
  /-- LOG_RIDX_WRITE (R72). -/
  | logRidxWrite (ag : Agent) (v : Word)
  /-- SYS_MODEREQ (R86). -/
  | sysModereq (ag : Agent) (v : Word)
  /-- MODE_CHANGE (R90). -/
  | modeChange
  /-- MAIN_SUPPLY_FAIL (R607). -/
  | mainSupplyFail (vbat : Bool)
  /-- SUPPLY_WARN (R607). -/
  | supplyWarn (i : Fin 6)
  /-- VBAT_LOW (R607). -/
  | vbatLow
  /-- POWER_ON (R95). -/
  | powerOn (vbatKept : Bool)
  /-- RST_N_LOW (R96). -/
  | rstNLow (ns : Nat)
  /-- SYS_RESET (R95). -/
  | sysReset (ag : Agent) (v : Word)
  /-- ROM_START (R104). -/
  | romStart (obs : BootObs)
  /-- HOSTBOOT_GO (R112). -/
  | hostbootGo (ag : Agent) (v : Word)
  /-- BOOT_DONE (R117). -/
  | bootDone (us : BitVec 24)
  /-- DOMAIN_REQUEST (R118). -/
  | domainRequest (ag : Agent) (d : Fin 15) (v : Word)
  /-- DOM_DONE (R118). -/
  | domDone (d : Fin 15)
  /-- PLL_UNLOCK (R124). -/
  | pllUnlock (p : Fin 6)
  /-- REF25_MEASUREMENT (R124). -/
  | ref25Measurement (ppm : Half)
  /-- HALT (R164). -/
  | halt (c : Core)
  /-- STEWARD_WAKE (R164). -/
  | stewardWake
  /-- NOP (R163). -/
  | nop (c : Core)
  /-- REP_IMM (R169). -/
  | repImm (c : Core) (n : BitVec 6)
  /-- REP_REG (R169). -/
  | repReg (c : Core) (g : GReg)
  /-- REP_RC (R169). -/
  | repRc (c : Core)
  /-- SEAL (R156). -/
  | seal (c : Core) (n : BitVec 4)
  /-- LCK (R157). -/
  | lck (c : Core) (n : BitVec 3)
  /-- LOCK_TIMEOUT (R158). -/
  | lockTimeout (c : Core)
  /-- STEP (R165). -/
  | step (c : Core)
  /-- MOVS (R132). -/
  | movs (c : Core) (gd : GReg) (sr : Byte)
  /-- MOVT (R132). -/
  | movt (c : Core) (sr : Byte) (gs : GReg)
  /-- EVRET (R166). -/
  | evret (c : Core)
  /-- BRK (R167). -/
  | brk (c : Core) (code : BitVec 14)
  /-- JMPR (R168). -/
  | jmpr (c : Core) (pb : PReg)
  /-- PSHK (R180). -/
  | pshk (c : Core)
  /-- POPK (R180). -/
  | popk (c : Core)
  /-- ANDPK (R180). -/
  | andpk (c : Core)
  /-- ORPK (R180). -/
  | orpk (c : Core)
  /-- XORPK (R180). -/
  | xorpk (c : Core)
  /-- NOTK (R180). -/
  | notk (c : Core)
  /-- ONEK (R180). -/
  | onek (c : Core)
  /-- ZEROK (R180). -/
  | zerok (c : Core)
  /-- LD (R175). -/
  | ld (c : Core) (g : GReg) (pb : PReg) (disp : BitVec 9)
  /-- ST (R175). -/
  | st (c : Core) (g : GReg) (pb : PReg) (disp : BitVec 9)
  /-- LDP (R175). -/
  | ldp (c : Core) (g : GReg) (pb : PReg) (disp : PairAt)
  /-- STP (R175). -/
  | stp (c : Core) (g : GReg) (pb : PReg) (disp : PairAt)
  /-- LDK (R177). -/
  | ldk (c : Core) (b : BitVec 3) (pb : PReg) (disp : BitVec 11)
  /-- LDKN (R177). -/
  | ldkn (c : Core) (b : BitVec 3) (pb : PReg) (disp : BitVec 11)
  /-- ANDK (R177). -/
  | andk (c : Core) (b : BitVec 3) (pb : PReg) (disp : BitVec 11)
  /-- ANDKN (R177). -/
  | andkn (c : Core) (b : BitVec 3) (pb : PReg) (disp : BitVec 11)
  /-- ORK (R177). -/
  | ork (c : Core) (b : BitVec 3) (pb : PReg) (disp : BitVec 11)
  /-- ORKN (R177). -/
  | orkn (c : Core) (b : BitVec 3) (pb : PReg) (disp : BitVec 11)
  /-- XORK (R177). -/
  | xork (c : Core) (b : BitVec 3) (pb : PReg) (disp : BitVec 11)
  /-- STK (R177). -/
  | stk (c : Core) (b : BitVec 3) (pb : PReg) (disp : BitVec 11)
  /-- STKN (R177). -/
  | stkn (c : Core) (b : BitVec 3) (pb : PReg) (disp : BitVec 11)
  /-- SETK (R178). -/
  | setk (c : Core) (b : BitVec 3) (pb : PReg) (disp : BitVec 11)
  /-- CLRK (R178). -/
  | clrk (c : Core) (b : BitVec 3) (pb : PReg) (disp : BitVec 11)
  /-- RISE (R177). -/
  | rise (c : Core) (b : BitVec 3) (pb : PReg) (disp : BitVec 11)
  /-- FALL (R177). -/
  | fall (c : Core) (b : BitVec 3) (pb : PReg) (disp : BitVec 11)
  /-- TMR (R179). -/
  | tmr (c : Core) (b : BitVec 3) (pb : PReg) (disp : BitVec 11)
  /-- ADD (R181). -/
  | add (c : Core) (gd : GReg) (gs : GReg) (gt : GReg)
  /-- ADC (R181). -/
  | adc (c : Core) (gd : GReg) (gs : GReg) (gt : GReg)
  /-- SUB (R181). -/
  | sub (c : Core) (gd : GReg) (gs : GReg) (gt : GReg)
  /-- SBC (R181). -/
  | sbc (c : Core) (gd : GReg) (gs : GReg) (gt : GReg)
  /-- AND (R181). -/
  | and (c : Core) (gd : GReg) (gs : GReg) (gt : GReg)
  /-- OR (R181). -/
  | or (c : Core) (gd : GReg) (gs : GReg) (gt : GReg)
  /-- XOR (R181). -/
  | xor (c : Core) (gd : GReg) (gs : GReg) (gt : GReg)
  /-- CMP (R181). -/
  | cmp (c : Core) (gs : GReg) (gt : GReg)
  /-- SHL (R182). -/
  | shl (c : Core) (gd : GReg) (gs : GReg) (gt : GReg)
  /-- SHR (R182). -/
  | shr (c : Core) (gd : GReg) (gs : GReg) (gt : GReg)
  /-- ASR (R182). -/
  | asr (c : Core) (gd : GReg) (gs : GReg) (gt : GReg)
  /-- ROL (R182). -/
  | rol (c : Core) (gd : GReg) (gs : GReg) (gt : GReg)
  /-- ROR (R182). -/
  | ror (c : Core) (gd : GReg) (gs : GReg) (gt : GReg)
  /-- MOV (R181). -/
  | mov (c : Core) (gd : GReg) (gs : GReg)
  /-- NOT (R181). -/
  | not (c : Core) (gd : GReg) (gs : GReg)
  /-- NEG (R184). -/
  | neg (c : Core) (gd : GReg) (gs : GReg)
  /-- MULU (R183). -/
  | mulu (c : Core) (gd : GReg) (gs : GReg) (gt : GReg)
  /-- MULS (R183). -/
  | muls (c : Core) (gd : GReg) (gs : GReg) (gt : GReg)
  /-- DIVU (R184). -/
  | divu (c : Core) (gd : GReg) (gs : GReg) (gt : GReg)
  /-- DIVS (R184). -/
  | divs (c : Core) (gd : GReg) (gs : GReg) (gt : GReg)
  /-- ADDW (R185). -/
  | addw (c : Core) (gd : GReg) (gs : GReg) (gt : GReg)
  /-- SUBW (R185). -/
  | subw (c : Core) (gd : GReg) (gs : GReg) (gt : GReg)
  /-- CMPW (R185). -/
  | cmpw (c : Core) (gs : GReg) (gt : GReg)
  /-- MOVW (R185). -/
  | movw (c : Core) (gd : GReg) (gs : GReg)
  /-- LDI (R186). -/
  | ldi (c : Core) (gd : GReg) (imm : Byte)
  /-- ADDI (R186). -/
  | addi (c : Core) (gd : GReg) (imm : Byte)
  /-- ADCI (R186). -/
  | adci (c : Core) (gd : GReg) (imm : Byte)
  /-- SUBI (R186). -/
  | subi (c : Core) (gd : GReg) (imm : Byte)
  /-- SBCI (R186). -/
  | sbci (c : Core) (gd : GReg) (imm : Byte)
  /-- ANDI (R186). -/
  | andi (c : Core) (gd : GReg) (imm : Byte)
  /-- ORI (R186). -/
  | ori (c : Core) (gd : GReg) (imm : Byte)
  /-- XORI (R186). -/
  | xori (c : Core) (gd : GReg) (imm : Byte)
  /-- CMPI (R186). -/
  | cmpi (c : Core) (gd : GReg) (imm : Byte)
  /-- TSTI (R186). -/
  | tsti (c : Core) (gd : GReg) (imm : Byte)
  /-- SHLI (R186). -/
  | shli (c : Core) (gd : GReg) (imm : Byte)
  /-- SHRI (R186). -/
  | shri (c : Core) (gd : GReg) (imm : Byte)
  /-- ASRI (R186). -/
  | asri (c : Core) (gd : GReg) (imm : Byte)
  /-- ROLI (R186). -/
  | roli (c : Core) (gd : GReg) (imm : Byte)
  /-- RORI (R186). -/
  | rori (c : Core) (gd : GReg) (imm : Byte)
  /-- ADDWI (R186). -/
  | addwi (c : Core) (gd : GReg) (imm : Byte)
  /-- SUBWI (R186). -/
  | subwi (c : Core) (gd : GReg) (imm : Byte)
  /-- KFR (R186). -/
  | kfr (c : Core) (gd : GReg) (b : BitVec 3)
  /-- KTO (R186). -/
  | kto (c : Core) (gd : GReg) (b : BitVec 3)
  /-- BR (R187). -/
  | br (c : Core) (cond : BitVec 4) (off : BitVec 14)
  /-- BRF (R188). -/
  | brf (c : Core) (cond : BitVec 4) (off : BitVec 14)
  /-- JMP (R189). -/
  | jmp (c : Core) (target : BitVec 14)
  /-- CALL (R189). -/
  | call (c : Core) (target : BitVec 14)
  /-- LC_SWEVT (R141). -/
  | lcSwevt (c : Core) (v : Byte)
  /-- LC_STWQ_READ (R141). -/
  | lcStwqRead
  /-- LC_RIND_STORE (R462). -/
  | lcRindStore (c : Core) (off : Byte) (v : Byte)
  /-- LC_TPO_COMMIT (R418). -/
  | lcTpoCommit (c : Core) (n : Fin 8) (v : Byte)
  /-- ARBITER_DECISION (R261). -/
  | arbiterDecision (id : Nat) (reqs : List Nat) (dead : Bool)
  /-- ARB_COMMIT (R264). -/
  | arbCommit (ag : Agent) (v : Word)
  /-- INPUT_FREEZE (R193). -/
  | inputFreeze
  /-- UPDATE_DONE (R279). -/
  | updateDone (clk : BitVec 11)
  /-- MERGE_DONE (R204). -/
  | mergeDone
  /-- PUBLISH_COPY_DONE (R193). -/
  | publishCopyDone
  /-- OVERRUN (R218). -/
  | overrun
  /-- APPLY (R193). -/
  | apply
  /-- RIND_REFRESH_SKIP (R34). -/
  | rindRefreshSkip
  /-- EVENT_DISPATCH (R212). -/
  | eventDispatch
  /-- PREEMPTION (R214). -/
  | preemption (c : Core)
  /-- LANE_FAULT (R219). -/
  | laneFault (p : Fin 68) (cause : BitVec 4)
  /-- SPARE_READY (R222). -/
  | spareReady (b : Fin 4)
  /-- COPY_ERR (R225). -/
  | copyErr (b : Fin 4) (addr : BitVec 14) (half : Bool)
  /-- FORCEFLT (R240). -/
  | forceflt (ag : Agent) (b : Fin 4) (v : Word)
  /-- BREAKPOINT_HIT (R227). -/
  | breakpointHit (p : Fin 68)
  /-- HOLD_KEEPALIVE (R229). -/
  | holdKeepalive
  /-- HOLD_STEP (R230). -/
  | holdStep (ag : Agent)
  /-- HOLD_CYCLE (R231). -/
  | holdCycle (ag : Agent)
  /-- DBG_CORE_HALT (R237). -/
  | dbgCoreHalt (ag : Agent) (v : Word)
  /-- DBG_CORE_RUN (R237). -/
  | dbgCoreRun (ag : Agent) (v : Word)
  /-- SERVICE_LANE_FAULT (R582). -/
  | serviceLaneFault (i : Fin 5)
  /-- PSNCLR (R255). -/
  | psnclr (ag : Agent) (v : Word)
  /-- TMC_MODE_WRITE (R287). -/
  | tmcModeWrite (ag : Agent) (cell : BitVec 12) (v : Byte)
  /-- CELL_COUNT_COMMIT (R288). -/
  | cellCountCommit (ag : Agent) (cell : BitVec 12) (v : Byte)
  /-- GRF_ARM (R293). -/
  | grfArm (ag : Agent)
  /-- GRAFT_DIGEST_DONE (R294). -/
  | graftDigestDone
  /-- GRF_DISARM (R297). -/
  | grfDisarm (ag : Agent)
  /-- MAPIDX_WRITE (R298). -/
  | mapidxWrite (ag : Agent) (v : Word)
  /-- MAPDATA_HI_WRITE (R298). -/
  | mapdataHiWrite (ag : Agent) (v : Word)
  /-- MAPDATA_HI_READ (R298). -/
  | mapdataHiRead (ag : Agent)
  /-- GRAFT_TEST_POINT (R306). -/
  | graftTestPoint
  /-- GRAFT_ATTEMPT_FAIL (R306). -/
  | graftAttemptFail
  /-- GRF_APPLIED (R306). -/
  | grfApplied
  /-- GRAFT_LATE (R313). -/
  | graftLate
  /-- NON_VUVAS_FRAME (R319). -/
  | nonVuvasFrame (net : Net)
  /-- IN_FRAME_RX (R332). -/
  | inFrameRx (net : Net) (f : List Byte) (lands : Bool)
  /-- HELLO_RX (R343). -/
  | helloRx (net : Net) (f : List Byte)
  /-- DIAG_RX (R354). -/
  | diagRx (net : Net) (f : List Byte)
  /-- PARTNER_OUT_RX (R327). -/
  | partnerOutRx (net : Net) (f : List Byte)
  /-- SCHED_TX (R328). -/
  | schedTx
  /-- SAFE_TX (R328). -/
  | safeTx
  /-- RELEASE_TX (R346). -/
  | releaseTx
  /-- CONF_TX (R343). -/
  | confTx
  /-- RELEASE_REQUEST (R346). -/
  | releaseRequest (ag : Agent) (m : Fin 4) (v : Word)
  /-- SAFE_REQUEST (R347). -/
  | safeRequest (ag : Agent) (m : Fin 4) (v : Word)
  /-- OUT_FRAME_RX (R337). -/
  | outFrameRx (net : Net) (f : List Byte)
  /-- SCHED_RX (R348). -/
  | schedRx (net : Net) (f : List Byte)
  /-- SAFE_FRAME_RX (R339). -/
  | safeFrameRx (net : Net) (f : List Byte)
  /-- RELEASE_RX (R340). -/
  | releaseRx (net : Net) (f : List Byte)
  /-- CONF_RX (R344). -/
  | confRx (net : Net) (f : List Byte)
  /-- TAKE_RX (R336). -/
  | takeRx (net : Net) (f : List Byte)
  /-- STATION_APPLY (R338). -/
  | stationApply
  /-- STATION_SAMPLE (R349). -/
  | stationSample
  /-- HELLO_TX (R342). -/
  | helloTx
  /-- DIAG_TX (R325). -/
  | diagTx
  /-- STATION_TIMEOUT (R339). -/
  | stationTimeout
  /-- STN_LEAD_LOST (R341). -/
  | stnLeadLost
  /-- HB_TX (R360). -/
  | hbTx
  /-- HB_RX (R360). -/
  | hbRx (r : List Byte)
  /-- TWIN_LINK_LOST (R360). -/
  | twinLinkLost
  /-- TAKE_IN_PULSE (R357). -/
  | takeInPulse (ns : Nat)
  /-- DTIME_RX (R365). -/
  | dtimeRx (r : List Byte)
  /-- DLINE_RX (R365). -/
  | dlineRx (r : List Byte)
  /-- CFGW_RX (R365). -/
  | cfgwRx (r : List Byte)
  /-- COMMIT_RX (R365). -/
  | commitRx (r : List Byte)
  /-- DELTA_LATE (R368). -/
  | deltaLate
  /-- DIGEST_RX (R372). -/
  | digestRx (r : List Byte)
  /-- PUBWAIT_EXPIRY (R373). -/
  | pubwaitExpiry
  /-- SWITCH_REQ (R382). -/
  | switchReq (r : List Byte)
  /-- SWITCH_ACK (R382). -/
  | switchAck (r : List Byte)
  /-- CMD_RESET (R380). -/
  | cmdReset (r : List Byte)
  /-- CMD_HANDOVER (R377). -/
  | cmdHandover (r : List Byte)
  /-- CMD_DIVERGE (R374). -/
  | cmdDiverge (r : List Byte)
  /-- CMD_HOLD (R375). -/
  | cmdHold (r : List Byte)
  /-- CMD_RESUME (R85). -/
  | cmdResume (r : List Byte)
  /-- CMD_GRF_DIGEST (R310). -/
  | cmdGrfDigest (r : List Byte)
  /-- CMD_GRF_GO (R312). -/
  | cmdGrfGo (r : List Byte)
  /-- TWN_PRESET (R380). -/
  | twnPreset (ag : Agent) (v : Word)
  /-- TWN_SWITCH (R382). -/
  | twnSwitch (ag : Agent)
  /-- TWN_RESYNC (R386). -/
  | twnResync (ag : Agent)
  /-- FLINE_RX (R383). -/
  | flineRx (r : List Byte)
  /-- FMARK_RX (R385). -/
  | fmarkRx (r : List Byte)
  /-- TIM_SET (R395). -/
  | timSet (ag : Agent)
  /-- TIM_STEP (R395). -/
  | timStep (ag : Agent)
  /-- LOADRTC (R400). -/
  | loadrtc (ag : Agent)
  /-- RTC_LOAD (R400). -/
  | rtcLoad
  /-- OFFSET_MEASUREMENT (R397). -/
  | offsetMeasurement (ag : Agent) (v : Word)
  /-- HOLDOVER_EXPIRY (R398). -/
  | holdoverExpiry
  /-- TCI_EDGE (R411). -/
  | tciEdge (n : Fin 4) (rising : Bool)
  /-- TCI_TS_READ (R412). -/
  | tciTsRead (ag : Agent) (n : Fin 4)
  /-- TPO_ARM (R414). -/
  | tpoArm (ag : Agent) (n : Fin 8) (v : Word)
  /-- TPO_UNARM (R416). -/
  | tpoUnarm (ag : Agent) (n : Fin 8) (v : Word)
  /-- TPO_EDGE (R417). -/
  | tpoEdge (n : Fin 8)
  /-- TPO_DONE (R416). -/
  | tpoDone (n : Fin 8)
  /-- ETH_ENABLE (R426). -/
  | ethEnable (ag : Agent) (n : Fin 4) (en : Bool)
  /-- ETH_TRANSITION_DONE (R426). -/
  | ethTransitionDone (n : Fin 4)
  /-- MDIO_GO (R426). -/
  | mdioGo (ag : Agent) (n : Fin 4) (v : Word)
  /-- MDIO_DONE (R426). -/
  | mdioDone (n : Fin 4) (data : Half)
  /-- ETH_TX_FRAME (R427). -/
  | ethTxFrame (n : Fin 4)
  /-- TXTS_READ (R410). -/
  | txtsRead (ag : Agent) (n : Fin 4)
  /-- ETH_RX_FRAME (R427). -/
  | ethRxFrame (n : Fin 4) (f : List Byte) (ok : Bool)
  /-- LINK_CHANGE (R429). -/
  | linkChange (n : Fin 4) (up : Bool) (speed : BitVec 2)
  /-- CAN_ENABLE (R433). -/
  | canEnable (ag : Agent) (n : Fin 4) (en : Bool)
  /-- CAN_TRANSITION_DONE (R433). -/
  | canTransitionDone (n : Fin 4)
  /-- CAN_RX_FRAME (R438). -/
  | canRxFrame (n : Fin 4) (f : CanFrame) (age : Word)
  /-- RXFULL_ACK (R440). -/
  | rxfullAck (ag : Agent) (n : Fin 4) (m : Fin 4) (v : Word)
  /-- TXRDY (R441). -/
  | txrdy (ag : Agent) (n : Fin 4) (m : Fin 4) (v : Word)
  /-- TXCAN (R444). -/
  | txcan (ag : Agent) (n : Fin 4) (m : Fin 4) (v : Word)
  /-- CAN_TX_SELECT (R443). -/
  | canTxSelect (n : Fin 4)
  /-- CAN_TX_END (R444). -/
  | canTxEnd (n : Fin 4) (r : CanEnd) (age : Word)
  /-- CAN_RECOVER (R447). -/
  | canRecover (ag : Agent) (n : Fin 4)
  /-- CAN_RECOVERED (R447). -/
  | canRecovered (n : Fin 4)
  /-- RND_ENABLE (R455). -/
  | rndEnable (ag : Agent) (en : Bool)
  /-- RND_CHEN (R455). -/
  | rndChen (ag : Agent) (v : Word)
  /-- ENABLE_DONE (R455). -/
  | enableDone (fn : Nat)
  /-- RIND_REFRESH (R458). -/
  | rindRefresh (crcOk : Bool)
  /-- RIND_APPLY (R458). -/
  | rindApply (crcOk : Bool)
  /-- RIND_SAFE_FRAME (R466). -/
  | rindSafeFrame (crcOk : Bool)
  /-- RIND_RELEASE_FRAME (R469). -/
  | rindReleaseFrame (crcOk : Bool)
  /-- RIND_DIRECT_FRAME (R461). -/
  | rindDirectFrame (crcOk : Bool)
  /-- RIND_CONFIG_FRAME (R454). -/
  | rindConfigFrame (crcOk : Bool)
  /-- RIND_SAMPLE (R463). -/
  | rindSample (levels : Word)
  /-- RIND_REPORT (R465). -/
  | rindReport (rx : ReportRx)
  /-- RIND_TIMEOUT (R466). -/
  | rindTimeout
  /-- DEMAG_END (R460). -/
  | demagEnd (c : Fin 32)
  /-- THERMAL_SHUTDOWN (R459). -/
  | thermalShutdown (c : Fin 32) (on : Bool)
  /-- RND_CMD_SAFE (R468). -/
  | rndCmdSafe (ag : Agent)
  /-- RND_CMD_RELEASE (R469). -/
  | rndCmdRelease (ag : Agent)
  /-- RIND_LINK_LOST (R473). -/
  | rindLinkLost
  /-- RIND_FAULT_CLEAR (R474). -/
  | rindFaultClear (ag : Agent)
  /-- VFLD_LOST (R472). -/
  | vfldLost
  /-- VFLD_BACK (R472). -/
  | vfldBack
  /-- WDT_PERIOD_COMMIT (R480). -/
  | wdtPeriodCommit (ag : Agent) (v : Word)
  /-- WDT_CONFIG_COMMIT (R482). -/
  | wdtConfigCommit (ag : Agent) (warn : Bool) (v : Word)
  /-- WDT_SERVICE (R485). -/
  | wdtService (ag : Agent) (v : Word)
  /-- WDT_CHECKIN (R486). -/
  | wdtCheckin (ag : Agent) (v : Word)
  /-- WDT_WINDOW_OPEN (R483). -/
  | wdtWindowOpen
  /-- WARN (R488). -/
  | warn
  /-- WDT_EXPIRY (R490). -/
  | wdtExpiry
  /-- WDPULSE_END (R491). -/
  | wdpulseEnd
  /-- KEEP_LOAD (R504). -/
  | keepLoad (ag : Agent) (page : BitVec 15)
  /-- KEEP_COMMIT (R507). -/
  | keepCommit (ag : Agent) (page : BitVec 15)
  /-- PIPINC (R513). -/
  | pipinc (ag : Agent) (page : BitVec 15)
  /-- PIPREAD (R512). -/
  | pipread (ag : Agent) (page : BitVec 15)
  /-- PIPINIT (R514). -/
  | pipinit (ag : Agent) (page : BitVec 15)
  /-- UNLOCK_RD (R517). -/
  | unlockRd (ag : Agent)
  /-- UNLOCK_WR (R517). -/
  | unlockWr (ag : Agent)
  /-- KEEP_LOCK (R518). -/
  | keepLock (ag : Agent)
  /-- SETPW_RD (R518). -/
  | setpwRd (ag : Agent)
  /-- SETPW_WR (R518). -/
  | setpwWr (ag : Agent)
  /-- SETBP (R519). -/
  | setbp (ag : Agent)
  /-- KEEP_CMD_EXECUTE (R505). -/
  | keepCmdExecute
  /-- COMMIT_DONE (R506). -/
  | commitDone (vf : Fin 3)
  /-- KEEP_BACKGROUND_WRITE (R511). -/
  | keepBackgroundWrite (page : BitVec 15) (vf : Fin 3)
  /-- RTC_SECOND_TICK (R526). -/
  | rtcSecondTick
  /-- COMP_WINDOW (R536). -/
  | compWindow (temp : BitVec 10)
  /-- OSC_STOP (R527). -/
  | oscStop
  /-- PD0_POWER_UP (R527). -/
  | pd0PowerUp
  /-- VBAT_CHANGEOVER (R539). -/
  | vbatChangeover (toVbat : Bool)
  /-- RTC_SET (R530). -/
  | rtcSet (ag : Agent)
  /-- ADDH (R531). -/
  | addh (ag : Agent)
  /-- SUBH (R531). -/
  | subh (ag : Agent)
  /-- FROMNET (R420). -/
  | fromnet (ag : Agent)
  /-- RTC_XFER (R420). -/
  | rtcXfer
  /-- FLR (R547). -/
  | flr
  /-- PERST (R547). -/
  | perst
  /-- FLR_DONE (R547). -/
  | flrDone
  /-- PCIE_LINK_UP (R572). -/
  | pcieLinkUp (speed : BitVec 2) (width : BitVec 2)
  /-- PCIE_LINK_DOWN (R572). -/
  | pcieLinkDown
  /-- AER_UE (R572). -/
  | aerUe
  /-- AER_CE (R572). -/
  | aerCe
  /-- MBX_H2D_SET (R549). -/
  | mbxH2dSet (v : Half)
  /-- MBX_H2D_CLEAR (R549). -/
  | mbxH2dClear (ag : Agent) (v : Half)
  /-- MBX_D2H_SET (R549). -/
  | mbxD2hSet (ag : Agent) (v : Half)
  /-- MBX_D2H_CLEAR (R549). -/
  | mbxD2hClear (v : Half)
  /-- SVC_BAD_FRAME (R552). -/
  | svcBadFrame
  /-- SVC_GAP_TIMEOUT (R552). -/
  | svcGapTimeout
  /-- IDENTIFY (R554). -/
  | identify (seq : Byte)
  /-- UPD_OPEN (R564). -/
  | updOpen (seq : Byte) (f : List Byte) (ok : Bool)
  /-- UPD_PIECE (R565). -/
  | updPiece (seq : Byte) (f : List Byte) (ok : Bool)
  /-- UPD_STATUS (R554). -/
  | updStatus (seq : Byte)
  /-- UPD_ABORT (R566). -/
  | updAbort (seq : Byte)
  /-- DIAG_DUMP (R554). -/
  | diagDump (seq : Byte) (f : List Byte)
  /-- MODE_REQ (R554). -/
  | modeReq (seq : Byte) (f : List Byte)
  /-- UNKNOWN_CMD (R556). -/
  | unknownCmd (seq : Byte) (cmd : Byte)
  /-- QSP_READ (R559). -/
  | qspRead (ag : Agent)
  /-- QSP_PROGRAM (R559). -/
  | qspProgram (ag : Agent)
  /-- QSP_ERASE4K (R559). -/
  | qspErase4k (ag : Agent)
  /-- QSP_ERASE64K (R559). -/
  | qspErase64k (ag : Agent)
  /-- QSP_DONE (R575). -/
  | qspDone (bank : Fin 3) (err : BitVec 4)
  /-- HCMD_OPEN (R564). -/
  | hcmdOpen (ag : Agent)
  /-- HCMD_PIECE (R565). -/
  | hcmdPiece (ag : Agent)
  /-- HCMD_ABORT (R566). -/
  | hcmdAbort (ag : Agent)
  /-- ARB_ADVANCE (R568). -/
  | arbAdvance (ag : Agent) (v : Word)
  /-- SECURE_BOOT (R569). -/
  | secureBoot (ag : Agent) (v : Word)
  /-- DBG_LOCK (R569). -/
  | dbgLock (ag : Agent) (v : Word)
  /-- KEYREV (R569). -/
  | keyrev (ag : Agent) (v : Word)
  /-- HCMD_DONE (R562). -/
  | hcmdDone (ok : Bool)
  /-- KEY_UNWRAP (R574). -/
  | keyUnwrap (ag : Agent)
  /-- KEY_CLEAR (R574). -/
  | keyClear (ag : Agent)
  /-- XCMD_GO (R574). -/
  | xcmdGo (ag : Agent)
  /-- EVTSET (R574). -/
  | evtset (ag : Agent) (v : Word)
  /-- FUS_ARB_BIT (R569). -/
  | fusArbBit (ag : Agent) (v : Word)
  /-- FUS_SECURE_BOOT (R569). -/
  | fusSecureBoot (ag : Agent) (v : Word)
  /-- FUS_DBG_LOCK (R570). -/
  | fusDbgLock (ag : Agent) (v : Word)
  /-- FUS_KEYREV (R569). -/
  | fusKeyrev (ag : Agent) (v : Word)
  /-- FUS_PROGRAM_DONE (R569). -/
  | fusProgramDone (ok : Bool)
  /-- SCRUB_READ (R578). -/
  | scrubRead (k : Fin 6) (key : Nat) (ue : Bool) (ce : Bool)
  /-- SCRUB_WRITEBACK (R581). -/
  | scrubWriteback (key : Nat)
  /-- RCAL_REQUEST (R583). -/
  | rcalRequest
  /-- RTC_TRIM_WINDOW (R584). -/
  | rtcTrimWindow (e : Half) (discarded : Bool)
  /-- RATE_AVERAGE (R585). -/
  | rateAverage (mean : Word)
  /-- TELEMETRY_SAMPLE (R586). -/
  | telemetrySample (temps : List Half) (volts : List Half)
  /-- LCLR (R587). -/
  | lclr (ag : Agent)
  /-- HB_MISS (R360). -/
  | hbMiss
  /-- PLL_LOCK (R124). -/
  | pllLock (p : Fin 6)
  /-- CAN_RX_ERROR (R445). -/
  | canRxError (n : Fin 4) (lec : BitVec 3) (big : Bool)
  /-- CURRENT_LIMIT (R474). -/
  | currentLimit (c : Fin 32) (on : Bool)
  deriving DecidableEq, Repr

end Sys2Proof
end

