-- ==== Sys2Proof/Decode.lean ====
section
/-! DEFINITION. Decoding. spec/opcode_table.json gives no row bits, so no word of the table's bits spells a command. The 24-bit instruction
words of the cores (04 R147, 05 R161–R189) do spell commands: `decodeLimlis` reads one as the row of its instruction, `encodeLimlis` writes it. -/

-- one declaration at a time: many at once take a thread and its stack each
set_option Elab.async false

namespace Sys2Proof

/-- No row of the table has bits. -/
def decodeTableWord (_nbits _w : Nat) : Option Instr := none

/-! ## Fields of the formats M, B, A, I, J and X (04 R147) -/

/-- The primary opcode. -/
def wordOpcode (w : BitVec 24) : BitVec 6 := w.extractLsb' 18 6
/-- Field gd of A and I, g of M. -/
def wordGd (w : BitVec 24) : GReg := w.extractLsb' 13 5
/-- Field gs of A. -/
def wordGs (w : BitVec 24) : GReg := w.extractLsb' 8 5
/-- Field gt of A. -/
def wordGt (w : BitVec 24) : GReg := w.extractLsb' 3 5
/-- Field sub of X, cond of J. -/
def wordSub (w : BitVec 24) : BitVec 4 := w.extractLsb' 14 4
/-- The operands of X, the offset or target of J. -/
def wordRest (w : BitVec 24) : BitVec 14 := w.extractLsb' 0 14
/-- Field pb of M. -/
def wordPbM (w : BitVec 24) : PReg := w.extractLsb' 9 4
/-- Field disp of M. -/
def wordDispM (w : BitVec 24) : BitVec 9 := w.extractLsb' 0 9
/-- Field bit of B. -/
def wordBit (w : BitVec 24) : BitVec 3 := w.extractLsb' 15 3
/-- Field pb of B. -/
def wordPbB (w : BitVec 24) : PReg := w.extractLsb' 11 4
/-- Field disp of B. -/
def wordDispB (w : BitVec 24) : BitVec 11 := w.extractLsb' 0 11
/-- Field imm8 of I. -/
def wordImm (w : BitVec 24) : Byte := w.extractLsb' 5 8

/-- `i` where the reserved operand bits of a word are 0 (04 R160). -/
def ifZero {n : Nat} (r : BitVec n) (i : Instr) : Option Instr := if r = 0 then some i else none

/-! ## The tables -/

/-- CTL by its sub (05 R163). -/
def decodeCtl (c : Core) (w : BitVec 24) : Option Instr :=
  match (wordSub w).toNat with
  | 0 => ifZero (wordRest w) (.halt c)
  | 1 => ifZero (wordRest w) (.nop c)
  | 2 => ifZero (w.extractLsb' 6 8) (.repImm c (w.extractLsb' 0 6))
  | 3 => ifZero (w.extractLsb' 5 9) (.repReg c (w.extractLsb' 0 5))
  | 4 => ifZero (wordRest w) (.repRc c)
  | 5 => ifZero (w.extractLsb' 4 10) (.seal c (w.extractLsb' 0 4))
  | 6 => ifZero (w.extractLsb' 3 11) (.lck c (w.extractLsb' 0 3))
  | 7 => ifZero (wordRest w) (.step c)
  | 8 => ifZero (w.extractLsb' 0 1) (.movs c (w.extractLsb' 9 5) (w.extractLsb' 1 8))
  | 9 => ifZero (w.extractLsb' 0 1) (.movt c (w.extractLsb' 1 8) (w.extractLsb' 9 5))
  | 10 => ifZero (wordRest w) (.evret c)
  | 11 => some (.brk c (wordRest w))
  | 12 => ifZero (w.extractLsb' 0 10) (.jmpr c (w.extractLsb' 10 4))
  | _ => none

/-- KOP by its sub (05 R180). -/
def decodeKop (c : Core) (w : BitVec 24) : Option Instr :=
  match (wordSub w).toNat with
  | 0 => ifZero (wordRest w) (.pshk c)
  | 1 => ifZero (wordRest w) (.popk c)
  | 2 => ifZero (wordRest w) (.andpk c)
  | 3 => ifZero (wordRest w) (.orpk c)
  | 4 => ifZero (wordRest w) (.xorpk c)
  | 5 => ifZero (wordRest w) (.notk c)
  | 6 => ifZero (wordRest w) (.onek c)
  | 7 => ifZero (wordRest w) (.zerok c)
  | _ => none

/-- ALU by its fn (05 R181). -/
def decodeAlu (c : Core) (w : BitVec 24) : Option Instr :=
  let d := wordGd w
  let s := wordGs w
  let t := wordGt w
  match (w.extractLsb' 0 3).toNat with
  | 0 => some (.add c d s t)
  | 1 => some (.adc c d s t)
  | 2 => some (.sub c d s t)
  | 3 => some (.sbc c d s t)
  | 4 => some (.and c d s t)
  | 5 => some (.or c d s t)
  | 6 => some (.xor c d s t)
  | _ => ifZero d (.cmp c s t)

/-- SHF by its fn (05 R181). -/
def decodeShf (c : Core) (w : BitVec 24) : Option Instr :=
  let d := wordGd w
  let s := wordGs w
  let t := wordGt w
  match (w.extractLsb' 0 3).toNat with
  | 0 => some (.shl c d s t)
  | 1 => some (.shr c d s t)
  | 2 => some (.asr c d s t)
  | 3 => some (.rol c d s t)
  | 4 => some (.ror c d s t)
  | 5 => ifZero t (.mov c d s)
  | 6 => ifZero t (.not c d s)
  | _ => ifZero t (.neg c d s)

/-- MDV by its fn (05 R183). -/
def decodeMdv (c : Core) (w : BitVec 24) : Option Instr :=
  match (w.extractLsb' 0 3).toNat with
  | 0 => some (.mulu c (wordGd w) (wordGs w) (wordGt w))
  | 1 => some (.muls c (wordGd w) (wordGs w) (wordGt w))
  | 2 => some (.divu c (wordGd w) (wordGs w) (wordGt w))
  | 3 => some (.divs c (wordGd w) (wordGs w) (wordGt w))
  | _ => none

/-- WRD by its fn (05 R185). -/
def decodeWrd (c : Core) (w : BitVec 24) : Option Instr :=
  match (w.extractLsb' 0 3).toNat with
  | 0 => some (.addw c (wordGd w) (wordGs w) (wordGt w))
  | 1 => some (.subw c (wordGd w) (wordGs w) (wordGt w))
  | 2 => ifZero (wordGd w) (.cmpw c (wordGs w) (wordGt w))
  | 3 => ifZero (wordGt w) (.movw c (wordGd w) (wordGs w))
  | _ => none

/-- IMM by its fn (05 R186). -/
def decodeImm (c : Core) (w : BitVec 24) : Option Instr :=
  let d := wordGd w
  let i := wordImm w
  match (w.extractLsb' 0 5).toNat with
  | 0 => some (.ldi c d i)
  | 1 => some (.addi c d i)
  | 2 => some (.adci c d i)
  | 3 => some (.subi c d i)
  | 4 => some (.sbci c d i)
  | 5 => some (.andi c d i)
  | 6 => some (.ori c d i)
  | 7 => some (.xori c d i)
  | 8 => some (.cmpi c d i)
  | 9 => some (.tsti c d i)
  | 10 => some (.shli c d i)
  | 11 => some (.shri c d i)
  | 12 => some (.asri c d i)
  | 13 => some (.roli c d i)
  | 14 => some (.rori c d i)
  | 15 => some (.addwi c d i)
  | 16 => some (.subwi c d i)
  | 17 => ifZero (w.extractLsb' 8 5) (.kfr c d (w.extractLsb' 5 3))
  | 18 => ifZero (w.extractLsb' 8 5) (.kto c d (w.extractLsb' 5 3))
  | _ => none

/-- The bit instructions by opcode (05 R177). -/
def decodeBit (c : Core) (w : BitVec 24) : Option Instr :=
  let b := wordBit w
  let p := wordPbB w
  let d := wordDispB w
  match (wordOpcode w).toNat with
  | 0x08 => some (.ldk c b p d)
  | 0x09 => some (.ldkn c b p d)
  | 0x0A => some (.andk c b p d)
  | 0x0B => some (.andkn c b p d)
  | 0x0C => some (.ork c b p d)
  | 0x0D => some (.orkn c b p d)
  | 0x0E => some (.xork c b p d)
  | 0x0F => some (.stk c b p d)
  | 0x10 => some (.stkn c b p d)
  | 0x11 => some (.setk c b p d)
  | 0x12 => some (.clrk c b p d)
  | 0x13 => some (.rise c b p d)
  | 0x14 => some (.fall c b p d)
  | 0x15 => some (.tmr c b p d)
  | _ => none

/-- The command of an instruction word that core `c` executes (05 R161); none where the opcode, fn or sub is unassigned or a reserved operand bit is not 0. A cond
that 05 R187 or R188 leaves unassigned, an odd register where a pair is named (R162), and a count that R160 or R191 forbids are operands of their rows. -/
def decodeLimlis (c : Core) (w : BitVec 24) : Option Instr :=
  match (wordOpcode w).toNat with
  | 0x00 => decodeCtl c w
  | 0x01 => decodeKop c w
  | 0x04 => some (.ld c (wordGd w) (wordPbM w) (wordDispM w))
  | 0x05 => some (.st c (wordGd w) (wordPbM w) (wordDispM w))
  | 0x06 => some (.ldp c (wordGd w) (wordPbM w) ⟨wordDispM w, false⟩)
  | 0x07 => some (.stp c (wordGd w) (wordPbM w) ⟨wordDispM w, false⟩)
  | 0x18 => decodeAlu c w
  | 0x19 => decodeShf c w
  | 0x1A => decodeMdv c w
  | 0x1B => decodeWrd c w
  | 0x20 => decodeImm c w
  | 0x30 => some (.br c (wordSub w) (wordRest w))
  | 0x31 => some (.brf c (wordSub w) (wordRest w))
  | 0x32 => ifZero (wordSub w) (.jmp c (wordRest w))
  | 0x33 => ifZero (wordSub w) (.call c (wordRest w))
  | _ => decodeBit c w

/-! ## The encoder -/

/-- A word of format X or J: opcode, sub or cond, operands. -/
def encX (op : BitVec 6) (sub : BitVec 4) (rest : BitVec 14) : BitVec 24 := op ++ (sub ++ rest)
/-- A word of format A. -/
def encA (op : BitVec 6) (fn : BitVec 3) (gd gs gt : GReg) : BitVec 24 := op ++ (gd ++ (gs ++ (gt ++ fn)))
/-- A word of format I. -/
def encI (fn : BitVec 5) (gd : GReg) (imm : Byte) : BitVec 24 := (0x20 : BitVec 6) ++ (gd ++ (imm ++ fn))
/-- A word of format M. -/
def encM (op : BitVec 6) (g : GReg) (pb : PReg) (disp : BitVec 9) : BitVec 24 := op ++ (g ++ (pb ++ disp))
/-- A word of format B. -/
def encB (op : BitVec 6) (b : BitVec 3) (pb : PReg) (disp : BitVec 11) : BitVec 24 := op ++ (b ++ (pb ++ disp))

/-- The word of a core's instruction (04 R147, 05 R161–R189); none for a command that is no instruction. -/
def encodeLimlis : Instr → Option (BitVec 24)
  | .halt _ => some (encX 0 0 0)
  | .nop _ => some (encX 0 1 0)
  | .repImm _ n => some (encX 0 2 (n.setWidth 14))
  | .repReg _ g => some (encX 0 3 (g.setWidth 14))
  | .repRc _ => some (encX 0 4 0)
  | .seal _ n => some (encX 0 5 (n.setWidth 14))
  | .lck _ n => some (encX 0 6 (n.setWidth 14))
  | .step _ => some (encX 0 7 0)
  | .movs _ gd sr => some (encX 0 8 (gd ++ (sr ++ (0 : BitVec 1))))
  | .movt _ sr gs => some (encX 0 9 (gs ++ (sr ++ (0 : BitVec 1))))
  | .evret _ => some (encX 0 10 0)
  | .brk _ code => some (encX 0 11 code)
  | .jmpr _ pb => some (encX 0 12 (pb ++ (0 : BitVec 10)))
  | .pshk _ => some (encX 1 0 0)
  | .popk _ => some (encX 1 1 0)
  | .andpk _ => some (encX 1 2 0)
  | .orpk _ => some (encX 1 3 0)
  | .xorpk _ => some (encX 1 4 0)
  | .notk _ => some (encX 1 5 0)
  | .onek _ => some (encX 1 6 0)
  | .zerok _ => some (encX 1 7 0)
  | .ld _ g pb d => some (encM 0x04 g pb d)
  | .st _ g pb d => some (encM 0x05 g pb d)
  | .ldp _ g pb d => some (encM 0x06 g pb d.disp)
  | .stp _ g pb d => some (encM 0x07 g pb d.disp)
  | .ldk _ b pb d => some (encB 0x08 b pb d)
  | .ldkn _ b pb d => some (encB 0x09 b pb d)
  | .andk _ b pb d => some (encB 0x0A b pb d)
  | .andkn _ b pb d => some (encB 0x0B b pb d)
  | .ork _ b pb d => some (encB 0x0C b pb d)
  | .orkn _ b pb d => some (encB 0x0D b pb d)
  | .xork _ b pb d => some (encB 0x0E b pb d)
  | .stk _ b pb d => some (encB 0x0F b pb d)
  | .stkn _ b pb d => some (encB 0x10 b pb d)
  | .setk _ b pb d => some (encB 0x11 b pb d)
  | .clrk _ b pb d => some (encB 0x12 b pb d)
  | .rise _ b pb d => some (encB 0x13 b pb d)
  | .fall _ b pb d => some (encB 0x14 b pb d)
  | .tmr _ b pb d => some (encB 0x15 b pb d)
  | .add _ d s t => some (encA 0x18 0 d s t)
  | .adc _ d s t => some (encA 0x18 1 d s t)
  | .sub _ d s t => some (encA 0x18 2 d s t)
  | .sbc _ d s t => some (encA 0x18 3 d s t)
  | .and _ d s t => some (encA 0x18 4 d s t)
  | .or _ d s t => some (encA 0x18 5 d s t)
  | .xor _ d s t => some (encA 0x18 6 d s t)
  | .cmp _ s t => some (encA 0x18 7 0 s t)
  | .shl _ d s t => some (encA 0x19 0 d s t)
  | .shr _ d s t => some (encA 0x19 1 d s t)
  | .asr _ d s t => some (encA 0x19 2 d s t)
  | .rol _ d s t => some (encA 0x19 3 d s t)
  | .ror _ d s t => some (encA 0x19 4 d s t)
  | .mov _ d s => some (encA 0x19 5 d s 0)
  | .not _ d s => some (encA 0x19 6 d s 0)
  | .neg _ d s => some (encA 0x19 7 d s 0)
  | .mulu _ d s t => some (encA 0x1A 0 d s t)
  | .muls _ d s t => some (encA 0x1A 1 d s t)
  | .divu _ d s t => some (encA 0x1A 2 d s t)
  | .divs _ d s t => some (encA 0x1A 3 d s t)
  | .addw _ d s t => some (encA 0x1B 0 d s t)
  | .subw _ d s t => some (encA 0x1B 1 d s t)
  | .cmpw _ s t => some (encA 0x1B 2 0 s t)
  | .movw _ d s => some (encA 0x1B 3 d s 0)
  | .ldi _ d i => some (encI 0 d i)
  | .addi _ d i => some (encI 1 d i)
  | .adci _ d i => some (encI 2 d i)
  | .subi _ d i => some (encI 3 d i)
  | .sbci _ d i => some (encI 4 d i)
  | .andi _ d i => some (encI 5 d i)
  | .ori _ d i => some (encI 6 d i)
  | .xori _ d i => some (encI 7 d i)
  | .cmpi _ d i => some (encI 8 d i)
  | .tsti _ d i => some (encI 9 d i)
  | .shli _ d i => some (encI 10 d i)
  | .shri _ d i => some (encI 11 d i)
  | .asri _ d i => some (encI 12 d i)
  | .roli _ d i => some (encI 13 d i)
  | .rori _ d i => some (encI 14 d i)
  | .addwi _ d i => some (encI 15 d i)
  | .subwi _ d i => some (encI 16 d i)
  | .kfr _ d b => some (encI 17 d (b.setWidth 8))
  | .kto _ d b => some (encI 18 d (b.setWidth 8))
  | .br _ cond off => some (encX 0x30 cond off)
  | .brf _ cond off => some (encX 0x31 cond off)
  | .jmp _ t => some (encX 0x32 0 t)
  | .call _ t => some (encX 0x33 0 t)
  | _ => none

end Sys2Proof
end

