-- ==== Sys2Proof/Machine/Crc.lean ====
section
/-! DEFINITION. CRC-32C (10 R323), the CRC-64 of every digest (09 R294), and the byte orders of frames and records. -/

-- one declaration at a time: many at once take a thread and its stack each
set_option Elab.async false

namespace Sys2Proof.Machine

/-- One bit step of CRC-32C, reflected (10 R323): 0x82F6_3B78 is 0x1EDC_6F41 with its bits reversed. -/
def crc32cBit (c : Word) : Word := if c.getLsbD 0 then (c >>> 1) ^^^ 0x82F63B78 else c >>> 1

/-- One byte of CRC-32C. -/
def crc32cByte (c : Word) (b : Byte) : Word :=
  (List.range 8).foldl (fun c _ => crc32cBit c) (c ^^^ b.setWidth 32)

/-- CRC-32C of bytes (10 R323). -/
def crc32c (bs : List Byte) : Word := (bs.foldl crc32cByte 0xFFFFFFFF) ^^^ 0xFFFFFFFF

/-- One bit step of CRC-64, not reflected (09 R294). -/
def crc64Bit (c : DWord) : DWord := if c.getLsbD 63 then (c <<< 1) ^^^ 0x42F0E1EBA9EA3693 else c <<< 1

/-- One byte of CRC-64. -/
def crc64Byte (c : DWord) (b : Byte) : DWord :=
  (List.range 8).foldl (fun c _ => crc64Bit c) (c ^^^ (b.setWidth 64 <<< 56))

/-- CRC-64 of bytes (09 R294). -/
def crc64 (bs : List Byte) : DWord := bs.foldl crc64Byte 0

/-- One bit step of the service port's CRC-16, not reflected (18 R551). -/
def crc16Bit (c : Half) : Half := if c.getLsbD 15 then (c <<< 1) ^^^ 0x1021 else c <<< 1

/-- CRC-16 of bytes (18 R551). -/
def crc16 (bs : List Byte) : Half :=
  bs.foldl (fun (c : Half) (b : Byte) => (List.range 8).foldl (fun c _ => crc16Bit c) (c ^^^ (b.setWidth 16 <<< 8))) 0xFFFF

/-- A number as `n` bytes, the lowest first. -/
def leBytes : Nat → Nat → List Byte
  | 0, _ => []
  | n + 1, v => BitVec.ofNat 8 v :: leBytes n (v / 256)

/-- A number as `n` bytes, the highest first (10 R320). -/
def beBytes (n v : Nat) : List Byte := (leBytes n v).reverse

/-- The number that bytes spell, the lowest first. -/
def ofLE : List Byte → Nat
  | [] => 0
  | b :: t => b.toNat + 256 * ofLE t

/-- The number that bytes spell, the highest first. -/
def ofBE (bs : List Byte) : Nat := ofLE bs.reverse

/-- Byte `i` of a list, 0 beyond its end. -/
def byteAt (bs : List Byte) (i : Nat) : Nat := (bs.getD i 0).toNat

/-- The `n` bytes from offset `i`. -/
def sub (bs : List Byte) (i n : Nat) : List Byte := (bs.drop i).take n

/-- The frame's EtherType and the offset of what follows it, past one 802.1Q tag. -/
def etherType (f : List Byte) : Nat × Nat :=
  if ofBE (sub f 12 2) = 0x8100 then (ofBE (sub f 16 2), 18) else (ofBE (sub f 12 2), 14)

end Sys2Proof.Machine
end

