-- ==== Sys2Proof/Config.lean ====
section
/-! DEFINITION. What the spec leaves to an implementation, and the free values: constants without a body, so that
nothing can be proved of what they are (log 3, log 13). -/

-- one declaration at a time: many at once take a thread and its stack each
set_option Elab.async false

namespace Sys2Proof

/-- The `n`-th free value taken: the result of a host error or of another case whose result the spec leaves open (00 R6; log 3). -/
opaque Config.freeValue : Nat → BitVec 64

/-- AES key unwrap (18 R561): the wrapped key to the key, or none where the check value fails. The primitive is named by the spec,
not defined, and the device class key that it uses is fused (log 13). -/
opaque Config.unwrap : List Byte → Option (BitVec 256)

/-- One block of the AES-256 key stream for a counter block (18 R560, R574; log 13). -/
opaque Config.keyStream : BitVec 256 → BitVec 128 → BitVec 128

/-- Whether an ECDSA P-384 signature over the SHA-384 of the bytes verifies under the key with index KEYIDX
(18 R560, R561; log 13). -/
opaque Config.verify : BitVec 8 → List Byte → List Byte → Bool

/-- Whether the SHA-384 of the bytes begins with the IDENT given (18 R560; log 13). -/
opaque Config.ident : List Byte → List Byte → Bool

/-- The ratio TRIM code that a Rind channel's calibration finds (14, 19 R583; log 3). -/
opaque Config.rcalTrim : Nat → BitVec 8

end Sys2Proof
end

