-- ==== Sys2Proof/Machine/RegTable.lean ====
section
/-! DEFINITION. The register pages of spec/02 to spec/19: for every register its offset in its page, its
write masks by access type (02 R3), its reset value and its place in a multi-word register (00 R9 to R11);
and the device address of every register under its name in the spec. -/

-- one declaration at a time: many at once take a thread and its stack each
set_option Elab.async false

namespace Sys2Proof.Machine

/-- One register (or `n` registers `stride` bytes apart) of a page: the masks of its RW (or RS), W1C, W1S and WO bits, of bits that
are RO beside RW ones (`ro`), its reset value, its place `part` among the `parts` words of a register wider than 32 bits; `rs`: shadowed (02 R5, R58);
`rcl`: cleared by reading (02 R49); `stone`: only the Steward may access it; `banked`: one copy per agent class;
`kept`: in PD0, kept by every reset (03 R101). -/
structure RegRow where
  off : Nat
  n : Nat := 1
  stride : Nat := 4
  rw : Nat := 0
  w1c : Nat := 0
  w1s : Nat := 0
  wo : Nat := 0
  ro : Nat := 0
  reset : Nat := 0
  part : Nat := 0
  parts : Nat := 1
  rs : Bool := false
  rcl : Bool := false
  stone : Bool := false
  banked : Bool := false
  kept : Bool := false
  deriving DecidableEq, Repr

/-- Registers of SYS beyond the header (03 R122). -/
def rowsSYS : List RegRow := [
  { off := 0x100, w1s := 0x5 },
  { off := 0x104, wo := 0xf },
  { off := 0x108, wo := 0x1ff },
  { off := 0x10c, rw := 0x1fffff, w1s := 0x80000000 },
  { off := 0x110, n := 8, rw := 0xffffffff, kept := true },
  { off := 0x900, reset := 0x1 },
  { off := 0x904 },
  { off := 0x908, reset := 0x10081, kept := true },
  { off := 0x90c },
  { off := 0x910, reset := 0x1 },
  { off := 0x914 },
  { off := 0x918 },
  { off := 0x91c, reset := 0x1, kept := true }
]

/-- Registers of PWR beyond the header (03 R123). -/
def rowsPWR : List RegRow := [
  { off := 0x108, n := 13, rw := 0x3, reset := 0x2 },
  { off := 0x900, n := 15 },
  { off := 0x940 }
]

/-- Registers of CLK beyond the header (03 R124). -/
def rowsCLK : List RegRow := [
  { off := 0x900 },
  { off := 0x904 },
  { off := 0x908 },
  { off := 0x90c },
  { off := 0x910, reset := 0x320 }
]

/-- Registers of EVT beyond the header (02 R79). -/
def rowsEVT : List RegRow := [
  { off := 0x100, n := 256, rw := 0x1ff, reset := 0x1, rs := true },
  { off := 0x900 },
  { off := 0x904, rw := 0x3ff },
  { off := 0x908 },
  { off := 0x90c },
  { off := 0x910 },
  { off := 0x914 },
  { off := 0x918, wo := 0xffff },
  { off := 0x91c, rw := 0xff },
  { off := 0x920 },
  { off := 0x924 },
  { off := 0x928, w1c := 0x80000000 },
  { off := 0x92c },
  { off := 0x930, w1c := 0x80000000 },
  { off := 0xbfc, kept := true },
  { off := 0xc00, n := 256, kept := true }
]

/-- Registers of SCN beyond the header (06 R238). -/
def rowsSCN : List RegRow := [
  { off := 0x100, rw := 0xfffff, reset := 0x3e8, rs := true },
  { off := 0x104, rw := 0xffffffff, part := 0, parts := 2, rs := true },
  { off := 0x108, rw := 0xffffffff, part := 1, parts := 2, rs := true },
  { off := 0x10c, rw := 0xfffff, reset := 0x64, rs := true },
  { off := 0x110, rw := 0xfffff, reset := 0x320, rs := true },
  { off := 0x114, rw := 0xfffff, reset := 0x258, rs := true },
  { off := 0x118, rw := 0x1, rs := true },
  { off := 0x11c, rw := 0x1, rs := true },
  { off := 0x120, rw := 0xff, reset := 0x4, rs := true },
  { off := 0x124, rw := 0x1, reset := 0x1, rs := true },
  { off := 0x200, n := 64, rw := 0xffff, rs := true },
  { off := 0x300, n := 32, stride := 12, rw := 0xff07bfff, rs := true },
  { off := 0x304, n := 32, stride := 12, rw := 0xffffffff, rs := true },
  { off := 0x308, n := 32, stride := 12, rw := 0xffffffff, rs := true },
  { off := 0x900, reset := 0x550 },
  { off := 0x904, part := 0, parts := 2 },
  { off := 0x908, part := 1, parts := 2 },
  { off := 0x90c, part := 0, parts := 2 },
  { off := 0x910, part := 1, parts := 2 },
  { off := 0x914 },
  { off := 0x918, rcl := true },
  { off := 0x91c },
  { off := 0x920 },
  { off := 0x924 },
  { off := 0x928 },
  { off := 0x92c },
  { off := 0x930 },
  { off := 0x934 },
  { off := 0x938 },
  { off := 0x93c },
  { off := 0x940 },
  { off := 0x944 },
  { off := 0x948, wo := 0x3 },
  { off := 0x94c }
]

/-- Registers of BUN beyond the header (06 R240). -/
def rowsBUN : List RegRow := [
  { off := 0x100, wo := 0x9f },
  { off := 0x900, n := 16 },
  { off := 0x940, reset := 0x200 },
  { off := 0x944, n := 17 },
  { off := 0x988 },
  { off := 0x98c },
  { off := 0x990 },
  { off := 0x994 },
  { off := 0x998 },
  { off := 0x99c }
]

/-- Registers of IMG beyond the header (07 R270). -/
def rowsIMG : List RegRow := [
  { off := 0x100, rw := 0xff },
  { off := 0x104, rw := 0xff },
  { off := 0x108, wo := 0x8000ffff },
  { off := 0x900 },
  { off := 0x904 },
  { off := 0x908 },
  { off := 0x90c },
  { off := 0x910 },
  { off := 0x914 },
  { off := 0x918 },
  { off := 0x91c },
  { off := 0x920 },
  { off := 0x924, n := 4 },
  { off := 0x934 }
]

/-- Registers of ARB beyond the header (07 R271). -/
def rowsARB : List RegRow := [
  { off := 0x100, n := 4, stride := 12, rw := 0xffffffff, reset := 0x88888888, rs := true },
  { off := 0x104, n := 4, stride := 12, rw := 0xffffffff, reset := 0x88888888, rs := true },
  { off := 0x108, n := 4, stride := 12, rw := 0xf, ro := 0xf0, reset := 0x8, rs := true },
  { off := 0x130, rw := 0xfffff, reset := 0x88888, rs := true },
  { off := 0x134, rw := 0xfffff, reset := 0x88888, rs := true },
  { off := 0x138, rw := 0xfffff, reset := 0x88888, rs := true },
  { off := 0x13c, rw := 0xffffffff, reset := 0x88888888, rs := true },
  { off := 0x140, rw := 0xffffffff, reset := 0x88888888, rs := true },
  { off := 0x144, rw := 0xffffffff, reset := 0x88888888, rs := true },
  { off := 0x148, rw := 0xffffff, reset := 0x101010, rs := true },
  { off := 0x14c, wo := 0x1 },
  { off := 0x900 },
  { off := 0x904, w1c := 0x80000000 },
  { off := 0x908 },
  { off := 0x90c },
  { off := 0x910 },
  { off := 0x914, rcl := true }
]

/-- Registers of TMC beyond the header (08 R290). -/
def rowsTMC : List RegRow := [
  { off := 0x100, n := 16, rw := 0x3ffff8, rs := true },
  { off := 0x900 },
  { off := 0x904, part := 0, parts := 2 },
  { off := 0x908, part := 1, parts := 2 },
  { off := 0x90c },
  { off := 0x910, rcl := true },
  { off := 0x914 },
  { off := 0x918 },
  { off := 0x91c, w1c := 0x80000000 },
  { off := 0x920, w1c := 0x80000000 }
]

/-- Registers of GRF beyond the header (09 R314). -/
def rowsGRF : List RegRow := [
  { off := 0x100, wo := 0x3 },
  { off := 0x104, rw := 0x1ffff },
  { off := 0x108, rw := 0xff, reset := 0x10 },
  { off := 0x10c, rw := 0xffff },
  { off := 0x110, rw := 0xffffffff, part := 0, parts := 2 },
  { off := 0x114, rw := 0xffffffff, part := 1, parts := 2 },
  { off := 0x900 },
  { off := 0x904, part := 0, parts := 2 },
  { off := 0x908, part := 1, parts := 2 },
  { off := 0x90c, part := 0, parts := 2 },
  { off := 0x910, part := 1, parts := 2 },
  { off := 0x914 },
  { off := 0x918 },
  { off := 0x91c, part := 0, parts := 2 },
  { off := 0x920, part := 1, parts := 2 },
  { off := 0x924 },
  { off := 0x928 }
]

/-- Registers of VUV beyond the header (10 R352). -/
def rowsVUV : List RegRow := [
  { off := 0x100, rw := 0xffff, reset := 0x88b5, rs := true },
  { off := 0x104, rw := 0xfff, reset := 0xa13, rs := true },
  { off := 0x108, rw := 0xefff, rs := true },
  { off := 0x10c, rw := 0xff, reset := 0x3, rs := true },
  { off := 0x110, rw := 0xff, reset := 0x10, rs := true },
  { off := 0x114, rw := 0xffff, reset := 0x1f4, rs := true },
  { off := 0x118, rw := 0xf, reset := 0x3, rs := true },
  { off := 0x11c, rw := 0xff, reset := 0x8, rs := true },
  { off := 0x120, rw := 0xffffffff, reset := 0x56000000, part := 0, parts := 2, rs := true },
  { off := 0x124, rw := 0xffff, reset := 0x356, part := 1, parts := 2, rs := true },
  { off := 0x128, rw := 0xffffffff, reset := 0x56000001, part := 0, parts := 2, rs := true },
  { off := 0x12c, rw := 0xffff, reset := 0x356, part := 1, parts := 2, rs := true },
  { off := 0x130, rw := 0xfff00, reset := 0xe0000, rs := true },
  { off := 0x134, rw := 0xfffc0, reset := 0xe8000, rs := true },
  { off := 0x140, rw := 0xff, rs := true },
  { off := 0x144, rw := 0xffffffff, rs := true },
  { off := 0x148, rw := 0xfff80, reset := 0xea000, rs := true },
  { off := 0x14c, rw := 0xfff80, reset := 0xea080, rs := true },
  { off := 0x150, rw := 0xff, reset := 0x6, rs := true },
  { off := 0x154, rw := 0xffffffff, rs := true },
  { off := 0x200, n := 128, rw := 0xff03, reset := 0xa00, rs := true },
  { off := 0x900 },
  { off := 0x904, n := 4, w1s := 0xffffffff },
  { off := 0x914, n := 4, w1s := 0xffffffff },
  { off := 0x924, n := 4 },
  { off := 0x934, n := 4 },
  { off := 0x944, n := 4 },
  { off := 0x954, n := 4 },
  { off := 0x964 },
  { off := 0x968 },
  { off := 0x96c },
  { off := 0x970 },
  { off := 0x974 },
  { off := 0x978 },
  { off := 0x97c },
  { off := 0x980 },
  { off := 0x984 },
  { off := 0x988 },
  { off := 0x98c, rcl := true },
  { off := 0x990, w1c := 0x80000000 },
  { off := 0x994, part := 0, parts := 2 },
  { off := 0x998, part := 1, parts := 2 },
  { off := 0x9a0 },
  { off := 0x9a4 },
  { off := 0x9a8, n := 4 },
  { off := 0x9b8 },
  { off := 0x9bc },
  { off := 0x9c0 },
  { off := 0x9c4 },
  { off := 0x9c8 },
  { off := 0x9cc }
]

/-- Registers of TWN beyond the header (11 R388). -/
def rowsTWN : List RegRow := [
  { off := 0x100, rw := 0xff02, reset := 0x202 },
  { off := 0x104, rw := 0xfffff, reset := 0x64 },
  { off := 0x108, rw := 0xffff, reset := 0x400 },
  { off := 0x10c, rw := 0xffff, reset := 0x400 },
  { off := 0x110, rw := 0xff, reset := 0x10 },
  { off := 0x114, rw := 0x3f3fbff8, ro := 0xc0c04007, reset := 0x2e18, part := 0, parts := 2 },
  { off := 0x118, rw := 0x14, ro := 0xb, part := 1, parts := 2 },
  { off := 0x11c, wo := 0x3 },
  { off := 0x120, wo := 0xff },
  { off := 0x124, rw := 0xff, reset := 0x8 },
  { off := 0x900 },
  { off := 0x904 },
  { off := 0x908, kept := true },
  { off := 0x90c },
  { off := 0x910 },
  { off := 0x914, rcl := true },
  { off := 0x918 },
  { off := 0x91c },
  { off := 0x920 },
  { off := 0x924, part := 0, parts := 2 },
  { off := 0x928, part := 1, parts := 2 },
  { off := 0x92c, part := 0, parts := 2 },
  { off := 0x930, part := 1, parts := 2 },
  { off := 0x934 },
  { off := 0x938 },
  { off := 0x93c },
  { off := 0x940 },
  { off := 0x944 },
  { off := 0x948 },
  { off := 0x94c },
  { off := 0x950 },
  { off := 0x954 }
]

/-- Registers of TIM beyond the header (12 R422). -/
def rowsTIM : List RegRow := [
  { off := 0x100, rw := 0xffffffff },
  { off := 0x104, rw := 0xffffffff, part := 0, parts := 2 },
  { off := 0x108, rw := 0xffffffff, part := 1, parts := 2 },
  { off := 0x10c, rw := 0x3fffffff },
  { off := 0x110, rw := 0xffffffff },
  { off := 0x114, rw := 0xffff },
  { off := 0x118, wo := 0x7 },
  { off := 0x11c, rw := 0xffffffff, reset := 0x25 },
  { off := 0x120, rw := 0xffff, reset := 0x1f4 },
  { off := 0x124, rw := 0xffff, reset := 0xfa0 },
  { off := 0x128, rw := 0xff, reset := 0x8 },
  { off := 0x12c, rw := 0xffff, reset := 0xbb8 },
  { off := 0x130, wo := 0xffffffff },
  { off := 0x140, n := 4, rw := 0xff07 },
  { off := 0x900, reset := 0x1 },
  { off := 0x904, part := 0, parts := 3 },
  { off := 0x908, part := 1, parts := 3 },
  { off := 0x90c, part := 2, parts := 3 },
  { off := 0x910, part := 0, parts := 2 },
  { off := 0x914, part := 1, parts := 2 },
  { off := 0x918 },
  { off := 0x91c },
  { off := 0x920 },
  { off := 0x940, n := 4, stride := 16, part := 0, parts := 4, rcl := true },
  { off := 0x944, n := 4, stride := 16, part := 1, parts := 4, rcl := true },
  { off := 0x948, n := 4, stride := 16, part := 2, parts := 4, rcl := true },
  { off := 0x94c, n := 4, stride := 16, part := 3, parts := 4, rcl := true },
  { off := 0x980, w1c := 0xf },
  { off := 0x984, n := 4 }
]

/-- Registers of TPO beyond the header (12 R424). -/
def rowsTPO : List RegRow := [
  { off := 0x100, n := 8, stride := 32, rw := 0x3fffffff },
  { off := 0x104, n := 8, stride := 32, rw := 0xffffffff },
  { off := 0x108, n := 8, stride := 32, rw := 0xffff },
  { off := 0x10c, n := 8, stride := 32, rw := 0xffffffff },
  { off := 0x110, n := 8, stride := 32, rw := 0xffffffff },
  { off := 0x114, n := 8, stride := 32, rw := 0xffffffff, reset := 0x1 },
  { off := 0x118, n := 8, stride := 32, rw := 0x7 },
  { off := 0x900, n := 8 },
  { off := 0x920, n := 8 }
]

/-- Registers of CAN beyond the header (13 R450). -/
def rowsCAN : List RegRow := [
  { off := 0x100, rw := 0xff, reset := 0x87 },
  { off := 0x104, rw := 0x7f7fffff, reset := 0xf0f3e01 },
  { off := 0x108, rw := 0xf0f1f1f, reset := 0x7071e00 },
  { off := 0x10c, rw := 0x7f7f, reset := 0x20 },
  { off := 0x110, n := 4, rw := 0xffffffff },
  { off := 0x120, wo := 0x1 },
  { off := 0x124, n := 4, w1s := 0xffffffff },
  { off := 0x134, n := 4, w1s := 0xffffffff },
  { off := 0x900 },
  { off := 0x904 },
  { off := 0x908, n := 4, w1c := 0xffffffff },
  { off := 0x918 },
  { off := 0x91c, n := 4, w1c := 0xffffffff },
  { off := 0x92c },
  { off := 0x930 },
  { off := 0x934 },
  { off := 0x938 },
  { off := 0x93c },
  { off := 0x940 },
  { off := 0x944 }
]

/-- Registers of RND beyond the header (14 R476). -/
def rowsRND : List RegRow := [
  { off := 0x100, rw := 0x3ff, reset := 0x64 },
  { off := 0x104, rw := 0xff, reset := 0xa },
  { off := 0x108, rw := 0x1 },
  { off := 0x10c, wo := 0x3 },
  { off := 0x110, rw := 0xffffffff },
  { off := 0x180, n := 32, rw := 0xff1f },
  { off := 0x900, w1c := 0x1 },
  { off := 0x904 },
  { off := 0x908 },
  { off := 0x90c },
  { off := 0x910, part := 0, parts := 2 },
  { off := 0x914, part := 1, parts := 2 },
  { off := 0x918 },
  { off := 0x91c },
  { off := 0x920 },
  { off := 0x924 },
  { off := 0x928 },
  { off := 0x92c }
]

/-- Registers of WDT beyond the header (15 R493). -/
def rowsWDT : List RegRow := [
  { off := 0x100, rw := 0xffffff, stone := true },
  { off := 0x104, rw := 0xffff, stone := true },
  { off := 0x108, rw := 0x3ff, reset := 0x64, stone := true },
  { off := 0x10c, rw := 0xffffff, stone := true },
  { off := 0x110, wo := 0xffff, stone := true },
  { off := 0x114, w1s := 0xffff },
  { off := 0x900 },
  { off := 0x904 },
  { off := 0x908 },
  { off := 0x90c },
  { off := 0x910 },
  { off := 0x914 },
  { off := 0x918 },
  { off := 0x91c },
  { off := 0x920 },
  { off := 0xa00, w1c := 0x80000000, kept := true },
  { off := 0xa04, kept := true },
  { off := 0xa08, kept := true },
  { off := 0xa0c, kept := true },
  { off := 0xa10, part := 0, parts := 2, kept := true },
  { off := 0xa14, part := 1, parts := 2, kept := true },
  { off := 0xa18, part := 0, parts := 2, kept := true },
  { off := 0xa1c, part := 1, parts := 2, kept := true },
  { off := 0xa20, kept := true }
]

/-- Registers of KEEP beyond the header (16 R521). -/
def rowsKEEP : List RegRow := [
  { off := 0x100, wo := 0x7fff000f, banked := true },
  { off := 0x104, rw := 0xffffff, banked := true },
  { off := 0x110, n := 4, wo := 0xffffffff, banked := true },
  { off := 0x900 },
  { off := 0x904 },
  { off := 0x908, banked := true },
  { off := 0x90c, banked := true },
  { off := 0x910, banked := true },
  { off := 0x914 },
  { off := 0x918 },
  { off := 0x91c, w1c := 0x80000000 },
  { off := 0x920 },
  { off := 0x924, reset := 0x100 },
  { off := 0x928 },
  { off := 0x92c },
  { off := 0x930 },
  { off := 0x934 },
  { off := 0xa00, n := 16, rw := 0xffffffff, banked := true }
]

/-- Registers of RTC beyond the header (17 R541). -/
def rowsRTC : List RegRow := [
  { off := 0x100, rw := 0x73f7f7f, reset := 0x6000000 },
  { off := 0x104, rw := 0x3fff1f3f, reset := 0x20000101 },
  { off := 0x108, wo := 0xf },
  { off := 0x10c, rw := 0x87bfffff, reset := 0x80808080, kept := true },
  { off := 0x110, rw := 0x9fbf, reset := 0x8080, kept := true },
  { off := 0x114, rw := 0x87bfffff, reset := 0x80808080, kept := true },
  { off := 0x118, rw := 0x9fbf, reset := 0x8080, kept := true },
  { off := 0x11c, rw := 0x3, kept := true },
  { off := 0x120, rw := 0xffff0001, kept := true },
  { off := 0x124, rw := 0xf, kept := true },
  { off := 0x900, reset := 0x6000000, part := 0, parts := 3, kept := true },
  { off := 0x904, reset := 0x20000101, part := 1, parts := 3, kept := true },
  { off := 0x908, part := 2, parts := 3 },
  { off := 0x90c, w1c := 0x5e, reset := 0x8, kept := true },
  { off := 0x910, kept := true },
  { off := 0x914, kept := true },
  { off := 0x918 },
  { off := 0xa00, n := 33, rw := 0xffff, kept := true }
]

/-- Registers of HST beyond the header (18 R571). -/
def rowsHST : List RegRow := [
  { off := 0x100, rw := 0xff, reset := 0x2 },
  { off := 0x104 },
  { off := 0x108 },
  { off := 0x900 },
  { off := 0x904, reset := 0x64800000 },
  { off := 0x908 },
  { off := 0x90c },
  { off := 0x910 }
]

/-- Registers of SVC beyond the header (18 R573). -/
def rowsSVC : List RegRow := [
  { off := 0x100, rw := 0x7fffff, reset := 0x1c200 },
  { off := 0x104, rw := 0x3, reset := 0x3 },
  { off := 0x900 },
  { off := 0x904 },
  { off := 0x908 },
  { off := 0x90c },
  { off := 0x910 }
]

/-- Registers of UPD beyond the header (18 R574). -/
def rowsUPD : List RegRow := [
  { off := 0x100, wo := 0xffff0f0f },
  { off := 0x104, rw := 0x7f },
  { off := 0x108, rw := 0xfe000, reset := 0xf8000 },
  { off := 0x10c, rw := 0xffff, reset := 0x48 },
  { off := 0x110, n := 10, wo := 0xffffffff, stone := true },
  { off := 0x138, wo := 0x3, stone := true },
  { off := 0x13c, rw := 0xfffff, stone := true },
  { off := 0x140, rw := 0x1fff, stone := true },
  { off := 0x144, wo := 0x1, stone := true },
  { off := 0x148, wo := 0xf, stone := true },
  { off := 0x900 },
  { off := 0x904, n := 4 },
  { off := 0x914 },
  { off := 0x918 },
  { off := 0x91c },
  { off := 0x920 }
]

/-- Registers of BGD beyond the header (19 R588). -/
def rowsBGD : List RegRow := [
  { off := 0x100, rw := 0xff, reset := 0x7f },
  { off := 0x104, rw := 0xffff, reset := 0x100 },
  { off := 0x108, rw := 0xffff, reset := 0x100 },
  { off := 0x10c, rw := 0xffff, reset := 0x1000 },
  { off := 0x110, rw := 0xffff, reset := 0x1000 },
  { off := 0x114, rw := 0xffff, reset := 0x100 },
  { off := 0x118, rw := 0xffff, reset := 0xa },
  { off := 0x11c, rw := 0xffff, reset := 0x3c },
  { off := 0x120, rw := 0xffff, reset := 0xe10 },
  { off := 0x900 },
  { off := 0x904, n := 6 },
  { off := 0x91c },
  { off := 0x920 },
  { off := 0x924, w1c := 0x80000000 },
  { off := 0x928 },
  { off := 0x92c },
  { off := 0x930 },
  { off := 0x934 },
  { off := 0x938 }
]

/-- Registers of TLM beyond the header (19 R589). -/
def rowsTLM : List RegRow := [
  { off := 0x100, rw := 0x3ff, reset := 0x1a4 },
  { off := 0x104, rw := 0x3ff, reset := 0x1cc },
  { off := 0x108, rw := 0xffff, reset := 0x505 },
  { off := 0x10c, rw := 0x3f },
  { off := 0x110, wo := 0x1 },
  { off := 0x900, n := 4 },
  { off := 0x910, rcl := true },
  { off := 0x914, n := 6 },
  { off := 0x92c },
  { off := 0x930, reset := 0x3fffffff },
  { off := 0x934 },
  { off := 0x938, n := 4 },
  { off := 0x948, n := 4, stride := 16 },
  { off := 0x94c, n := 4, stride := 16 },
  { off := 0x950, n := 4, stride := 16 },
  { off := 0x954, n := 4, stride := 16 }
]

/-- Registers of ETH beyond the header (12 R426, R428). -/
def rowsETH : List RegRow := [
  { off := 0x100, rw := 0xdf, reset := 0x45 },
  { off := 0x104, rw := 0xffffffff, part := 0, parts := 2 },
  { off := 0x108, rw := 0xffff, part := 1, parts := 2 },
  { off := 0x10c, rw := 0x3fff, reset := 0x5f2 },
  { off := 0x110, rw := 0xffff07ff, w1s := 0x800 },
  { off := 0x120, rw := 0xffff0 },
  { off := 0x124, rw := 0x1ff, reset := 0x10 },
  { off := 0x128, rw := 0xff },
  { off := 0x12c, rw := 0xfffe0 },
  { off := 0x130, rw := 0x1ff, reset := 0x10 },
  { off := 0x134, rw := 0xff },
  { off := 0x300, rw := 0xffffffff },
  { off := 0x304, rw := 0xffffffff },
  { off := 0x308, rw := 0xffffffff },
  { off := 0x30c, rw := 0x7, reset := 0x7 },
  { off := 0x900 },
  { off := 0x904 },
  { off := 0x908 },
  { off := 0xa00, part := 0, parts := 4, rcl := true },
  { off := 0xa04, part := 1, parts := 4, rcl := true },
  { off := 0xa08, part := 2, parts := 4, rcl := true },
  { off := 0xa0c, part := 3, parts := 4, rcl := true },
  { off := 0xa10, w1c := 0x100 },
  { off := 0xa14 },
  { off := 0xa18 }
]

/-- Registers of QSP beyond the header (18 R575). -/
def rowsQSP : List RegRow := [
  { off := 0x100, rw := 0x3f, reset := 0xf, stone := true },
  { off := 0x104, rw := 0x7ffffff, stone := true },
  { off := 0x108, rw := 0x7ffffff, stone := true },
  { off := 0x10c, wo := 0x7, banked := true },
  { off := 0x110, rw := 0x7ffffff, banked := true },
  { off := 0x114, rw := 0x1ffff, banked := true },
  { off := 0x118, rw := 0xfffff, banked := true },
  { off := 0x900, banked := true },
  { off := 0x904, reset := 0x117 },
  { off := 0x908 }
]

/-- Registers of FUS beyond the header (18 R576). -/
def rowsFUS : List RegRow := [
  { off := 0x100, wo := 0xff000f0f },
  { off := 0x900, part := 0, parts := 2 },
  { off := 0x904, part := 1, parts := 2 },
  { off := 0x908, reset := 0x190 },
  { off := 0x90c, part := 0, parts := 2 },
  { off := 0x910, part := 1, parts := 2 },
  { off := 0x914, reset := 0x100 },
  { off := 0x918 }
]

/-- Registers of DBG beyond the header (06 R236). -/
def rowsDBG : List RegRow := [
  { off := 0x100, rw := 0x3 },
  { off := 0x104, w1s := 0x1f },
  { off := 0x108, w1s := 0x1f },
  { off := 0x10c, rw := 0x7f },
  { off := 0x200, n := 64, stride := 8, rw := 0xbfffbfff },
  { off := 0x204, n := 64, stride := 8, rw := 0xbfffbfff },
  { off := 0x900 },
  { off := 0x904, w1c := 0x80000000 },
  { off := 0x908 },
  { off := 0x910 }
]

end Sys2Proof.Machine

namespace Sys2Proof.Machine.Reg

/-- Base of page `p` (02 R50). -/
abbrev page (p : Nat) : Nat := 0x01000000 + p * 0x1000

/-- PAGE_ID of page `p` (02 R53). -/
abbrev PAGE_ID (p : Nat) : Nat := page p + 0x0
/-- PAGE_CAP of page `p` (02 R53). -/
abbrev PAGE_CAP (p : Nat) : Nat := page p + 0x4
/-- PAGE_CTRL of page `p` (02 R53). -/
abbrev PAGE_CTRL (p : Nat) : Nat := page p + 0x8
/-- PAGE_STAT of page `p` (02 R53). -/
abbrev PAGE_STAT (p : Nat) : Nat := page p + 0xc
/-- EVT_RAW of page `p` (02 R53). -/
abbrev EVT_RAW (p : Nat) : Nat := page p + 0x10
/-- EVT_MASK of page `p` (02 R53). -/
abbrev EVT_MASK (p : Nat) : Nat := page p + 0x14
/-- EVT_PEND of page `p` (02 R53). -/
abbrev EVT_PEND (p : Nat) : Nat := page p + 0x18
/-- EVT_BASE of page `p` (02 R53). -/
abbrev EVT_BASE (p : Nat) : Nat := page p + 0x1c
/-- SHD_SEQ of page `p` (02 R53). -/
abbrev SHD_SEQ (p : Nat) : Nat := page p + 0x20
/-- OWNER of page `p` (02 R53). -/
abbrev OWNER (p : Nat) : Nat := page p + 0x24
abbrev EVT_ROUTE (i : Nat) : Nat := 0x1003100 + 4 * i
abbrev EVT_LOG_WIDX : Nat := 0x1003900
abbrev EVT_LOG_RIDX : Nat := 0x1003904
abbrev EVT_LOG_OVWR : Nat := 0x1003908
abbrev EVT_LOG_DROP : Nat := 0x100390c
abbrev EVT_STW_OVF : Nat := 0x1003910
abbrev EVT_TASK_OVR : Nat := 0x1003914
abbrev EVT_SWRAISE : Nat := 0x1003918
abbrev EVT_SEQSEL : Nat := 0x100391c
abbrev EVT_SEQVAL : Nat := 0x1003920
abbrev EVT_BADADDR : Nat := 0x1003924
abbrev EVT_BADINFO : Nat := 0x1003928
abbrev EVT_DENY : Nat := 0x100392c
abbrev EVT_DENYINFO : Nat := 0x1003930
abbrev EVT_TAIL_IDX : Nat := 0x1003bfc
abbrev EVT_TAIL (i : Nat) : Nat := 0x1003c00 + 4 * i
abbrev SYS_CFGSWAP : Nat := 0x1000100
abbrev SYS_MODEREQ : Nat := 0x1000104
abbrev SYS_RESET : Nat := 0x1000108
abbrev SYS_HOSTBOOT : Nat := 0x100010c
abbrev SYS_BKP (i : Nat) : Nat := 0x1000110 + 4 * i
abbrev SYS_MODE : Nat := 0x1000900
abbrev SYS_MODESTAT : Nat := 0x1000904
abbrev SYS_RESETCAUSE : Nat := 0x1000908
abbrev SYS_STRAPS : Nat := 0x100090c
abbrev SYS_BOOTSTAT : Nat := 0x1000910
abbrev SYS_BOOTTIME : Nat := 0x1000914
abbrev SYS_HALTCAUSE : Nat := 0x1000918
abbrev SYS_GEN : Nat := 0x100091c
abbrev PWR_REQ (i : Nat) : Nat := 0x1001100 + 4 * i
abbrev PWR_STAT (i : Nat) : Nat := 0x1001900 + 4 * i
abbrev PWR_DOMSEL_LAST : Nat := 0x1001940
abbrev CLK_LOCK : Nat := 0x1002900
abbrev CLK_REFSTAT : Nat := 0x1002904
abbrev CLK_REF25PPM : Nat := 0x1002908
abbrev CLK_UNLOCK_CNT : Nat := 0x100290c
abbrev CLK_CORE_MHZ : Nat := 0x1002910
abbrev DBG_CTRL : Nat := 0x1024100
abbrev DBG_CORE_HALT : Nat := 0x1024104
abbrev DBG_CORE_RUN : Nat := 0x1024108
abbrev DBG_PCSEL : Nat := 0x102410c
abbrev DBG_BPA (i : Nat) : Nat := 0x1024200 + 8 * i
abbrev DBG_BPB (i : Nat) : Nat := 0x1024204 + 8 * i
abbrev DBG_CORE_STAT : Nat := 0x1024900
abbrev DBG_BRKREC : Nat := 0x1024904
abbrev DBG_BRKCODE : Nat := 0x1024908
abbrev DBG_PC : Nat := 0x1024910
abbrev SCN_PERIOD : Nat := 0x1004100
abbrev SCN_ORIGIN_LO : Nat := 0x1004104
abbrev SCN_ORIGIN_HI : Nat := 0x1004108
abbrev SCN_SAMPLE_LEAD : Nat := 0x100410c
abbrev SCN_APPLY_OFS : Nat := 0x1004110
abbrev SCN_DEADLINE : Nat := 0x1004114
abbrev SCN_HOLDCFG : Nat := 0x1004118
abbrev SCN_LOCKPOLICY : Nat := 0x100411c
abbrev SCN_SPARE_HOLD : Nat := 0x1004120
abbrev SCN_POISONPOL : Nat := 0x1004124
abbrev SCN_SEGMAP (i : Nat) : Nat := 0x1004200 + 4 * i
abbrev SCN_SLOT_CFG (i : Nat) : Nat := 0x1004300 + 12 * i
abbrev SCN_SLOT_LSET0 (i : Nat) : Nat := 0x1004304 + 12 * i
abbrev SCN_SLOT_LSET1 (i : Nat) : Nat := 0x1004308 + 12 * i
abbrev SCN_STAT : Nat := 0x1004900
abbrev SCN_CYCLE_LO : Nat := 0x1004904
abbrev SCN_CYCLE_HI : Nat := 0x1004908
abbrev SCN_TFREEZE_LO : Nat := 0x100490c
abbrev SCN_TFREEZE_HI : Nat := 0x1004910
abbrev SCN_SOLVE_LAST : Nat := 0x1004914
abbrev SCN_SOLVE_MAX : Nat := 0x1004918
abbrev SCN_MERGE_LAST : Nat := 0x100491c
abbrev SCN_OVRN_EVID : Nat := 0x1004920
abbrev SCN_OVRN_LANES0 : Nat := 0x1004924
abbrev SCN_OVRN_LANES1 : Nat := 0x1004928
abbrev SCN_INVALID : Nat := 0x100492c
abbrev SCN_HELD : Nat := 0x1004930
abbrev SCN_MERGE_CONF : Nat := 0x1004934
abbrev SCN_CONF_LAST : Nat := 0x1004938
abbrev SCN_SLOT_PEND : Nat := 0x100493c
abbrev SCN_SLOT_RUN : Nat := 0x1004940
abbrev SCN_HOLDSTAT : Nat := 0x1004944
abbrev SCN_HOLDCMD : Nat := 0x1004948
abbrev SCN_SKIPPED : Nat := 0x100494c
abbrev BUN_FORCEFLT (k : Nat) : Nat := 0x1005100 + 0x1000 * k
abbrev BUN_MAP (k : Nat) (i : Nat) : Nat := 0x1005900 + 0x1000 * k + 4 * i
abbrev BUN_SPARE (k : Nat) : Nat := 0x1005940 + 0x1000 * k
abbrev BUN_LSTAT (k : Nat) (i : Nat) : Nat := 0x1005944 + 0x1000 * k + 4 * i
abbrev BUN_FLT0 (k : Nat) : Nat := 0x1005988 + 0x1000 * k
abbrev BUN_FLT0_CYC (k : Nat) : Nat := 0x100598c + 0x1000 * k
abbrev BUN_FLT1 (k : Nat) : Nat := 0x1005990 + 0x1000 * k
abbrev BUN_FLT1_CYC (k : Nat) : Nat := 0x1005994 + 0x1000 * k
abbrev BUN_COPYSTAT (k : Nat) : Nat := 0x1005998 + 0x1000 * k
abbrev BUN_COPYERR (k : Nat) : Nat := 0x100599c + 0x1000 * k
abbrev IMG_RINDBLK : Nat := 0x1009100
abbrev IMG_CANBLK : Nat := 0x1009104
abbrev IMG_PSNCLR : Nat := 0x1009108
abbrev IMG_STAT : Nat := 0x1009900
abbrev IMG_CE_CNT : Nat := 0x1009904
abbrev IMG_UE_CNT : Nat := 0x1009908
abbrev IMG_UE_ADDR : Nat := 0x100990c
abbrev IMG_PSN_CNT : Nat := 0x1009910
abbrev IMG_PSN_FIRST : Nat := 0x1009914
abbrev IMG_DIRTY_ALL : Nat := 0x1009918
abbrev IMG_DIRTY_ND : Nat := 0x100991c
abbrev IMG_DIRTY_PREV : Nat := 0x1009920
abbrev IMG_COMPLETE (i : Nat) : Nat := 0x1009924 + 4 * i
abbrev IMG_LATE_CNT : Nat := 0x1009934
abbrev ARB_PRIO_BA (i : Nat) : Nat := 0x100a100 + 12 * i
abbrev ARB_PRIO_BB (i : Nat) : Nat := 0x100a104 + 12 * i
abbrev ARB_PRIO_BC (i : Nat) : Nat := 0x100a108 + 12 * i
abbrev ARB_PRIO_IMG : Nat := 0x100a130
abbrev ARB_PRIO_PAN : Nat := 0x100a134
abbrev ARB_PRIO_TMC : Nat := 0x100a138
abbrev ARB_PRIO_KEEP : Nat := 0x100a13c
abbrev ARB_PRIO_QSP : Nat := 0x100a140
abbrev ARB_PRIO_FAB : Nat := 0x100a144
abbrev ARB_WLIM : Nat := 0x100a148
abbrev ARB_COMMIT : Nat := 0x100a14c
abbrev ARB_COMMITSEQ : Nat := 0x100a900
abbrev ARB_LBEVID : Nat := 0x100a904
abbrev ARB_LBCNT : Nat := 0x100a908
abbrev ARB_FWCNT : Nat := 0x100a90c
abbrev ARB_WDCNT : Nat := 0x100a910
abbrev ARB_MAXWAIT : Nat := 0x100a914
abbrev TMC_PBASE (i : Nat) : Nat := 0x100b100 + 4 * i
abbrev TMC_STAT : Nat := 0x100b900
abbrev TMC_LASTTS_LO : Nat := 0x100b904
abbrev TMC_LASTTS_HI : Nat := 0x100b908
abbrev TMC_UPD_LAST : Nat := 0x100b90c
abbrev TMC_UPD_MAX : Nat := 0x100b910
abbrev TMC_INUSE : Nat := 0x100b914
abbrev TMC_OVF_CNT : Nat := 0x100b918
abbrev TMC_OVF_LAST : Nat := 0x100b91c
abbrev TMC_PERR_LAST : Nat := 0x100b920
abbrev GRF_CTRL : Nat := 0x100c100
abbrev GRF_MAPLEN : Nat := 0x100c104
abbrev GRF_MAXWAIT : Nat := 0x100c108
abbrev GRF_MAPIDX : Nat := 0x100c10c
abbrev GRF_MAPDATA_LO : Nat := 0x100c110
abbrev GRF_MAPDATA_HI : Nat := 0x100c114
abbrev GRF_STAT : Nat := 0x100c900
abbrev GRF_DIGEST_LO : Nat := 0x100c904
abbrev GRF_DIGEST_HI : Nat := 0x100c908
abbrev GRF_PARTNER_DIGEST_LO : Nat := 0x100c90c
abbrev GRF_PARTNER_DIGEST_HI : Nat := 0x100c910
abbrev GRF_TMAP : Nat := 0x100c914
abbrev GRF_WINDOW : Nat := 0x100c918
abbrev GRF_CYCLE_LO : Nat := 0x100c91c
abbrev GRF_CYCLE_HI : Nat := 0x100c920
abbrev GRF_IDX : Nat := 0x100c924
abbrev GRF_APPLIED_CNT : Nat := 0x100c928
abbrev VUV_ETYPE : Nat := 0x100d100
abbrev VUV_CFG : Nat := 0x100d104
abbrev VUV_VLAN : Nat := 0x100d108
abbrev VUV_STALE_LIM : Nat := 0x100d10c
abbrev VUV_SCHED_DIV : Nat := 0x100d110
abbrev VUV_DIAG_DIV : Nat := 0x100d114
abbrev VUV_REL_REP : Nat := 0x100d118
abbrev VUV_NETLOSS_LIM : Nat := 0x100d11c
abbrev VUV_MCAST_C_LO : Nat := 0x100d120
abbrev VUV_MCAST_C_HI : Nat := 0x100d124
abbrev VUV_MCAST_S_LO : Nat := 0x100d128
abbrev VUV_MCAST_S_HI : Nat := 0x100d12c
abbrev VUV_CONFBASE : Nat := 0x100d130
abbrev VUV_DIAGBASE : Nat := 0x100d134
abbrev VUV_STN_ADDR : Nat := 0x100d140
abbrev VUV_STN_LMASK : Nat := 0x100d144
abbrev VUV_STN_INBUF : Nat := 0x100d148
abbrev VUV_STN_OUTBUF : Nat := 0x100d14c
abbrev VUV_STN_PREP : Nat := 0x100d150
abbrev VUV_STN_PRODUCT : Nat := 0x100d154
abbrev VUV_STNCFG (i : Nat) : Nat := 0x100d1fc + 4 * i
abbrev VUV_STAT : Nat := 0x100d900
abbrev VUV_REL (i : Nat) : Nat := 0x100d904 + 4 * i
abbrev VUV_SAFEREQ (i : Nat) : Nat := 0x100d914 + 4 * i
abbrev VUV_GOOD (i : Nat) : Nat := 0x100d924 + 4 * i
abbrev VUV_BAD (i : Nat) : Nat := 0x100d934 + 4 * i
abbrev VUV_SAFE (i : Nat) : Nat := 0x100d944 + 4 * i
abbrev VUV_JOIN (i : Nat) : Nat := 0x100d954 + 4 * i
abbrev VUV_RX_OK_A : Nat := 0x100d964
abbrev VUV_RX_OK_B : Nat := 0x100d968
abbrev VUV_RX_DUP : Nat := 0x100d96c
abbrev VUV_RX_CRC : Nat := 0x100d970
abbrev VUV_RX_FMT : Nat := 0x100d974
abbrev VUV_RX_SEQ : Nat := 0x100d978
abbrev VUV_RX_OTHER : Nat := 0x100d97c
abbrev VUV_TX_A : Nat := 0x100d980
abbrev VUV_TX_B : Nat := 0x100d984
abbrev VUV_PUB_LAST : Nat := 0x100d988
abbrev VUV_PUB_MAX : Nat := 0x100d98c
abbrev VUV_HELLO_LAST : Nat := 0x100d990
abbrev VUV_HELLO_UID_LO : Nat := 0x100d994
abbrev VUV_HELLO_UID_HI : Nat := 0x100d998
abbrev VUV_STN_STATE : Nat := 0x100d9a0
abbrev VUV_STN_LEAD : Nat := 0x100d9a4
abbrev VUV_STN_RX (i : Nat) : Nat := 0x100d9a8 + 4 * i
abbrev VUV_STN_CRCA : Nat := 0x100d9b8
abbrev VUV_STN_CRCB : Nat := 0x100d9bc
abbrev VUV_STN_LATE : Nat := 0x100d9c0
abbrev VUV_STN_TIMEOUTS : Nat := 0x100d9c4
abbrev VUV_STN_EPOCHOLD : Nat := 0x100d9c8
abbrev VUV_STN_CLAIMLOST : Nat := 0x100d9cc
abbrev TWN_CFG : Nat := 0x100e100
abbrev TWN_PUBWAIT : Nat := 0x100e104
abbrev TWN_FCRATE : Nat := 0x100e108
abbrev TWN_FCFINAL : Nat := 0x100e10c
abbrev TWN_FCMAXPASS : Nat := 0x100e110
abbrev TWN_CFGSET_LO : Nat := 0x100e114
abbrev TWN_CFGSET_HI : Nat := 0x100e118
abbrev TWN_CMD : Nat := 0x100e11c
abbrev TWN_PRESET : Nat := 0x100e120
abbrev TWN_SWMAXTRY : Nat := 0x100e124
abbrev TWN_STAT : Nat := 0x100e900
abbrev TWN_PARTNER : Nat := 0x100e904
abbrev TWN_EPOCH : Nat := 0x100e908
abbrev TWN_SILCNT : Nat := 0x100e90c
abbrev TWN_LAG_LAST : Nat := 0x100e910
abbrev TWN_LAG_MAX : Nat := 0x100e914
abbrev TWN_DELTA_LAST : Nat := 0x100e918
abbrev TWN_FC_LEFT : Nat := 0x100e91c
abbrev TWN_FC_PASS : Nat := 0x100e920
abbrev TWN_DIG_OWN_LO : Nat := 0x100e924
abbrev TWN_DIG_OWN_HI : Nat := 0x100e928
abbrev TWN_DIG_PART_LO : Nat := 0x100e92c
abbrev TWN_DIG_PART_HI : Nat := 0x100e930
abbrev TWN_DIG_CYC : Nat := 0x100e934
abbrev TWN_HB_MISS : Nat := 0x100e938
abbrev TWN_REC_CRC : Nat := 0x100e93c
abbrev TWN_UNVERIFIED : Nat := 0x100e940
abbrev TWN_TAKEOVERS : Nat := 0x100e944
abbrev TWN_TAKE_LAST : Nat := 0x100e948
abbrev TWN_TAKEIN_CNT : Nat := 0x100e94c
abbrev TWN_SWSTAT : Nat := 0x100e950
abbrev TWN_CLAIM_LOST : Nat := 0x100e954
abbrev TIM_RATE : Nat := 0x100f100
abbrev TIM_STEP_LO : Nat := 0x100f104
abbrev TIM_STEP_HI : Nat := 0x100f108
abbrev TIM_SET_NS : Nat := 0x100f10c
abbrev TIM_SET_SECLO : Nat := 0x100f110
abbrev TIM_SET_SECHI : Nat := 0x100f114
abbrev TIM_CMD : Nat := 0x100f118
abbrev TIM_RTCOFS : Nat := 0x100f11c
abbrev TIM_LOCKTHR : Nat := 0x100f120
abbrev TIM_UNLOCKTHR : Nat := 0x100f124
abbrev TIM_LOCKCNT : Nat := 0x100f128
abbrev TIM_HOLDOVER : Nat := 0x100f12c
abbrev TIM_OFSMEAS : Nat := 0x100f130
abbrev TCI_CFG (i : Nat) : Nat := 0x100f140 + 4 * i
abbrev TIM_STAT : Nat := 0x100f900
abbrev TIM_NOW_NS : Nat := 0x100f904
abbrev TIM_NOW_SECLO : Nat := 0x100f908
abbrev TIM_NOW_SECHI : Nat := 0x100f90c
abbrev TIM_NS64_LO : Nat := 0x100f910
abbrev TIM_NS64_HI : Nat := 0x100f914
abbrev TIM_OFS_LAST : Nat := 0x100f918
abbrev TIM_STEP_CNT : Nat := 0x100f91c
abbrev TIM_UNLOCK_CNT : Nat := 0x100f920
abbrev TCI_TS (i : Nat) : Nat := 0x100f940 + 16 * i
abbrev TCI_STAT : Nat := 0x100f980
abbrev TCI_DROP (i : Nat) : Nat := 0x100f984 + 4 * i
abbrev TPO_START_NS (i : Nat) : Nat := 0x1010100 + 32 * i
abbrev TPO_START_SECLO (i : Nat) : Nat := 0x1010104 + 32 * i
abbrev TPO_START_SECHI (i : Nat) : Nat := 0x1010108 + 32 * i
abbrev TPO_PERIOD (i : Nat) : Nat := 0x101010c + 32 * i
abbrev TPO_WIDTH (i : Nat) : Nat := 0x1010110 + 32 * i
abbrev TPO_COUNT (i : Nat) : Nat := 0x1010114 + 32 * i
abbrev TPO_CTRL (i : Nat) : Nat := 0x1010118 + 32 * i
abbrev TPO_STAT (i : Nat) : Nat := 0x1010900 + 4 * i
abbrev TPO_PULSES (i : Nat) : Nat := 0x1010920 + 4 * i
abbrev ETH_MODE (k : Nat) : Nat := 0x101e100 + 0x1000 * k
abbrev ETH_MACADDR_LO (k : Nat) : Nat := 0x101e104 + 0x1000 * k
abbrev ETH_MACADDR_HI (k : Nat) : Nat := 0x101e108 + 0x1000 * k
abbrev ETH_MAXLEN (k : Nat) : Nat := 0x101e10c + 0x1000 * k
abbrev ETH_MDIO (k : Nat) : Nat := 0x101e110 + 0x1000 * k
abbrev ETH_TXR_BASE (k : Nat) : Nat := 0x101e120 + 0x1000 * k
abbrev ETH_TXR_LEN (k : Nat) : Nat := 0x101e124 + 0x1000 * k
abbrev ETH_TXR_PROD (k : Nat) : Nat := 0x101e128 + 0x1000 * k
abbrev ETH_RXR_BASE (k : Nat) : Nat := 0x101e12c + 0x1000 * k
abbrev ETH_RXR_LEN (k : Nat) : Nat := 0x101e130 + 0x1000 * k
abbrev ETH_RXR_CONS (k : Nat) : Nat := 0x101e134 + 0x1000 * k
abbrev ETH_STAT (k : Nat) : Nat := 0x101e900 + 0x1000 * k
abbrev ETH_TXR_CONS (k : Nat) : Nat := 0x101e904 + 0x1000 * k
abbrev ETH_RXR_PROD (k : Nat) : Nat := 0x101e908 + 0x1000 * k
abbrev ETH_TXLAT (k : Nat) : Nat := 0x101e300 + 0x1000 * k
abbrev ETH_RXLAT (k : Nat) : Nat := 0x101e304 + 0x1000 * k
abbrev ETH_ASYM (k : Nat) : Nat := 0x101e308 + 0x1000 * k
abbrev ETH_TSCFG (k : Nat) : Nat := 0x101e30c + 0x1000 * k
abbrev ETH_TXTS (k : Nat) : Nat := 0x101ea00 + 0x1000 * k
abbrev ETH_TSSTAT (k : Nat) : Nat := 0x101ea10 + 0x1000 * k
abbrev ETH_TXTS_DROP (k : Nat) : Nat := 0x101ea14 + 0x1000 * k
abbrev ETH_TXTS_CNT (k : Nat) : Nat := 0x101ea18 + 0x1000 * k
abbrev CAN_CTRL (k : Nat) : Nat := 0x1011100 + 0x1000 * k
abbrev CAN_NBT (k : Nat) : Nat := 0x1011104 + 0x1000 * k
abbrev CAN_DBT (k : Nat) : Nat := 0x1011108 + 0x1000 * k
abbrev CAN_TDC (k : Nat) : Nat := 0x101110c + 0x1000 * k
abbrev CAN_OBJCFG (k : Nat) (i : Nat) : Nat := 0x1011110 + 0x1000 * k + 4 * i
abbrev CAN_CMD (k : Nat) : Nat := 0x1011120 + 0x1000 * k
abbrev CAN_TXRDY (k : Nat) (i : Nat) : Nat := 0x1011124 + 0x1000 * k + 4 * i
abbrev CAN_TXCAN (k : Nat) (i : Nat) : Nat := 0x1011134 + 0x1000 * k + 4 * i
abbrev CAN_STAT (k : Nat) : Nat := 0x1011900 + 0x1000 * k
abbrev CAN_ERRCNT (k : Nat) : Nat := 0x1011904 + 0x1000 * k
abbrev CAN_RXFULL (k : Nat) (i : Nat) : Nat := 0x1011908 + 0x1000 * k + 4 * i
abbrev CAN_RXNEXT (k : Nat) : Nat := 0x1011918 + 0x1000 * k
abbrev CAN_TXDONE (k : Nat) (i : Nat) : Nat := 0x101191c + 0x1000 * k + 4 * i
abbrev CAN_RXSEQ (k : Nat) : Nat := 0x101192c + 0x1000 * k
abbrev CAN_RXDROP (k : Nat) : Nat := 0x1011930 + 0x1000 * k
abbrev CAN_RXCNT (k : Nat) : Nat := 0x1011934 + 0x1000 * k
abbrev CAN_TXCNT (k : Nat) : Nat := 0x1011938 + 0x1000 * k
abbrev CAN_ARBLOST (k : Nat) : Nat := 0x101193c + 0x1000 * k
abbrev CAN_ERRFRM (k : Nat) : Nat := 0x1011940 + 0x1000 * k
abbrev CAN_BUSOFF_CNT (k : Nat) : Nat := 0x1011944 + 0x1000 * k
abbrev RND_SAMPLE : Nat := 0x1015100
abbrev RND_TIMEOUT : Nat := 0x1015104
abbrev RND_CFG : Nat := 0x1015108
abbrev RND_CMD : Nat := 0x101510c
abbrev RND_CHEN : Nat := 0x1015110
abbrev RND_CHCFG (i : Nat) : Nat := 0x1015180 + 4 * i
abbrev RND_STAT : Nat := 0x1015900
abbrev RND_INSTATE : Nat := 0x1015904
abbrev RND_OUTAPP : Nat := 0x1015908
abbrev RND_DOUT : Nat := 0x101590c
abbrev RND_RPT_T_LO : Nat := 0x1015910
abbrev RND_RPT_T_HI : Nat := 0x1015914
abbrev RND_RPT_CNT : Nat := 0x1015918
abbrev RND_RPT_ERR : Nat := 0x101591c
abbrev RND_SKIP_CNT : Nat := 0x1015920
abbrev RND_SAFE_CNT : Nat := 0x1015924
abbrev RND_DEFER_CNT : Nat := 0x1015928
abbrev RND_CHBUSY : Nat := 0x101592c
abbrev WDT_PERIOD : Nat := 0x1016100
abbrev WDT_TASKS : Nat := 0x1016104
abbrev WDT_PULSEW : Nat := 0x1016108
abbrev WDT_WARN : Nat := 0x101610c
abbrev WDT_SVC : Nat := 0x1016110
abbrev WDT_CHECKIN : Nat := 0x1016114
abbrev WDT_STAT : Nat := 0x1016900
abbrev WDT_PERIOD_ACT : Nat := 0x1016904
abbrev WDT_TASKS_ACT : Nat := 0x1016908
abbrev WDT_WARN_ACT : Nat := 0x101690c
abbrev WDT_REMAIN : Nat := 0x1016910
abbrev WDT_SVC_CNT : Nat := 0x1016914
abbrev WDT_DOUBLE : Nat := 0x1016918
abbrev WDT_INCOMPLETE : Nat := 0x101691c
abbrev WDT_MISSING : Nat := 0x1016920
abbrev WDT_EVID_INFO : Nat := 0x1016a00
abbrev WDT_EVID_PCSTW : Nat := 0x1016a04
abbrev WDT_EVID_PCS01 : Nat := 0x1016a08
abbrev WDT_EVID_PCS23 : Nat := 0x1016a0c
abbrev WDT_EVID_TSVC_LO : Nat := 0x1016a10
abbrev WDT_EVID_TSVC_HI : Nat := 0x1016a14
abbrev WDT_EVID_TEXP_LO : Nat := 0x1016a18
abbrev WDT_EVID_TEXP_HI : Nat := 0x1016a1c
abbrev WDT_EXP_CNT : Nat := 0x1016a20
abbrev KEEP_CMD : Nat := 0x1017100
abbrev KEEP_ARG : Nat := 0x1017104
abbrev KEEP_PWIN (i : Nat) : Nat := 0x1017110 + 4 * i
abbrev KEEP_STAT : Nat := 0x1017900
abbrev KEEP_RECPAGE : Nat := 0x1017904
abbrev KEEP_CMDSTAT : Nat := 0x1017908
abbrev KEEP_PWSTAT : Nat := 0x101790c
abbrev KEEP_PIPVAL : Nat := 0x1017910
abbrev KEEP_CE_CNT : Nat := 0x1017914
abbrev KEEP_UE_CNT : Nat := 0x1017918
abbrev KEEP_UE_PAGE : Nat := 0x101791c
abbrev KEEP_BAD_CNT : Nat := 0x1017920
abbrev KEEP_SPARES : Nat := 0x1017924
abbrev KEEP_COMMIT_CNT : Nat := 0x1017928
abbrev KEEP_DENY_CNT : Nat := 0x101792c
abbrev KEEP_WEAR_MAX : Nat := 0x1017930
abbrev KEEP_WEAR_PAGE : Nat := 0x1017934
abbrev KEEP_PBUF (i : Nat) : Nat := 0x1017a00 + 4 * i
abbrev RTC_SETTIME : Nat := 0x1018100
abbrev RTC_SETCAL : Nat := 0x1018104
abbrev RTC_CMD : Nat := 0x1018108
abbrev RTC_ALM0_TIME : Nat := 0x101810c
abbrev RTC_ALM1_TIME : Nat := 0x1018114
abbrev RTC_ALM0_CAL : Nat := 0x1018110
abbrev RTC_ALM1_CAL : Nat := 0x1018118
abbrev RTC_ALMCTRL : Nat := 0x101811c
abbrev RTC_COMPCFG : Nat := 0x1018120
abbrev RTC_TRICKLE : Nat := 0x1018124
abbrev RTC_TIME : Nat := 0x1018900
abbrev RTC_CAL : Nat := 0x1018904
abbrev RTC_SUBSEC : Nat := 0x1018908
abbrev RTC_STAT : Nat := 0x101890c
abbrev RTC_TEMP : Nat := 0x1018910
abbrev RTC_COMPN : Nat := 0x1018914
abbrev RTC_SETERR : Nat := 0x1018918
abbrev RTC_CURVE (i : Nat) : Nat := 0x1018a00 + 4 * i
abbrev HST_BAR0WIN : Nat := 0x1019100
abbrev HST_MBX_H2D : Nat := 0x1019104
abbrev HST_MBX_D2H : Nat := 0x1019108
abbrev HST_LINK : Nat := 0x1019900
abbrev HST_PCIID : Nat := 0x1019904
abbrev HST_AER_CE : Nat := 0x1019908
abbrev HST_AER_UE : Nat := 0x101990c
abbrev HST_FLR_CNT : Nat := 0x1019910
abbrev SVC_BAUD : Nat := 0x101a100
abbrev SVC_CFG : Nat := 0x101a104
abbrev SVC_STAT : Nat := 0x101a900
abbrev SVC_RX_OK : Nat := 0x101a904
abbrev SVC_RX_ERR : Nat := 0x101a908
abbrev SVC_BUSYDROP : Nat := 0x101a90c
abbrev SVC_TX : Nat := 0x101a910
abbrev UPD_HCMD : Nat := 0x101b100
abbrev UPD_HIDX : Nat := 0x101b104
abbrev UPD_HBUF : Nat := 0x101b108
abbrev UPD_IDLE_LIM : Nat := 0x101b10c
abbrev UPD_WKEY (i : Nat) : Nat := 0x101b110 + 4 * i
abbrev UPD_KEYCMD : Nat := 0x101b138
abbrev UPD_XADDR : Nat := 0x101b13c
abbrev UPD_XLEN : Nat := 0x101b140
abbrev UPD_XCMD : Nat := 0x101b144
abbrev UPD_EVTSET : Nat := 0x101b148
abbrev UPD_STAT : Nat := 0x101b900
abbrev UPD_BITMAP (i : Nat) : Nat := 0x101b904 + 4 * i
abbrev UPD_LASTRES : Nat := 0x101b914
abbrev UPD_ARB : Nat := 0x101b918
abbrev UPD_VER_STONE : Nat := 0x101b91c
abbrev UPD_VER_PULP : Nat := 0x101b920
abbrev QSP_CFG : Nat := 0x1022100
abbrev QSP_GUARD_LO : Nat := 0x1022104
abbrev QSP_GUARD_HI : Nat := 0x1022108
abbrev QSP_CMD : Nat := 0x102210c
abbrev QSP_ADDR : Nat := 0x1022110
abbrev QSP_LEN : Nat := 0x1022114
abbrev QSP_BUF : Nat := 0x1022118
abbrev QSP_STAT : Nat := 0x1022900
abbrev QSP_SIZE : Nat := 0x1022904
abbrev QSP_OPS : Nat := 0x1022908
abbrev FUS_CMD : Nat := 0x1023100
abbrev FUS_UID_LO : Nat := 0x1023900
abbrev FUS_UID_HI : Nat := 0x1023904
abbrev FUS_WDT : Nat := 0x1023908
abbrev FUS_ARB_LO : Nat := 0x102390c
abbrev FUS_ARB_HI : Nat := 0x1023910
abbrev FUS_CTRL : Nat := 0x1023914
abbrev FUS_STAT : Nat := 0x1023918
abbrev BGD_CTRL : Nat := 0x101c100
abbrev BGD_IINT : Nat := 0x101c104
abbrev BGD_DINT : Nat := 0x101c108
abbrev BGD_PINT : Nat := 0x101c10c
abbrev BGD_MINT : Nat := 0x101c110
abbrev BGD_TINT : Nat := 0x101c114
abbrev BGD_KINT : Nat := 0x101c118
abbrev BGD_RCAL_PER : Nat := 0x101c11c
abbrev BGD_RTCWIN : Nat := 0x101c120
abbrev BGD_STAT : Nat := 0x101c900
abbrev BGD_PASS_I (i : Nat) : Nat := 0x101c904 + 4 * i
abbrev BGD_CE_CNT : Nat := 0x101c91c
abbrev BGD_UE_CNT : Nat := 0x101c920
abbrev BGD_UE_WHERE : Nat := 0x101c924
abbrev BGD_UE_ADDR : Nat := 0x101c928
abbrev BGD_RCAL_LAST : Nat := 0x101c92c
abbrev BGD_RCAL_ERR : Nat := 0x101c930
abbrev BGD_RTC_ERR : Nat := 0x101c934
abbrev BGD_RATEAVG : Nat := 0x101c938
abbrev TLM_TWARN : Nat := 0x101d100
abbrev TLM_TCRIT : Nat := 0x101d104
abbrev TLM_VWIN : Nat := 0x101d108
abbrev TLM_LSEL : Nat := 0x101d10c
abbrev TLM_LCLR : Nat := 0x101d110
abbrev TLM_TEMP (i : Nat) : Nat := 0x101d900 + 4 * i
abbrev TLM_TEMPMAX : Nat := 0x101d910
abbrev TLM_V (i : Nat) : Nat := 0x101d914 + 4 * i
abbrev TLM_LSOLVE_LAST : Nat := 0x101d92c
abbrev TLM_LSOLVE_MIN : Nat := 0x101d930
abbrev TLM_LSOLVE_MAX : Nat := 0x101d934
abbrev TLM_BUNUTIL (i : Nat) : Nat := 0x101d938 + 4 * i
abbrev TLM_ETH_RX (i : Nat) : Nat := 0x101d948 + 16 * i
abbrev TLM_ETH_TX (i : Nat) : Nat := 0x101d94c + 16 * i
abbrev TLM_ETH_RXERR (i : Nat) : Nat := 0x101d950 + 16 * i
abbrev TLM_ETH_RXDROP (i : Nat) : Nat := 0x101d954 + 16 * i

end Sys2Proof.Machine.Reg
end

