-- ==== Sys2Proof/Machine/Sparse.lean ====
section
/-! DEFINITION. Sparse maps: lists of (key, value) pairs in one canonical form, keys strictly rising and no entry equal
to what an unlisted key reads as. Memory, registers and every large array of the state are held so. -/

-- one declaration at a time: many at once take a thread and its stack each
set_option Elab.async false

namespace Sys2Proof.Machine

/-- The value of key `k`: its entry's, or the default `d k` where none is listed. -/
def Sparse.get {α : Type} (d : Nat → α) : List (Nat × α) → Nat → α
  | [], k => d k
  | (k', v) :: t, k => if k' = k then v else Sparse.get d t k

/-- The list without the entries of key `k`. -/
def Sparse.erase {α : Type} : List (Nat × α) → Nat → List (Nat × α)
  | [], _ => []
  | (k', v) :: t, k => if k' = k then Sparse.erase t k else (k', v) :: Sparse.erase t k

/-- The list with `(k, v)` put before the first larger key. -/
def Sparse.insert {α : Type} : List (Nat × α) → Nat → α → List (Nat × α)
  | [], k, v => [(k, v)]
  | (k', v') :: t, k, v => if k < k' then (k, v) :: (k', v') :: t else (k', v') :: Sparse.insert t k v

/-- Write `v` at key `k`; writing the default removes the entry. -/
def Sparse.set {α : Type} [DecidableEq α] (d : Nat → α) (l : List (Nat × α)) (k : Nat) (v : α) : List (Nat × α) :=
  if v = d k then Sparse.erase l k else Sparse.insert (Sparse.erase l k) k v

/-- Every key of the list is above `lo`, the keys rise strictly and no entry equals its default. -/
def Sparse.wfFrom {α : Type} [DecidableEq α] (d : Nat → α) : Option Nat → List (Nat × α) → Bool
  | _, [] => true
  | lo, (k, v) :: t => (match lo with | some l => decide (l < k) | none => true) && decide (v ≠ d k) && Sparse.wfFrom d (some k) t

/-- The canonical form. -/
def Sparse.wf {α : Type} [DecidableEq α] (d : Nat → α) (l : List (Nat × α)) : Bool := Sparse.wfFrom d none l

/-- Write `f i` at key `base + i` for every `i < n`. -/
def Sparse.fill {α : Type} [DecidableEq α] (d : Nat → α) (f : Nat → α) (base : Nat) : Nat → List (Nat × α) → List (Nat × α)
  | 0, l => l
  | n + 1, l => Sparse.set d (Sparse.fill d f base n l) (base + n) (f n)

/-- The list without the keys from `lo` up to but not including `hi`. -/
def Sparse.clear {α : Type} (l : List (Nat × α)) (lo hi : Nat) : List (Nat × α) :=
  l.filter fun e => !(decide (lo ≤ e.1) && decide (e.1 < hi))

/-- The entries from `lo` up to but not including `hi`, moved to start at `dst`. -/
def Sparse.slice {α : Type} (l : List (Nat × α)) (lo hi dst : Nat) : List (Nat × α) :=
  (l.filter fun e => decide (lo ≤ e.1) && decide (e.1 < hi)).map fun e => (e.1 - lo + dst, e.2)

/-- Insert every entry of `es` in turn, keeping the canonical form (the default is removed). -/
def Sparse.insertAll {α : Type} [DecidableEq α] (d : Nat → α) : List (Nat × α) → List (Nat × α) → List (Nat × α)
  | [], l => l
  | (k, v) :: t, l => Sparse.insertAll d t (Sparse.set d l k v)

/-- Copy the `n` keys from `src` on to `dst` on; unlisted keys copy as the default, which must not depend on the key. -/
def Sparse.copy {α : Type} [DecidableEq α] (d : Nat → α) (l : List (Nat × α)) (src dst n : Nat) : List (Nat × α) :=
  Sparse.insertAll d (Sparse.slice l src (src + n) dst) (Sparse.clear l dst (dst + n))

end Sys2Proof.Machine
end

