-- ==== Sys2Proof/Machine/State.lean ====
section
/-! DEFINITION. The state of the TV6480 as plain data, the reasons a step can stop, and the state at reset. -/

-- one declaration at a time: many at once take a thread and its stack each
set_option Elab.async false

namespace Sys2Proof.Machine

/-! ## Events (02 R67–R74) -/

/-- A record of the event log as it waits in the log input queue (02 R74). -/
structure LogRec where
  source : BitVec 8
  flags : BitVec 8
  seq : Half
  time : DWord
  detail : Word
  deriving DecidableEq, Repr

/-- The event router (02 R69, R70): sequence numbers per source (the next, and the last forwarded), vectors with an MSI-X
message waiting, the Steward queue (event, sequence number), the log input queue, and the slot occurrences pending
(06 R211): per slot the event, its DETAIL and its sequence number. -/
structure Evt where
  next : List (Nat × Half) := []
  last : List (Nat × Half) := []
  msix : Word := 0
  stwq : List (BitVec 8 × Half) := []
  logq : List LogRec := []
  slots : List (Nat × (BitVec 8 × Word × Half)) := []
  deriving DecidableEq, Repr

/-! ## Modes, reset and power (03) -/

/-- A mode change that has been accepted and waits for its instant: the row of the transition table (03 R91), the target
mode code, the mode it leaves, whether it came from a request, whose outcome SYS_MODESTAT then shows, and the TARGET that was asked for. -/
structure Trans where
  row : Nat
  target : Nat
  src : Nat
  request : Bool
  asked : Nat
  deriving DecidableEq, Repr

/-- Mode control: transitions pending in the order of 03 R89; a reset runs; a boot step waits for the host (03 R112); the START field of the boot project (R115),
and RUN due after BOOT because of it (row 12); what step 7 did with an update, until the end of BOOT: LASTRES, TARGET, ARB (18 R567). -/
structure Sys where
  trans : List Trans := []
  inReset : Bool := true
  hostWait : Bool := false
  start : Nat := 0
  auto : Bool := false
  upd : Option (Nat × Nat × Nat) := none
  deriving DecidableEq, Repr

/-- A function that switches on and off under completion before reversal (00 R15): the end state of the transition in
progress, the requests held, oldest first, and the state that a domain's transition started from or that a block reached last. -/
structure Fn where
  toward : Option Nat := none
  held : List Nat := []
  base : Nat := 0
  deriving DecidableEq, Repr

/-- Supplies and the core clock: main supplies valid, VBAT present, VFLD valid, PD0 fed from VBAT, core clock running. -/
structure Pwr where
  mainOk : Bool := true
  vbat : Bool := true
  vfldOk : Bool := false
  onVbat : Bool := false
  coreRun : Bool := true
  deriving DecidableEq, Repr

/-! ## Cores (04) -/

/-- Where a result in flight goes (04 R149). -/
inductive Dest where
  | g (r : GReg)
  | zn (z n : Bool)
  | cznv (c z n v : Bool)
  | d
  | k
  | pbk
  | tbk
  | ims
  | sbk
  | far
  deriving DecidableEq, Repr

/-- A result that is written when `left` more instructions of the context have executed (04 R149, R151). -/
structure Flight where
  left : Nat
  dest : Dest
  val : Half
  deriving DecidableEq, Repr

/-- A byte stored by one of the last two instructions of the context: the byte's key, its value before the store, and the
number of instructions executed since (04 R149, "Store to memory"). -/
structure Recent where
  age : Nat
  key : Nat
  old : Byte
  deriving DecidableEq, Repr

/-- The delay slot (04 R145): none, of a branch not taken, of a branch taken to an address. -/
inductive Slot where
  | none
  | untaken
  | taken (pc : Nat)
  deriving DecidableEq, Repr

/-- A repeated sequence in progress (05 R170–R173): the latched count, the repetitions done, the K read at the first
repetition and the K as reduced so far. -/
structure Rep where
  count : Nat
  done : Nat
  kRead : Bool
  kAcc : Bool
  deriving DecidableEq, Repr

/-- An open locked sequence (04 R157, R158): memory instructions left, instructions left of the limit of 8, the Pantry bank
group held. -/
structure Lock where
  mem : Nat
  limit : Nat
  group : Option Nat
  deriving DecidableEq, Repr

/-- The event task a context holds (06 R213). -/
structure Task where
  slot : Nat
  evn : Byte
  prio : Nat
  arg : Word
  seq : Half
  deriving DecidableEq, Repr

/-- A register context; `baseOld`: cells whose count the last two instructions committed, with age and old base (08 R285) (04 R127–R132): general registers (unlisted ones hold 0), flags, bit stack, windows and their
delayed copies seen by memory instructions, the program counter, and what is under way. -/
structure Ctx where
  g : List (Nat × Byte) := []
  fc : Bool := false
  fz : Bool := false
  fn : Bool := false
  fv : Bool := false
  fk : Bool := false
  fd : Bool := false
  rc : Byte := 0
  ks0 : Byte := 0
  depth : Nat := 0
  unf : Bool := false
  ovf : Bool := false
  pbk : Byte := 0
  tbk : BitVec 2 := 0
  ims : BitVec 2 := 0
  sbk : BitVec 6 := 0
  far0 : Byte := 0
  far1 : Byte := 0
  cpg : Bool := false
  wPbk : Byte := 0
  wTbk : BitVec 2 := 0
  wIms : BitVec 2 := 0
  wSbk : BitVec 6 := 0
  wFar : Half := 0
  pc : Nat := 0
  slot : Slot := .none
  rep : Option Rep := none
  flights : List Flight := []
  recent : List Recent := []
  sealed : Nat := 0
  lock : Option Lock := none
  task : Option Task := none
  baseOld : List (Nat × Nat × Int) := []
  /-- The lane resumes after a breakpoint hit and checks no breakpoint at its next instruction (06 R235). -/
  skipBp : Bool := false
  /-- The lane stands at a BRK that has hit, and resumes after it (06 R227, R235). -/
  atBrk : Bool := false
  /-- The first beat of an LDP or STP is taken, with the byte that it has read (05 R635). -/
  beat : Option Byte := none
  cycL : BitVec 48 := 0
  ctsL : BitVec 48 := 0
  deriving DecidableEq, Repr

/-- What a core is doing. -/
inductive Run where
  /-- Nothing: an unused lane, an event lane without a task, a solving lane outside SOLVE, a spare. -/
  | idle
  /-- A solving lane in its segment, an event lane in a task, a service lane or the Steward running. -/
  | exec
  /-- A solving lane waiting at a step merge (05 R165). -/
  | atMerge
  /-- A solving lane whose segment has ended by HALT (05 R164). -/
  | segEnd
  /-- The Steward waiting for its queue at HALT (05 R164). -/
  | waitQueue
  /-- Stopped: a service lane after HALT or by SVREL or SVFLT, a solving lane whose cycle was stopped (06 R637). -/
  | stopped
  deriving DecidableEq, Repr

/-- What a staged entry names (06 R204): a byte of the output image, of the exchange memory, or the inputs of a cell. -/
inductive Staged where
  | img (off : Nat)
  | exch (off : Nat)
  | cell (n : Nat)
  deriving DecidableEq, Repr

/-- One entry of a staged-write buffer (04 R137): what it names, the bits it writes and their values. -/
structure Entry where
  what : Staged
  mask : Byte
  val : Byte
  deriving DecidableEq, Repr

/-- A core (04 R126): what it does, its current context, and for a scan lane its step number, its staged-write buffer
(oldest first) and its peak, holds and stops, its solve times (19 R587). -/
structure CoreSt where
  run : Run := .idle
  cur : Nat := 0
  stepNo : Nat := 0
  swb : List Entry := []
  peak : Nat := 0
  /-- Held by a breakpoint or HOLD (06 R227). -/
  held : Bool := false
  /-- Instructions the lane may still issue after a stop (06 R637). -/
  grace : Nat := 0
  /-- How the lane's lock and transfer end once it has issued those: 0 with a breakpoint halt (07 R268), else the cause of 07 R269. -/
  stop : Option Nat := none
  /-- One instruction granted by SCN_HOLDCMD.STEP (06 R230). -/
  credit : Bool := false
  dbgHalt : Bool := false
  /-- Out of service until reset (06 R223), or a service lane's fault. -/
  faulty : Bool := false
  /-- Reads faulted until the mode leaves SAFE-HALT (06 R206). -/
  ovf : Bool := false
  forced : Bool := false
  solved : Bool := false
  doneAt : Nat := 0
  lsLast : Nat := 0
  lsMin : Nat := 0x3FFFFFFF
  lsMax : Nat := 0
  deriving DecidableEq, Repr

/-! ## Frames of the Rind link from the logic die (14) -/

/-- A frame that waits on the Rind link (14 R456): SAFE, RELEASE, DIRECT, the configuration of channels 4k to 4k + 3 (k = 8: RND_SAMPLE and RND_TIMEOUT), a
calibration request of a channel (19 R583). -/
inductive RindFrame where
  | safe
  | release
  | direct
  | config (k : Nat)
  | cal (ch : Nat)
  deriving DecidableEq, Repr

/-! ## The scan engine (06) -/

/-- A cycle command of HOLD (06 R231). -/
inductive HoldCmd where
  | none
  | step
  | waiting
  | running
  deriving DecidableEq, Repr

/-- A sparing copy of a Bunch (06 R222). -/
structure Copy where
  lane : Nat
  scan : Nat
  running : Bool
  done : Bool
  deriving DecidableEq, Repr

/-- The scan engine: last boundary handled, cycle number and timestamp as CYC and CTS show them, t_n,
start of SOLVE, the state of the current cycle, the sparing copies per Bunch, and HOLD. -/
structure Scn where
  lastB : Option Nat := none
  cyc : Nat := 0
  cts : Nat := 0
  tn : Nat := 0
  solveAt : Nat := 0
  merging : Bool := false
  mergeE : Nat := 0
  mergeMax : Nat := 0
  mergeMaxE : Nat := 0
  published : Bool := true
  applied : Bool := true
  invalid : Bool := false
  heldCyc : Bool := false
  heldRun : Nat := 0
  interrupted : Bool := false
  /-- SOLVE of the interrupted cycle has ended; its PUBLISH waits for the resumption (06 R232). -/
  pubDue : Bool := false
  hold : HoldCmd := .none
  copies : List (Nat × Copy) := []
  safeOut : Bool := false
  /-- The PUBLISH of the cycle has sent OUT frames or a Rind refresh (06 R239). -/
  outSent : Bool := false
  deriving DecidableEq, Repr

/-! ## Image, arbitration, timer cells, Graft (07–09) -/

/-- An arbiter (07 R259–R262): rotating pointer, wait counters by requester, the requesters at their limit in the order in
which they reached it, the owner of a lock. -/
structure Arb where
  ptr : Nat := 0
  waits : List (Nat × Nat) := []
  limit : List Nat := []
  owner : Option Nat := none
  deriving DecidableEq, Repr

/-- An access to a byte of the Pantry in this cycle (06 R242, 07 R272): its key, the physical lane (255 for the host, a service lane or the Steward),
the lane's step, whether it wrote. -/
structure PanAcc where
  key : Nat
  lane : Nat
  step : Nat
  wrote : Bool
  deriving DecidableEq, Repr

/-- The image and Pantry records (07 R247, R255, R256): COMPLETE flags, POISON marks, dirty bitmaps, all as sets of block or
line numbers; blocks being written; a forced win seen in this cycle; the accesses to Pantry in it. -/
structure Img where
  complete : List (Nat × Bool) := []
  writing : List (Nat × Bool) := []
  poison : List (Nat × Bool) := []
  all : List (Nat × Bool) := []
  nd : List (Nat × Bool) := []
  ndPrev : List (Nat × Bool) := []
  forceWin : Bool := false
  acc : List PanAcc := []
  deriving DecidableEq, Repr

/-- Read and staging buffers of one agent context for the timer-cell window, each with the number of its cell plus 1, 0 for none
(08 R288). -/
structure CellBuf where
  rTag : Nat := 0
  rBuf : BitVec 48 := 0
  sTag : Nat := 0
  sBuf : BitVec 48 := 0
  deriving DecidableEq, Repr

/-- Timer cells (08): hidden bases of FREE cells, an update running, an overflow already raised since the freeze. -/
structure Tmc where
  base : List (Nat × Int) := []
  updating : Bool := false
  ovfRaised : Bool := false
  bufs : List (Nat × CellBuf) := []
  deriving DecidableEq, Repr

/-- The Graft engine (09 R306): the active instruction half is B (01 R24); dispatch stopped by an attempt that is open or by the map; the partner's
package stands armed, as its last heartbeat said (R311); the first cycle under the program that is being applied; the boundary after the last swap of a Graft, until it
comes, and that boundary where a GO has followed the swap (R308); on a standby, the COMMIT that goes before the Graft has been applied, and the decision has come
before it (R312). -/
structure Grf where
  half : Bool := false
  dispStop : Bool := false
  partnerArmed : Bool := false
  cyc : Nat := 0
  swapped : Option Nat := none
  goHold : Option Nat := none
  told : Bool := false
  goDue : Bool := false
  deriving DecidableEq, Repr
/-! ## Vuvas (10) -/

/-- What a controller keeps of a station between freezes (10 R332–R346): the SEQ of the last accepted IN copy, the SAFE flag of a copy
written since the last freeze, the join state reached, the UID of the last HELLO, RELEASE frames left once the first is sent. -/
structure StnRx where
  seq : Option Half := none
  wrote : Option Bool := none
  join : Nat := 0
  uid : Option DWord := none
  relLeft : Option Nat := none
  deriving DecidableEq, Repr

/-- The Vuvas engine of a controller: stations, queued CONFs in the order of their HELLOs and those sent this cycle, RELEASE requests that
the PUBLISH of this cycle found, copies seen and freezes without, per network, an RX_CRC raised since the last freeze, the end of the
last OUT frame, a partner's claim seen since the last boundary. -/
structure Vuv where
  stns : List (Nat × StnRx) := []
  confQ : List Nat := []
  confN : Nat := 0
  /-- This cycle's OUT frames have gone, or it has none: control frames may follow (10 R328). -/
  outDone : Bool := false
  /-- This cycle's SCHED has gone (10 R328). -/
  schedSent : Bool := false
  /-- This cycle's SAFE frame for all stations has gone (10 R328). -/
  safeSent : Bool := false
  relDue : List Nat := []
  seenA : Bool := false
  seenB : Bool := false
  missA : Nat := 0
  missB : Nat := 0
  crc : Bool := false
  pubEnd : Nat := 0
  deriving DecidableEq, Repr

/-- An accepted OUT segment (10 R337, R338). -/
structure Seg where
  epoch : Half
  seq : Half
  time : DWord
  late : Bool
  applied : Bool
  deriving DecidableEq, Repr

/-- The Vuvas engine of a station (10 R336–R351): the segment accepted, the SEQ of a SAFE frame taken, what came since the last boundary,
boundaries without an accepted frame, cycles to the next HELLO and since the last DIAG, the SEQ of the IN segment sent last, whether a
segment has been applied since STATION-RUN was entered, the cause that the next entry into the safe state shows. -/
structure Stn where
  seg : Option Seg := none
  safeSeq : Option Half := none
  gotOut : Bool := false
  gotFrame : Bool := false
  noFrame : Nat := 0
  hello : Nat := 0
  diag : Nat := 0
  inSeq : Option Half := none
  released : Bool := false
  cause : Option Nat := none
  deriving DecidableEq, Repr

/-! ## Twin (11) -/

/-- A digest of a cycle (11 R371): the cycle number, the value, and whether the cycle was invalid. -/
structure Dig where
  cyc : Nat
  val : DWord
  invalid : Bool
  deriving DecidableEq, Repr

/-- The delta being staged (11 R365): SEQ, cycle number and CTS, HELD, SWAP, lines by ADDR, configuration writes, records received;
`grf`: the Pantry lines that go before a Graft, without DTIME (09 R312). -/
structure Delta where
  seq : Nat
  cyc : Nat
  cts : Nat
  held : Bool
  swap : Bool
  lines : List (Nat × List Byte)
  cfgw : List (Nat × Word)
  count : Nat
  grf : Bool := false
  deriving DecidableEq, Repr

/-- A planned switch-over (11 R382): its boundary, whether SWITCH_ACK has arrived, and whether this twin is the one that requested it. -/
structure Switch where
  b : Nat
  acked : Bool
  mine : Bool
  deriving DecidableEq, Repr

/-- Twin redundancy (11): valid heartbeats in a row; a partner's claim and OUT frame since the last boundary, boundaries without a claim; a
TAKE_IN pulse and a HANDOVER waiting; the delta staged and the number of the cycle committed last; digests of the last cycle, OUT frames sent,
allowed without a comparison, the last comparison matched, DIVERGE raised for a cycle; configuration writes since the freeze; a switch-over; the
full copy: its position in pass 1, lines left of a later pass, lines sent in the pass, its first cycle, FC_NOCONV raised, closed in time; a LINK_ERR
raised in this cycle; a resume waiting; STOP left without a lead. -/
structure Twn where
  hbGood : Nat := 0
  claim : Bool := false
  outSeen : Bool := false
  quiet : Nat := 0
  takeIn : Bool := false
  handover : Bool := false
  delta : Option Delta := none
  committed : Option Nat := none
  own : Option Dig := none
  part : Option Dig := none
  sent : Bool := false
  free : Bool := false
  matched : Bool := false
  dropped : Option Nat := none
  cfgw : List (Nat × Word) := []
  sw : Option Switch := none
  fcPos : Nat := 0
  fcLines : List Nat := []
  fcSent : Nat := 0
  fcStart : Nat := 0
  noconv : Bool := false
  closed : Bool := false
  swapped : Bool := false
  linkErr : Bool := false
  resume : Bool := false
  leftStop : Bool := false
  /-- The Pantry lines of the cycle's digest, as the final merge found them (11 R371). -/
  digLines : List Nat := []
  deriving DecidableEq, Repr


/-- A CAN controller (13): where the search for a receive object starts, the object in transmission, bus-off, its recovery counted. -/
structure Can where
  next : Nat := 0
  sel : Option Nat := none
  off : Bool := false
  recov : Bool := false
  deriving DecidableEq, Repr

/-- The Rind (14) and what the logic die keeps of it: running, safe, waiting for the first APPLY after a RELEASE; configuration received, channels started,
the last REFRESH; commanded outputs, values applied, clamps that conduct, on commands deferred, thermal shutdowns, current limits; channel states, samples in a
row by channel, tag applied, trims; of the logic die: the channels that are ON, the tag sent in this cycle, whether this cycle's REFRESH is sent or skipped, valid reports in a row, link
lost, FLT of the last valid report, RPT_ERR raised since the freeze, the frame sent last was a DIRECT frame. -/
structure Rind where
  on : Bool := false
  safe : Bool := false
  wait : Bool := false
  cfg : List (Nat × Word) := []
  ch : Word := 0
  refr : Option (Word × BitVec 4) := none
  out : Word := 0
  app : Word := 0
  demag : Word := 0
  defer : Word := 0
  therm : Word := 0
  limit : Word := 0
  inst : Word := 0
  runs : List (Nat × (Bool × Nat)) := []
  tag : BitVec 4 := 0
  trim : List (Nat × Byte) := []
  chOn : Word := 0
  sent : Option (BitVec 4) := none
  refDone : Bool := false
  good : Nat := 0
  lost : Bool := false
  flt : Bool := false
  errSeen : Bool := false
  direct : Bool := false
  /-- The last REFRESH was received in the safe state: it has no effect on any output (14 R467). -/
  refSafe : Bool := false
  /-- SAFE is due at the next T_apply (14 R468; 03 row 14). -/
  safeDue : Bool := false
  deriving DecidableEq, Repr

/-- A Keep command (16 R503): bank (0 host, 1 service lanes, 2 Steward), OP, page, the page buffer, ARG and the password window at its issue. -/
structure KCmd where
  bank : Nat
  op : Nat
  page : Nat
  data : List Byte
  arg : Nat
  pwin : List Byte
  deriving DecidableEq, Repr

/-- Keep (16). In the array: passwords, BP, BAD pages, program counts, spares left, journal slot and write number. Beside it: commands queued and the one
that executes, one that a reset interrupted, open passwords by bank, fail counts, the time of the last DENIED, pages to rewrite. -/
structure Keep where
  rdPw : List Byte := []
  wrPw : List Byte := []
  bp : Nat := 0
  bad : List Nat := []
  progs : List (Nat × Nat) := []
  spares : Nat := 256
  slot : Nat := 0
  seq : Nat := 0
  queue : List KCmd := []
  exec : Option KCmd := none
  torn : Option KCmd := none
  rdOpen : List Nat := []
  wrOpen : List Nat := []
  rdFails : Nat := 0
  wrFails : Nat := 0
  denyAt : Option Nat := none
  rewrite : List Nat := []
  /-- The service lane that has used the bank of its class since the last command of that bank ended (16 R502, R523). -/
  user : Option Nat := none
  deriving DecidableEq, Repr

/-- The watchdog (15): quarter nanoseconds counted in the period, window open, staged values wait, WARN raised in the period, WDPULSE high. -/
structure Wdt where
  elapsed : Nat := 0
  window : Bool := false
  warned : Bool := false
  pulse : Bool := false
  tsvc : Nat := 0
  deriving DecidableEq, Repr

/-- A host update command in progress (18 R562): OP, piece index, KEY, the delivery buffer at its issue. -/
structure HCmd where
  op : Nat
  idx : Nat
  arg : Nat
  key : Nat
  data : List Byte
  deriving DecidableEq, Repr

/-- An operation of the QSPI port (18 R559). -/
structure QOp where
  op : Nat
  addr : Nat
  len : Nat
  buf : Nat
  bad : Bool
  deriving DecidableEq, Repr

/-- Update, flash and fuses (18): the host command in progress, the hidden key register, QSPI operations by bank, a fuse program (OP, index). -/
structure Upd where
  cmd : Option HCmd := none
  key : Option (BitVec 256) := none
  qsp : List (Nat × QOp) := []
  fuse : Option (Nat × Nat) := none
  deriving DecidableEq, Repr

/-- Background work and telemetry (19): BGD_UE_CNT at the start of each scrubber's pass, the channel calibrated next, a temperature warning that stands,
supplies outside their window. -/
structure Bgd where
  ue : List (Nat × Word) := []
  cal : Nat := 0
  warm : Bool := false
  out : List Nat := []
  /-- The RTC's measurement window is to be discarded (19 R584). -/
  voided : Bool := false
  deriving DecidableEq, Repr

/-- The service port (18 R553): SEQ and bytes of the last executed frame's response, a discard since the last response, a MODE_REQ that waits for its outcome
(SEQ, time), an update command that waits for the host's (SEQ, CMD, payload, whether the flash verifies). -/
structure Svc where
  last : Option (Byte × List Byte) := none
  errSeen : Bool := false
  wait : Option (Byte × Nat) := none
  queued : Option (Byte × Byte × List Byte × Bool) := none
  deriving DecidableEq, Repr
/-! ## Time (12) and the RTC (17) -/

/-- The time base (12 R391): SEC, NS, FRAC with its hidden extension to 32 bits; a load from the RTC waits for a tick (R400). -/
structure Tim where
  sec : Nat := 0
  ns : Nat := 0
  frac : Nat := 0
  loadPend : Bool := true
  deriving DecidableEq, Repr

/-- A capture of a TCI pin (12 R412). -/
structure Capt where
  sec : Nat
  ns : Nat
  rising : Bool
  deriving DecidableEq, Repr

/-- A pulse output (12 R414–R416): armed, the active set with START in ns, the level before INV, an unarming that waits for the end of the pulse; the
agents that have written the pending set since the last arm. -/
structure Tpo where
  armed : Bool := false
  start : Nat := 0
  p : Nat := 0
  w : Nat := 0
  c : Nat := 0
  inv : Bool := false
  each : Bool := false
  level : Bool := false
  ending : Bool := false
  writers : List Nat := []
  deriving DecidableEq, Repr

/-- A transmit timestamp in a port's queue (12 R408). -/
structure TxTs where
  tsid : Half
  sec : Nat
  ns : Nat
  frac : Nat
  deriving DecidableEq, Repr

/-- The RTC (17): the command in progress (1 ADDH, 2 SUBH, 3 FROMNET, 0 none), the elapsed time at which the sub-second divider was last 0,
whether the crystal runs, as its last tick or stop has shown (R527), and the divider's position while it does not. -/
structure Rtc where
  cmd : Nat := 0
  since : Nat := 0
  xtal : Bool := false
  sub : Nat := 0
  deriving DecidableEq, Repr


/-! ## The state -/

/-- What leaves the device on a link or pin, in the order it left: Vuvas frames per network (10), twin records (11),
frames of MACs (12), CAN frames (13), Rind link frames from the logic die and reports (14), WDPULSE edges (15), MSI-X messages (02 R70),
UART responses (18). -/
inductive TxItem where
  | vuvas (net : Net) (bytes : List Byte)
  | twin (bytes : List Byte)
  | eth (port : Nat) (bytes : List Byte)
  | can (n : Nat) (f : CanFrame)
  | rind (bytes : List Byte)
  | wdpulse (level : Bool)
  | tpo (n : Nat) (level : Bool)
  | mdio (port : Nat) (word : Word)
  | msix (vec : Nat)
  | uart (bytes : List Byte)
  deriving DecidableEq, Repr

/-- The state of the device. -/
structure State where
  /-- Commands waiting, first in, first out. -/
  pending : List Instr := []
  /-- Value returned by the last read command (the model's own; log 8). -/
  rdata : DWord := 0
  /-- Free values taken so far (the model's own; log 3). -/
  freeCtr : Nat := 0
  /-- Quarter nanoseconds elapsed (the model's own; log 1). -/
  now : Nat := 0
  /-- Bytes of every memory by key (log 7). -/
  mem : List (Nat × Byte) := []
  /-- ECC marks of words: 1 correctable, 2 uncorrectable, by the key of the word's first byte. -/
  ecc : List (Nat × Nat) := []
  /-- Word registers by device address, a banked one with the bank's offset (log 7). -/
  regs : List (Nat × Word) := []
  /-- Hidden counters of frozen pages (02 R55). -/
  hidden : List (Nat × Word) := []
  /-- Read buffers by agent and register (00 R8, R9). -/
  rbuf : List (Nat × Word) := []
  /-- Staging buffers by agent and register (00 R8, R11). -/
  stage : List (Nat × Word) := []
  wire : List TxItem := []
  evt : Evt := {}
  sys : Sys := {}
  pwr : Pwr := {}
  /-- Held requests of switched functions, by function number (00 R15). -/
  fns : List (Nat × Fn) := []
  /-- Pages whose soft reset runs (02 R54). -/
  softRst : List Nat := []
  cores : List (Nat × CoreSt) := []
  ctxs : List (Nat × Ctx) := []
  svrel : BitVec 4 := 0
  svflt : BitVec 4 := 0
  scn : Scn := {}
  arbs : List (Nat × Arb) := []
  img : Img := {}
  tmc : Tmc := {}
  grf : Grf := {}
  tim : Tim := {}
  tci : List (Nat × List Capt) := []
  /-- Per TCI pin, the elapsed time from which its next edge counts (21 R621). -/
  tciNext : List (Nat × Nat) := []
  tpo : List (Nat × Tpo) := []
  txts : List (Nat × List TxTs) := []
  rtc : Rtc := {}
  vuv : Vuv := {}
  stn : Stn := {}
  twn : Twn := {}
  can : List (Nat × Can) := []
  rind : Rind := {}
  keep : Keep := {}
  wdt : Wdt := {}
  upd : Upd := {}
  svc : Svc := {}
  bgd : Bgd := {}
  /-- Frames waiting on the Rind link, oldest first (14 R457). -/
  rndQ : List RindFrame := []
  deriving DecidableEq, Repr

/-- Reasons a step can stop with a fault. -/
inductive Fault where
  /-- Raised by no meaning: the block has no access that stops it (02 R43 gives every access an end). Safe. -/
  | none
  deriving DecidableEq, Repr

/-- Reasons a step can refuse a command. -/
inductive Refusal where
  /-- A command without a meaning. Raised by `exec` only; safe. -/
  | notModelled (mnemonic : String)
  deriving DecidableEq, Repr

/-- What a meaning answers. -/
abbrev Res (σ : Type) := Host.Outcome σ Fault Refusal

/-- The device in the instant in which the reset delay of a power-on reset has run and the ROM may start (log 4):
every map lists nothing, so every register holds the reset value of its page map, every memory 0 (log 6). -/
def State.reset : State := {}

end Sys2Proof.Machine
end

