-- ==== Sys2Proof/Machine/Pages.lean ====
section
/-! DEFINITION. The 37 register pages (02 R50), what a register holds after reset, the keys of the memories (log 7), and
named accessors of registers and memory. -/

-- one declaration at a time: many at once take a thread and its stack each
set_option Elab.async false

namespace Sys2Proof.Machine

/-! ## Pages -/

/-- A page's identity and capabilities (02 R50, R53): block code, instance, first event, number of events, SHADOW, SOFTRST,
COUNTERS, EN at reset, the domain the page lies in. -/
structure PageInfo where
  code : Nat
  inst : Nat
  ev : Nat
  nevt : Nat
  shadow : Bool
  softrst : Bool
  counters : Bool
  en : Bool
  dom : Nat
  deriving DecidableEq, Repr

/-- The page table. The domain of a page follows 01 R36: SYS, EVT and the pages of the core side in PD1, IMG, ARB, TMC and
GRF in PD8, TIM, TPO and ETH in PD9, HST in PD10, CAN, SVC and QSP in PD11, TWN in PD12; the pages of the Bunches, of Keep and of
the Rind stay reachable in PD1 with their arrays elsewhere (DEDUCED, log 9). -/
def pageInfo : Nat → PageInfo
  | 0x00 => ⟨0x10, 0, 0, 8, false, false, false, true, 1⟩
  | 0x01 => ⟨0x11, 0, 8, 8, false, false, false, true, 1⟩
  | 0x02 => ⟨0x12, 0, 0x100, 0, false, false, true, true, 1⟩
  | 0x03 => ⟨0x13, 0, 240, 16, true, false, true, true, 1⟩
  | 0x04 => ⟨0x20, 0, 16, 16, true, false, true, true, 1⟩
  | 0x05 => ⟨0x21, 0, 32, 4, false, false, false, true, 1⟩
  | 0x06 => ⟨0x21, 1, 36, 4, false, false, false, true, 1⟩
  | 0x07 => ⟨0x21, 2, 40, 4, false, false, false, true, 1⟩
  | 0x08 => ⟨0x21, 3, 44, 4, false, false, false, true, 1⟩
  | 0x09 => ⟨0x22, 0, 48, 4, false, false, true, true, 8⟩
  | 0x0A => ⟨0x23, 0, 52, 4, true, false, true, true, 8⟩
  | 0x0B => ⟨0x24, 0, 56, 4, true, false, true, true, 8⟩
  | 0x0C => ⟨0x25, 0, 60, 4, false, false, true, true, 8⟩
  | 0x0D => ⟨0x30, 0, 64, 32, true, true, true, false, 1⟩
  | 0x0E => ⟨0x31, 0, 96, 16, false, false, true, false, 12⟩
  | 0x0F => ⟨0x32, 0, 112, 8, false, false, true, true, 9⟩
  | 0x10 => ⟨0x33, 0, 120, 8, false, true, false, false, 9⟩
  | 0x11 => ⟨0x40, 0, 128, 8, false, true, true, false, 11⟩
  | 0x12 => ⟨0x40, 1, 136, 8, false, true, true, false, 11⟩
  | 0x13 => ⟨0x40, 2, 144, 8, false, true, true, false, 11⟩
  | 0x14 => ⟨0x40, 3, 152, 8, false, true, true, false, 11⟩
  | 0x15 => ⟨0x41, 0, 160, 8, false, false, true, false, 1⟩
  | 0x16 => ⟨0x50, 0, 168, 8, false, false, true, true, 1⟩
  | 0x17 => ⟨0x51, 0, 176, 8, false, false, true, true, 1⟩
  | 0x18 => ⟨0x52, 0, 184, 8, false, false, false, true, 1⟩
  | 0x19 => ⟨0x60, 0, 192, 8, false, false, true, true, 10⟩
  | 0x1A => ⟨0x61, 0, 200, 4, false, true, true, true, 11⟩
  | 0x1B => ⟨0x62, 0, 204, 4, false, false, false, true, 1⟩
  | 0x1C => ⟨0x70, 0, 208, 8, false, false, true, true, 1⟩
  | 0x1D => ⟨0x71, 0, 216, 8, false, false, true, true, 1⟩
  | 0x1E => ⟨0x34, 0, 224, 4, false, false, false, false, 9⟩
  | 0x1F => ⟨0x34, 1, 228, 4, false, false, false, false, 9⟩
  | 0x20 => ⟨0x34, 2, 232, 4, false, false, false, false, 9⟩
  | 0x21 => ⟨0x34, 3, 236, 4, false, false, false, false, 9⟩
  | 0x22 => ⟨0x63, 0, 0x100, 0, false, false, true, true, 11⟩
  | 0x23 => ⟨0x64, 0, 0x100, 0, false, false, false, true, 1⟩
  | _ => ⟨0x72, 0, 0x100, 0, false, false, false, true, 1⟩

/-- The page of an event source (02 R50). -/
def evPage (e : Nat) : Nat :=
  if e < 8 then 0x00 else if e < 16 then 0x01 else if e < 32 then 0x04 else if e < 48 then 0x05 + (e - 32) / 4
  else if e < 52 then 0x09 else if e < 56 then 0x0A else if e < 60 then 0x0B else if e < 64 then 0x0C
  else if e < 96 then 0x0D else if e < 112 then 0x0E else if e < 120 then 0x0F else if e < 128 then 0x10
  else if e < 160 then 0x11 + (e - 128) / 8 else if e < 168 then 0x15 else if e < 176 then 0x16 else if e < 184 then 0x17
  else if e < 192 then 0x18 else if e < 200 then 0x19 else if e < 204 then 0x1A else if e < 208 then 0x1B
  else if e < 216 then 0x1C else if e < 224 then 0x1D else if e < 240 then 0x1E + (e - 224) / 4 else 0x03

/-- The registers of a page beyond its header. -/
def pageRows : Nat → List RegRow
  | 0x00 => rowsSYS
  | 0x01 => rowsPWR
  | 0x02 => rowsCLK
  | 0x03 => rowsEVT
  | 0x04 => rowsSCN
  | 0x05 | 0x06 | 0x07 | 0x08 => rowsBUN
  | 0x09 => rowsIMG
  | 0x0A => rowsARB
  | 0x0B => rowsTMC
  | 0x0C => rowsGRF
  | 0x0D => rowsVUV
  | 0x0E => rowsTWN
  | 0x0F => rowsTIM
  | 0x10 => rowsTPO
  | 0x11 | 0x12 | 0x13 | 0x14 => rowsCAN
  | 0x15 => rowsRND
  | 0x16 => rowsWDT
  | 0x17 => rowsKEEP
  | 0x18 => rowsRTC
  | 0x19 => rowsHST
  | 0x1A => rowsSVC
  | 0x1B => rowsUPD
  | 0x1C => rowsBGD
  | 0x1D => rowsTLM
  | 0x1E | 0x1F | 0x20 | 0x21 => rowsETH
  | 0x22 => rowsQSP
  | 0x23 => rowsFUS
  | 0x24 => rowsDBG
  | _ => []

/-- The header registers (02 R53); OWNER's rights bits are RO 0 for the host and the service lanes in FUS (02 R56). -/
def rowsHeader (p : Nat) : List RegRow :=
  let i := pageInfo p
  let evts := 2 ^ i.nevt - 1
  [ { off := 0x00, reset := i.code * 0x10000 + i.inst * 0x100 + 1 },
    { off := 0x04, reset := (if i.shadow then 1 else 0) + (if i.softrst then 2 else 0) + (if i.counters then 4 else 0) + i.nevt * 0x100 },
    { off := 0x08, rw := (if p = 0x16 ∨ p = 0x23 then 0 else 1) + (if i.shadow then 4 else 0) + 8, w1s := 2,
      reset := (if i.en then 1 else 0) + (if i.shadow then 4 else 0) },
    { off := 0x0C, w1c := 8 },
    { off := 0x10 },
    { off := 0x14, rw := evts },
    { off := 0x18, w1c := evts },
    { off := 0x1C, reset := i.ev },
    { off := 0x20 },
    { off := 0x24, rw := if p = 0x23 then 0x30 else 0x3F, w1s := 0x80000000, reset := 0x30 } ]

/-- The row that holds offset `off`, which is a multiple of 4. -/
def findRow (off : Nat) : List RegRow → Option RegRow
  | [] => none
  | r :: t => if r.off ≤ off ∧ (off - r.off) % r.stride = 0 ∧ (off - r.off) / r.stride < r.n then some r else findRow off t

/-- What a word of a page is: its row and whether the offset lies in the shadow window (02 R58). -/
structure Target where
  row : RegRow
  shadow : Bool
  deriving DecidableEq, Repr

/-- The register at word offset `off` of page `p`, if one lies there. -/
def target (p off : Nat) : Option Target :=
  if off < 0x100 then (findRow off (rowsHeader p)).map (⟨·, false⟩)
  else if (pageInfo p).shadow && decide (0x500 ≤ off) && decide (off < 0x900) then (findRow (off - 0x400) (pageRows p)).map (⟨·, true⟩)
  else (findRow off (pageRows p)).map (⟨·, false⟩)

/-- Offset of a banked register's copy for a bank: 0 host and debug port, 1 service lanes, 2 Steward (log 7). -/
abbrev bankKey (bank : Nat) : Nat := bank * 2 ^ 32

/-- The reset value of the register with key `k` (02 R53 and the page maps; log 5 where the spec gives none). -/
def regReset (k : Nat) : Word :=
  let a := k % 2 ^ 32
  let p := (a - 0x01000000) / 0x1000
  let off := a % 0x1000
  match target p off with
  | none => 0
  | some t =>
    if t.shadow && !t.row.rs then 0
    else if decide (5 ≤ p) && decide (p ≤ 8) && decide (0x900 ≤ off) && decide (off < 0x940) then BitVec.ofNat 32 (17 * (p - 5) + (off - 0x900) / 4)
    else if decide (5 ≤ p) && decide (p ≤ 8) && decide (off = 0x940) then BitVec.ofNat 32 (0x200 + 17 * (p - 5) + 16)
    else if (decide (p = 0x20) || decide (p = 0x21)) && decide (off = 0x100) then 0x1C
    else if decide (p = 1) && decide (off = 0x900) then 2
    else if decide (p = 1) && decide (0x904 ≤ off) && decide (off ≤ 0x934) then 1
    else BitVec.ofNat 32 t.row.reset

/-- What a staging buffer holds of register `k` after reset (00 R12): its value; 0 in W1C, W1S and WO fields (02 R48). -/
def stageReset (k : Nat) : Word :=
  let a := k % 2 ^ 32
  match target ((a - 0x01000000) / 0x1000) (a % 0x1000) with
  | some t => regReset a &&& BitVec.ofNat 32 t.row.rw
  | none => 0

/-! ## Keys of memory (log 7) -/

namespace Key

/-- Input image (07 R243). -/
abbrev input : Nat := 0x01800000
/-- Output image. -/
abbrev output : Nat := 0x01804000
/-- Station status table. -/
abbrev status : Nat := 0x01808000
/-- Exchange memory. -/
abbrev exch : Nat := 0x01880000
/-- Timer cells (08 R273). -/
abbrev cells : Nat := 0x01900000
/-- CAN message memory of controller `n`. -/
abbrev can (n : Nat) : Nat := 0x01A00000 + n * 0x4000
/-- Pantry. -/
abbrev pantry : Nat := 0x02000000
/-- Keep window. -/
abbrev keep : Nat := 0x03000000
/-- Instruction memories (01 R26): word `w` of half `h` of core `c`. -/
abbrev instr (c h w : Nat) : Nat := 0x04000000 + c * 0x20000 + h * 0x10000 + 4 * w
/-- Service RAM. -/
abbrev sram : Nat := 0x05000000
/-- The event log ring (02 R72). -/
abbrev ring : Nat := 0x050FC000
/-- Scratch of core `c` (01 R25). -/
abbrev scratch (c : Nat) : Nat := 0x1_00000000 + c * 0x2000
/-- Constant bank of half `h` of lane `p` (01 R25). -/
abbrev const (p h : Nat) : Nat := 0x1_10000000 + p * 0x2000 + h * 0x1000
/-- Receive buffer (07 R247). -/
abbrev recv : Nat := 0x1_20000000
/-- Publish buffer (06 R193). -/
abbrev publish : Nat := 0x1_20010000
/-- Pending status entries (07 R245). -/
abbrev pendStat : Nat := 0x1_20020000
/-- Graft map (09 R298). -/
abbrev map : Nat := 0x1_20100000
/-- MSI-X table and pending bits (18 R548). -/
abbrev msix : Nat := 0x1_20200000
/-- CONF of this station (10 R325). -/
abbrev conf : Nat := 0x1_20210000
/-- OUT segment accepted, IN segment sent last, OUT segment applied last (10 R337, R350). -/
abbrev outSeg : Nat := 0x1_20220000
abbrev inSeg : Nat := 0x1_20230000
abbrev appSeg : Nat := 0x1_20240000
/-- QSPI flash (18 R557). -/
abbrev flash : Nat := 0x2_00000000

end Key

/-! ## Access by key -/

/-- What a byte reads as that nothing has written (log 6). -/
def memDefault (_ : Nat) : Byte := 0
/-- The canonical form of memory: addresses strictly rising, no entry equal to what an unlisted address reads as. -/
def Memory.wf (m : List Host.Cell) : Bool := Sparse.wf memDefault m

namespace State

/-- Register `k` as stored. -/
def reg (s : State) (k : Nat) : Word := Sparse.get regReset s.regs k
/-- Register `k` stored. -/
def setReg (s : State) (k : Nat) (v : Word) : State := { s with regs := Sparse.set regReset s.regs k v }
/-- Byte `k` of memory. -/
def rd (s : State) (k : Nat) : Byte := Sparse.get memDefault s.mem k
/-- Byte `k` of memory stored. -/
def wr (s : State) (k : Nat) (v : Byte) : State := { s with mem := Sparse.set memDefault s.mem k v }

/-- The `n` bytes from `k` on as a number, the first byte the lowest (07 R243). -/
def rdLE (s : State) (k : Nat) : Nat → Nat
  | 0 => 0
  | n + 1 => (s.rd k).toNat + 256 * s.rdLE (k + 1) n
/-- The `n` low bytes of `v` written from `k` on, the lowest first. -/
def wrLE (s : State) (k : Nat) : Nat → Nat → State
  | 0, _ => s
  | n + 1, v => (s.wr k (BitVec.ofNat 8 v)).wrLE (k + 1) n (v / 256)
/-- The `n` bytes from `k` on. -/
def rdBytes (s : State) (k n : Nat) : List Byte := (List.range n).map fun i => s.rd (k + i)
/-- Bytes written from `k` on. -/
def wrBytes (s : State) (k : Nat) : List Byte → State
  | [] => s
  | b :: t => (s.wr k b).wrBytes (k + 1) t
/-- Clear the memory keys from `lo` up to `hi`. -/
def clearMem (s : State) (lo hi : Nat) : State := { s with mem := Sparse.clear s.mem lo hi, ecc := Sparse.clear s.ecc lo hi }
/-- Copy `n` bytes of memory. -/
def copyMem (s : State) (src dst n : Nat) : State := { s with mem := Sparse.copy memDefault s.mem src dst n }

/-- Core `c`. -/
def core (s : State) (c : Nat) : CoreSt := Sparse.get (fun _ => {}) s.cores c
def setCore (s : State) (c : Nat) (v : CoreSt) : State := { s with cores := Sparse.set (fun _ => {}) s.cores c v }
/-- Context `x` of core `c`. -/
def ctx (s : State) (c x : Nat) : Ctx := Sparse.get (fun _ => {}) s.ctxs (c * 8 + x)
def setCtx (s : State) (c x : Nat) (v : Ctx) : State := { s with ctxs := Sparse.set (fun _ => {}) s.ctxs (c * 8 + x) v }
/-- The current context of core `c`. -/
def cx (s : State) (c : Nat) : Ctx := s.ctx c (s.core c).cur
def setCx (s : State) (c : Nat) (v : Ctx) : State := s.setCtx c (s.core c).cur v

end State

/-! ## Fields of words -/

/-- Bits [hi:lo] of a word as a number. -/
def fld (w : Word) (hi lo : Nat) : Nat := w.toNat / 2 ^ lo % 2 ^ (hi + 1 - lo)

/-- The word with bits [hi:lo] set to `v` modulo the field's size. -/
def setFld (w : Word) (hi lo v : Nat) : Word :=
  let m := (2 ^ (hi + 1 - lo) - 1) * 2 ^ lo
  (w &&& ~~~ BitVec.ofNat 32 m) ||| BitVec.ofNat 32 (v % 2 ^ (hi + 1 - lo) * 2 ^ lo)

/-- A Bool as a number. -/
abbrev bn (b : Bool) : Nat := if b then 1 else 0

namespace State

/-- Bits [hi:lo] of register `k`. -/
def rf (s : State) (k hi lo : Nat) : Nat := fld (s.reg k) hi lo
def setRf (s : State) (k hi lo v : Nat) : State := s.setReg k (setFld (s.reg k) hi lo v)
/-- Bit `i` of register `k`. -/
def rb (s : State) (k i : Nat) : Bool := s.rf k i i == 1
def setRb (s : State) (k i : Nat) (b : Bool) : State := s.setRf k i i (bn b)
/-- The 64-bit value of registers `k` and `k + 4`. -/
def reg64 (s : State) (k : Nat) : Nat := (s.reg k).toNat + 2 ^ 32 * (s.reg (k + 4)).toNat
def setReg64 (s : State) (k v : Nat) : State := (s.setReg k (BitVec.ofNat 32 v)).setReg (k + 4) (BitVec.ofNat 32 (v / 2 ^ 32))

/-- Count `n` more in counter `k`, wrapping at 2^32, in the hidden counter while its page is frozen (02 R55). -/
def count (s : State) (k n : Nat) : State :=
  let p := (k - 0x01000000) / 0x1000
  if (pageInfo p).counters && s.rb (Reg.PAGE_CTRL p) 3 then
    { s with hidden := Sparse.set (fun _ => 0) s.hidden k (Sparse.get (fun _ => 0) s.hidden k + BitVec.ofNat 32 n) }
  else s.setReg k (s.reg k + BitVec.ofNat 32 n)

/-- A counter of one, the usual case. -/
abbrev bump (s : State) (k : Nat) : State := s.count k 1

/-- PAGE_STAT.WIGN of page `p` set (02 R53). -/
def wign (s : State) (p : Nat) : State := s.setRb (Reg.PAGE_STAT p) 3 true

end State
end Sys2Proof.Machine
end

