-- ==== Sys2Proof/Machine/Ops.lean ====
section
/-! DEFINITION. The named operations every block uses: mode and power queries, network time, events and their routing,
the checks of an access, free values, the mapping of scan lanes. -/

-- one declaration at a time: many at once take a thread and its stack each
set_option Elab.async false

namespace Sys2Proof.Machine

/-! ## Modes (03 R82) -/

namespace Mode
abbrev backup : Nat := 0
abbrev boot : Nat := 1
abbrev service : Nat := 2
abbrev config : Nat := 3
abbrev stop : Nat := 4
abbrev run : Nat := 5
abbrev hold : Nat := 6
abbrev safeHalt : Nat := 7
abbrev syncing : Nat := 8
abbrev tracking : Nat := 9
abbrev stnRun : Nat := 10
abbrev stnSafe : Nat := 11
end Mode

namespace State

/-- The measurement window of the RTC in progress is to be discarded (19 R584). -/
def voidTrim (s : State) : State := { s with bgd := { s.bgd with voided := true } }

/-- The mode code of SYS_MODE (03 R82). -/
def mode (s : State) : Nat := s.rf Reg.SYS_MODE 3 0
/-- SYS_MODE.STBY (03 R85). -/
def stby (s : State) : Bool := s.rb Reg.SYS_MODE 4
/-- Whether the mode is one of those listed. -/
def modeIn (s : State) (l : List Nat) : Bool := l.contains s.mode
/-- The ROLE strap: this device is a station (03 R102). -/
def isStn (s : State) : Bool := s.rb Reg.SYS_STRAPS 1

/-- PWR_STATd.STATE of a domain (03 R118). -/
def domState (s : State) (d : Nat) : Nat := s.rf (Reg.PWR_STAT d) 2 0
/-- Domain `d` is ON. -/
def domOn (s : State) (d : Nat) : Bool := s.domState d == 2

/-! ## Network time (12 R391) -/

/-- Network time in ns since the time-base epoch, modulo 2^64 (12 R392). -/
def netT (s : State) : Nat := (s.tim.sec * 1000000000 + s.tim.ns) % 2 ^ 64
/-- Network time in µs. -/
def netUs (s : State) : Nat := (s.tim.sec * 1000000000 + s.tim.ns) / 1000

/-- The time base waits for its load from the RTC: until then SEC and NS read 0 and it runs from 0 (12 R400). -/
def timFresh (s : State) : State := { s with tim := {} }

/-! ## Free values (log 3) -/

/-- A free value of 32 bits, and the state after it has been taken. -/
def free (s : State) : Word × State := ((Config.freeValue s.freeCtr).setWidth 32, { s with freeCtr := s.freeCtr + 1 })
/-- A free value of 64 bits. -/
def free64 (s : State) : DWord × State := (Config.freeValue s.freeCtr, { s with freeCtr := s.freeCtr + 1 })

/-- `l` with every byte a free value. -/
def freeBytes (s : State) : List Byte → List Byte × State
  | [] => ([], s)
  | _ :: t => let f := s.free; let r := f.2.freeBytes t; (f.1.setWidth 8 :: r.1, r.2)

/-! ## Output -/

/-- An item leaves the device. -/
def send (s : State) (t : TxItem) : State := { s with wire := s.wire ++ [t] }

/-! ## Slots of event tasks (06 R210, R211) -/

/-- Slot `n` of the active set is enabled and names event `e`. -/
def slotNames (s : State) (e n : Nat) : Bool :=
  s.rb (Reg.SCN_SLOT_CFG n) 15 && decide (s.rf (Reg.SCN_SLOT_CFG n) 31 24 = e)

/-- An occurrence of source `e` offered to slot `n`: it becomes pending, or is counted where it already is (06 R211). -/
def offerSlot (e : Nat) (detail : Word) (seq : Half) (n : Nat) (s : State) : State :=
  if s.slotNames e n then
    if s.evt.slots.any (·.1 == n) then s.bump Reg.EVT_TASK_OVR
    else { s with evt := { s.evt with slots := s.evt.slots ++ [(n, BitVec.ofNat 8 e, detail, seq)] } }
  else s

/-- An occurrence routed with TASK = 1 reaches the dispatcher (06 R211, R217). -/
def offerTask (s : State) (e : Nat) (detail : Word) (seq : Half) : State :=
  if s.modeIn [Mode.run, Mode.stnRun, Mode.hold] then
    (List.range 32).foldl (fun t n => t.offerSlot e detail seq n) s
  else s

/-! ## Events (02 R67–R70) -/

/-- The log record of an occurrence (02 R74, R76). -/
def logRec (s : State) (e : Nat) (detail : Word) (seq : Half) : LogRec :=
  let on := s.domOn 9
  { source := BitVec.ofNat 8 e
    flags := BitVec.ofNat 8 ((if on then bn (s.rb Reg.TIM_STAT 0) else 1) + 16 * (s.rf Reg.SYS_GEN 3 0))
    seq := seq
    time := if on then BitVec.ofNat 64 s.netT else 0
    detail := detail }

/-- Destination log input queue. -/
def toLog (s : State) (r : LogRec) : State :=
  if s.evt.logq.length < 64 then { s with evt := { s.evt with logq := s.evt.logq ++ [r] } } else s.bump Reg.EVT_LOG_DROP

/-- Destination Steward queue. -/
def toSteward (s : State) (e : Nat) (seq : Half) : State :=
  if s.evt.stwq.length < 8 then { s with evt := { s.evt with stwq := s.evt.stwq ++ [(BitVec.ofNat 8 e, seq)] } }
  else s.bump Reg.EVT_STW_OVF

/-- Destination MSI-X vector: a message waits on it, one at most. -/
def toMsix (s : State) (vec : Nat) : State := { s with evt := { s.evt with msix := s.evt.msix ||| BitVec.ofNat 32 (2 ^ vec) } }

/-- A forwarded occurrence takes a sequence number and goes to every destination of its route entry (02 R69–R71). -/
def forward (s : State) (e : Nat) (detail : Word) : State :=
  let seq := Sparse.get (fun _ => 0) s.evt.next e
  let s := { s with evt := { s.evt with next := Sparse.set (fun _ => 0) s.evt.next e (seq + 1), last := Sparse.set (fun _ => 0) s.evt.last e seq } }
  let r := s.reg (Reg.EVT_ROUTE e)
  let s := if fld r 0 0 = 1 then s.toLog (s.logRec e detail seq) else s
  let s := if fld r 1 1 = 1 then s.toSteward e seq else s
  let s := if fld r 2 2 = 1 then s.offerTask e detail seq else s
  if fld r 3 3 = 1 then s.toMsix (fld r 8 4) else s

/-- An occurrence of source `e` (02 R67): it sets its EVT_RAW bit, and is forwarded where its EVT_MASK bit is 1. The router and the EVT_RAW bits lie in
the core domain, which a stopped core clock stops (03 R124). -/
def raise (s : State) (e : Nat) (detail : Nat) : State :=
  if !s.pwr.coreRun then s
  else
  let p := evPage e
  let i := e - (pageInfo p).ev
  let s := s.setRb (Reg.EVT_RAW p) i true
  if s.rb (Reg.EVT_MASK p) i then s.forward e (BitVec.ofNat 32 detail) else s

/-- An occurrence whose DETAIL the spec does not give: a free value (log 10). -/
def raiseFree (s : State) (e : Nat) : State := let f := s.free; f.2.raise e f.1.toNat

/-! ## Scan lanes and physical lanes (01 R23, 06 R240) -/

/-- The physical lane that serves scan lane `k`. -/
def physOf (s : State) (k : Nat) : Nat := s.rf (Reg.BUN_MAP (k / 16) (k % 16)) 6 0
/-- The scan lane number of physical lane `p`, if it serves one. -/
def scanOf (s : State) (p : Nat) : Option Nat :=
  ((List.range 16).find? fun i => s.rf (Reg.BUN_MAP (p / 17) i) 6 0 == p).map fun i => 16 * (p / 17) + i
/-- ROLE of scan lane `k` in the active segment map: 0 unused, 1 solving, 2 event (06 R238). -/
def laneRole (s : State) (k : Nat) : Nat := s.rf (Reg.SCN_SEGMAP k) 15 14
/-- ENTRY of scan lane `k`. -/
def laneEntry (s : State) (k : Nat) : Nat := s.rf (Reg.SCN_SEGMAP k) 13 0
/-- The scan lanes with a role, in rising number. -/
def lanesWith (s : State) (role : Nat) : List Nat := (List.range 64).filter fun k => s.laneRole k == role
/-- The active instruction half, 0 for A, 1 for B (01 R24). -/
def activeHalf (s : State) : Nat := bn s.grf.half
/-- Exchange the halves (01 R24, 09 R306). -/
def swapHalves (s : State) : State := { s with grf := { s.grf with half := !s.grf.half } }

/-! ## Agents and the checks of an access (02 R43, R44, R57, R629) -/

/-- The rights bits of OWNER that an agent needs: read, write (02 R53, R56). -/
def rightBits : Agent → Nat × Nat
  | .host | .debug => (0, 1)
  | .svc _ => (2, 3)
  | .steward => (4, 5)

/-- The agent code of EVT_BADINFO (02 R79). -/
def agentInfo : Agent → Nat
  | .host => 0
  | .svc _ => 1
  | .steward => 2
  | .debug => 3

/-- The bank of a banked register an agent sees (16 R502, 18 R558). -/
def bankOf : Agent → Nat
  | .host | .debug => 0
  | .svc _ => 1
  | .steward => 2

/-- The number under which an agent's buffers are kept; a lane context `x` of core `c` has `8 + 8 * c + x` (00 R8). R8 does not list the debug access
port: that it has buffers of its own is a DESIGN CHOICE (log 16). -/
def agentNum : Agent → Nat
  | .host => 0
  | .debug => 1
  | .svc i => 2 + i.val
  | .steward => 6

/-- What an address names (02 R42): a page and the offset in it, or a memory region with its power domain and the page whose
OWNER governs it; `stone` where only the Steward has access (01 R26). -/
structure Region where
  page : Nat
  dom : Nat
  isPage : Bool
  stone : Bool := false
  deriving DecidableEq, Repr

/-- The region of an address, none outside every region (02 R42). -/
def region (a : Nat) : Option Region :=
  if 0x01000000 ≤ a ∧ a < 0x01025000 then
    let p := (a - 0x01000000) / 0x1000
    some ⟨p, (pageInfo p).dom, true, false⟩
  else if 0x01800000 ≤ a ∧ a < 0x01808400 then some ⟨0x09, 8, false, false⟩
  else if 0x01880000 ≤ a ∧ a < 0x01882000 then some ⟨0x09, 8, false, false⟩
  else if 0x01900000 ≤ a ∧ a < 0x01908000 then some ⟨0x0B, 8, false, false⟩
  else if 0x01A00000 ≤ a ∧ a < 0x01A10000 ∧ (a - 0x01A00000) % 0x4000 < 10240 then some ⟨0x11 + (a - 0x01A00000) / 0x4000, 11, false, false⟩
  else if 0x02000000 ≤ a ∧ a < 0x02400000 then some ⟨0x09, 8, false, false⟩
  else if 0x03000000 ≤ a ∧ a < 0x03200000 then some ⟨0x17, 13, false, false⟩
  else if 0x04000000 ≤ a ∧ a < 0x04920000 then
    let c := (a - 0x04000000) / 0x20000
    if c < 68 then some ⟨5 + c / 17, if (a - 0x04000000) % 0x20000 < 0x10000 then 6 else 7, false, false⟩
    else some ⟨0x00, 1, false, decide (c = 72)⟩
  else if 0x05000000 ≤ a ∧ a < 0x05100000 then some ⟨0x00, 1, false, false⟩
  else none

/-- ADDR_ERR of an access outside every region or to an unused offset (02 R43, R80). -/
def badAddr (s : State) (ag : Agent) (a : Nat) (w : Bool) : State :=
  ((s.setReg Reg.EVT_BADADDR (BitVec.ofNat 32 a)).setReg Reg.EVT_BADINFO
    (BitVec.ofNat 32 (2 ^ 31 + 4 * bn w + agentInfo ag))).raise 6 a

/-- ACCESS_DENIED of an access that OWNER denies (02 R57, R80). -/
def denied (s : State) (ag : Agent) (a : Nat) (w : Bool) : State :=
  ((s.setReg Reg.EVT_DENY (BitVec.ofNat 32 a)).setReg Reg.EVT_DENYINFO
    (BitVec.ofNat 32 (2 ^ 31 + 4 * bn w + agentInfo ag))).raise 7 a

/-- The host, while the device boots from it and Stone has not yet set OWNER at step 10 (03 R113); a boot that has failed never gets there (R108). -/
def bootWindow (s : State) (ag : Agent) : Bool :=
  s.rb Reg.SYS_STRAPS 3 && s.mode == Mode.boot && (decide (s.rf Reg.SYS_BOOTSTAT 3 0 < 10) || s.rf Reg.SYS_BOOTSTAT 3 0 == 15) && ag == .host

/-- The host-boot accesses that the hardware grants until step 10 whatever OWNER holds, and it grants the host no others then (03 R113). -/
def bootGrant (s : State) (ag : Agent) (a : Nat) (w : Bool) : Bool :=
  s.bootWindow ag &&
    ((decide (0x05000000 ≤ a) && decide (a < 0x050F0000)) || (a / 4 * 4 == Reg.SYS_HOSTBOOT) ||
      (!w && ((a % 0x1000 / 4 == 0 && decide (0x01000000 ≤ a) && decide (a < 0x01025000)) || a / 4 * 4 == Reg.SYS_MODE
        || a / 4 * 4 == Reg.SYS_BOOTSTAT || a / 4 * 4 == Reg.SYS_STRAPS)))

/-- PAGE_ID, PAGE_CAP and OWNER are readable whatever OWNER grants (02 R53). -/
def freeRead (a : Nat) : Bool := [0x00, 0x04, 0x24].contains (a % 0x1000 / 4 * 4)

/-- How the checks of 02 R629 end: the access goes on, or it has made its record and reads 0. -/
inductive Check where
  | pass
  | stop (s : State)

/-- The checks of an access in the order of 02 R629: power (R44, 01 R37), OWNER (R57), unused offset (R43); an address outside
every region follows R43 directly. The debug access port is refused everything while DBG_LOCK is blown (18 R570). While the core clock stands still,
nothing answers an access (03 R124, 15 R479). -/
def check (s : State) (ag : Agent) (a : Nat) (w : Bool) : Check :=
  if !s.pwr.coreRun then .stop s
  else match region a with
  | none => .stop (s.badAddr ag a w)
  | some r =>
    if !s.domOn r.dom then .stop (s.wign 1)
    else
      let ok := bootGrant s ag a w || (!s.bootWindow ag && !(ag == .debug && s.rb Reg.FUS_CTRL 1) &&
        (if r.stone then ag == .steward
         else (r.isPage && !w && freeRead a) ||
           s.rb (Reg.OWNER r.page) (if w then (rightBits ag).2 else (rightBits ag).1)))
      if !ok then .stop (s.denied ag a w)
      else if r.isPage && (target r.page (a % 0x1000 / 4 * 4)).isNone then .stop (s.badAddr ag a w)
      else .pass

/-- Do `f` where the checks of a write to `a` pass. -/
def guarded (s : State) (ag : Agent) (a : Nat) (f : State → State) : State :=
  match s.check ag a true with
  | .pass => f s
  | .stop t => t

/-- A read that a check stops returns 0 (02 R43, R44, R57); otherwise `f` reads and answers the value that the agent sees (log 8). -/
def guardedRd (s : State) (ag : Agent) (a : Nat) (f : State → DWord × State) : State :=
  match s.check ag a false with
  | .pass => let r := f s; { r.2 with rdata := r.1 }
  | .stop t => { t with rdata := 0 }

/-- Words latched from address `a` on in the read buffer of agent number `n` (00 R8, R9). -/
def latchWords (s : State) (n a : Nat) : List Word → State
  | [] => s
  | w :: t => { s with rbuf := Sparse.set regReset s.rbuf (n * 2 ^ 32 + a) w }.latchWords n (a + 4) t

/-- Bytes of service RAM from offset `o` on, offsets counted modulo 1 MiB. -/
def sramRd (s : State) (o n : Nat) : List Byte := (List.range n).map fun i => s.rd (Key.sram + (o + i) % 0x100000)

/-- Bytes stored in service RAM. -/
def sramWr (s : State) (o : Nat) : List Byte → State
  | [] => s
  | b :: t => (s.wr (Key.sram + o % 0x100000) b).sramWr (o + 1) t

/-- SERVICE lets host and service-lane writes reach only SYS, HST, SVC, UPD, KEEP and RTC (03 R83). -/
def serviceOk (s : State) (ag : Agent) (page : Nat) : Bool :=
  s.mode != Mode.service || ag == .steward || [0x00, 0x19, 0x1A, 0x1B, 0x17, 0x18].contains page

end State
end Sys2Proof.Machine
end

