-- ==== Sys2Proof/Machine/RindDie.lean ====
section
/-! DEFINITION. The Rind die: outputs, safe state, start and stop (14 R455–R472), the FAULT bit, the frames that wait on the link. -/

-- one declaration at a time: many at once take a thread and its stack each
set_option Elab.async false

namespace Sys2Proof.Machine

/-- Bit `i` of a word. -/
def getB (w : Word) (i : Nat) : Bool := fld w i i == 1
/-- The word with bit `i` set to `b`. -/
def putB (w : Word) (i : Nat) (b : Bool) : Word := setFld w i i (bn b)

namespace State

/-- RND PAGE_CTRL.EN. -/
def rndEn (s : State) : Bool := s.rb (Reg.PAGE_CTRL 0x15) 0
/-- The configuration of channel `c` that the Rind holds (14 R453). -/
def rindCfg (s : State) (c : Nat) : Word := Sparse.get (fun _ => 0) s.rind.cfg c
/-- Channel `c` is a started output. -/
def rindIsOut (s : State) (c : Nat) : Bool := getB s.rind.ch c && getB (s.rindCfg c) 0

/-- A frame waits on the link, each once; a frame that has not started carries the latest values (14 R457, R462). Nothing is sent while EN = 0. -/
def rndPush (s : State) (f : RindFrame) : State :=
  if s.rndEn && !s.rndQ.contains f then { s with rndQ := s.rndQ ++ [f] } else s
/-- The whole configuration waits (14 R455). -/
def rndPushAll (s : State) : State := (List.range 9).foldl (fun t k => t.rndPush (.config k)) s

/-! ## Outputs (14 R459, R460) -/

/-- A command to output `c`: off starts its demagnetisation; on waits for the end of one in progress and is counted (14 R460). -/
def rindDrive (s : State) (c : Nat) (v : Bool) : State :=
  let r := s.rind
  if v then
    if getB r.demag c then
      if getB r.defer c then s
      else { s with rind := { r with defer := putB r.defer c true } }.bump Reg.RND_DEFER_CNT
    else { s with rind := { r with out := putB r.out c true } }
  else
    { s with
      rind := { r with
        out := putB r.out c false, demag := putB r.demag c (getB r.demag c || getB r.out c), defer := putB r.defer c false,
        limit := putB r.limit c false } }

/-- Channel `c` begins to turn off (14 R455): its output with demagnetisation, its sampling at once. -/
def chanDown (s : State) (c : Nat) : State :=
  let s := s.rindDrive c false
  { s with rind := { s.rind with ch := putB s.rind.ch c false } }

/-- The safe value of output `c` (14 R467); SAFE = 3 is a host error whose value is free (14 R478). -/
def rindSafeVal (s : State) (c : Nat) : Bool × State :=
  match fld (s.rindCfg c) 3 2 with
  | 0 => (false, s)
  | 1 => (true, s)
  | 2 => (getB s.rind.app c, s)
  | _ => let f := s.free; (fld f.1 0 0 == 1, f.2)

/-- Every started output takes its safe value (14 R467). -/
def rindSafeAll (s : State) : State :=
  (List.range 32).foldl (fun t c => if t.rindIsOut c then (let v := t.rindSafeVal c; v.2.rindDrive c v.1) else t) s

/-- Entry into the safe state (14 R466): 1 SAFE frame, 2 timeout, 3 start. -/
def rindEnter (s : State) (cause : Nat) : State :=
  let s := { s with rind := { s.rind with safe := true, wait := false, refSafe := true } }
  ((s.bump Reg.RND_SAFE_CNT).raise 161 cause).rindSafeAll

/-- The Rind starts (14 R466, R467): nothing has been applied yet. -/
def rindStart (s : State) : State :=
  { s with rind := { s.rind with on := s.rndEn, ch := s.rind.chOn, app := 0, tag := 0, runs := [], inst := 0 } }.rindEnter 3

/-- Every output turns off with demagnetisation and sampling stops (14 R455, 03 R119). -/
def rindStop (s : State) : State :=
  let s := (List.range 32).foldl (fun t c => t.rindDrive c false) s
  { s with rind := { s.rind with on := false, refr := none } }

/-- Undervoltage, or power gone: every output off, without a demagnetisation guarantee (14 R472); what the die held is lost. -/
def rindDrop (s : State) : State :=
  { s with
    rind := { s.rind with
      on := false, safe := false, wait := false, cfg := [], ch := 0, refr := none, out := 0, app := 0, demag := 0, defer := 0,
      therm := 0, limit := 0, inst := 0, runs := [], tag := 0, trim := [] } }

/-! ## The fault bit (14 R474) -/

/-- A cause of FAULT holds. -/
def rndCause (s : State) : Bool := s.rind.flt || (s.rndEn && (s.rind.lost || !s.domOn 14))

/-- FAULT is set while a cause holds; event 160 when it goes from 0 to 1. -/
def rndFault (s : State) : State :=
  if s.rndCause && !s.rb Reg.RND_STAT 0 then
    let s := s.setRb Reg.RND_STAT 0 true
    s.raise 160 (s.rf Reg.RND_STAT 2 0)
  else s

end State
end Sys2Proof.Machine
end

