-- ==== Sys2Proof/Machine/Wire.lean ====
section
/-! DEFINITION. What leaves the device on its links: Vuvas frames (10 R317–R326) and twin records (11 R358, R359); the lead and the epoch (11 R361). -/

-- one declaration at a time: many at once take a thread and its stack each
set_option Elab.async false

namespace Sys2Proof.Machine.State

/-! ## The lead (11 R361) and the schedule (06 R192) -/

/-- This twin holds the lead. -/
def lead (s : State) : Bool := s.rb Reg.TWN_STAT 1
def setLead (s : State) (b : Bool) : State := s.setRb Reg.TWN_STAT 1 b
/-- The current epoch (TWN_STAT.EPOCH). -/
def epoch (s : State) : Nat := s.rf Reg.TWN_STAT 31 16
def setEpoch (s : State) (e : Nat) : State := s.setRf Reg.TWN_STAT 31 16 e
/-- The twin link works: PAGE_CTRL.EN of TWN (11 R356) with PD12 ON, in a mode in which 03 R82 does not put it off, with the core clock running (15 R479). -/
def twnOn (s : State) : Bool :=
  s.rb (Reg.PAGE_CTRL 0x0E) 0 && s.domOn 12 && !s.modeIn [Mode.backup, Mode.boot, Mode.service] && s.pwr.coreRun
/-- The partner is in STANDBY-TRACKING, as its heartbeats say. -/
def partnerTracking (s : State) : Bool := s.twnOn && s.rb Reg.TWN_STAT 0 && s.rf Reg.TWN_STAT 7 4 == Mode.tracking
/-- UNIT_ID strap (11 R356). -/
def unitB (s : State) : Bool := s.rb Reg.SYS_STRAPS 0

/-- SCN_PERIOD in ns. -/
def periodNs (s : State) : Nat := s.rf Reg.SCN_PERIOD 19 0 * 1000
/-- The number of the cycle whose boundary is the last at or before network time `t`, none before the origin or with a period that fails
check 1 (06 R192, R198). -/
def cycleAt (s : State) (t : Nat) : Option Nat :=
  let o := s.reg64 Reg.SCN_ORIGIN_LO
  if t < o ∨ s.periodNs < 50000 ∨ 1000000000 < s.periodNs then none else some ((t - o) / s.periodNs)
/-- t_n (06 R192). -/
def boundaryAt (s : State) (n : Nat) : Nat := s.reg64 Reg.SCN_ORIGIN_LO + n * s.periodNs
/-- T_apply of cycle `n` (06 R193). -/
def applyAt (s : State) (n : Nat) : Nat := s.boundaryAt n + s.rf Reg.SCN_APPLY_OFS 19 0 * 1000

/-! ## Twin records (11 R358, R359) -/

/-- A record of the twin link: header, payload, CRC-32C. -/
def twnBytes (type flags seq addr : Nat) (payload : List Byte) : List Byte :=
  let body := leBytes 1 type ++ leBytes 1 flags ++ leBytes 2 seq ++ leBytes 4 addr ++ payload
  body ++ leBytes 4 (crc32c body).toNat

/-- A record is sent while PD12 is ON and EN = 1 and the link is up; SEQ is the cycle number's low 16 bits. -/
def twnSend (s : State) (type flags addr : Nat) (payload : List Byte) : State :=
  if s.twnOn && s.rb Reg.TWN_STAT 0 then s.send (.twin (twnBytes type flags s.scn.cyc addr payload)) else s

/-- A CMD record. -/
def twnCmd (s : State) (code a1 : Nat) (a64 : Nat) : State :=
  s.twnSend 0x09 0 0 (leBytes 1 code ++ leBytes 3 a1 ++ leBytes 8 a64 ++ leBytes 4 0)

/-! ## Vuvas frames (10) -/

/-- The page of ETHn. -/
abbrev ethPage (n : Nat) : Nat := 0x1E + n
/-- The MAC is on (12 R426). -/
def ethOn (s : State) (n : Nat) : Bool := s.rb (Reg.PAGE_CTRL (ethPage n)) 0 && s.rb (Reg.PAGE_STAT (ethPage n)) 0 && s.domOn 9

/-- The port of a network. -/
def netPort (s : State) (n : Net) : Nat := match n with | .a => s.rf Reg.VUV_CFG 3 2 | .b => s.rf Reg.VUV_CFG 5 4
/-- A Vuvas network is enabled and the engine on (10 R317, 02 R53). -/
def netOn (s : State) (n : Net) : Bool :=
  s.pwr.coreRun && s.rb (Reg.PAGE_CTRL 0x0D) 0 && s.rb Reg.VUV_CFG (match n with | .a => 0 | .b => 1) && s.ethOn (s.netPort n)
/-- Port `n` is a Vuvas port (10 R317). -/
def vuvPort (s : State) (n : Nat) : Bool := (s.netOn .a && s.netPort .a == n) || (s.netOn .b && s.netPort .b == n)
/-- Both networks are enabled on one port: a host error (10 R355). -/
def netClash (s : State) : Bool := s.rb Reg.VUV_CFG 0 && s.rb Reg.VUV_CFG 1 && s.netPort .a == s.netPort .b

/-- A frame recognised as PTP (12 R402). -/
def isPtp (s : State) (n : Nat) (f : List Byte) : Bool :=
  let t := etherType f
  s.rb (Reg.ETH_TSCFG n) 0 &&
    ((s.rb (Reg.ETH_TSCFG n) 1 && t.1 == 0x88F7) ||
      (s.rb (Reg.ETH_TSCFG n) 2 && t.1 == 0x0800 && byteAt f t.2 / 16 == 4 && byteAt f (t.2 + 9) == 17 &&
        (let p := ofBE (sub f (t.2 + byteAt f t.2 % 16 * 4 + 2) 2); p == 319 || p == 320)))

/-- Port `n` accepts the frame by its destination: the port's own address, a group address, or every frame with PROMISC (12 R427). -/
def portTakes (s : State) (n : Nat) (f : List Byte) : Bool :=
  byteAt f 0 % 2 == 1 || sub f 0 6 == beBytes 2 (s.rf (Reg.ETH_MACADDR_HI n) 15 0) ++ beBytes 4 (s.reg (Reg.ETH_MACADDR_LO n)).toNat || s.rb (Reg.ETH_MODE n) 7

/-- The Vuvas part of a frame, from its destination address on: behind the EtherType of VUV_ETYPE, with or without one tag (10 R318). -/
def vuvPart (s : State) (f : List Byte) : Option (List Byte) :=
  let t := etherType f
  if t.1 = s.rf Reg.VUV_ETYPE 15 0 then some (f.drop t.2) else none

/-- A segment (10 R322). -/
def segBytes (addr sflags : Nat) (data : List Byte) : List Byte := leBytes 1 addr ++ leBytes 1 sflags ++ beBytes 2 data.length ++ data

/-- A Vuvas part (10 R320–R323): header, segments, trailer, padded to 46 bytes. -/
def vuvBytes (type flags src epoch seq time : Nat) (segs : List (List Byte)) : List Byte :=
  let body := leBytes 1 1 ++ leBytes 1 type ++ leBytes 1 flags ++ leBytes 1 src ++ beBytes 2 epoch ++ beBytes 2 seq ++ beBytes 8 time
    ++ leBytes 1 segs.length ++ List.replicate 7 0 ++ segs.flatten
  let f := body ++ beBytes 4 (crc32c body).toNat
  f ++ List.replicate (46 - f.length) 0

/-- The Ethernet header of a Vuvas frame on network `n` (10 R318, R353). -/
def vuvHead (s : State) (n : Net) : List Byte :=
  let p := s.netPort n
  let dst := if s.isStn then beBytes 2 (s.rf Reg.VUV_MCAST_S_HI 15 0) ++ beBytes 4 (s.reg Reg.VUV_MCAST_S_LO).toNat
    else beBytes 2 (s.rf Reg.VUV_MCAST_C_HI 15 0) ++ beBytes 4 (s.reg Reg.VUV_MCAST_C_LO).toNat
  let src := beBytes 2 (s.rf (Reg.ETH_MACADDR_HI p) 15 0) ++ beBytes 4 (s.reg (Reg.ETH_MACADDR_LO p)).toNat
  let tag := if s.rb Reg.VUV_CFG 6 then beBytes 2 0x8100 ++ beBytes 2 (s.rf Reg.VUV_VLAN 15 13 * 8192 + s.rf Reg.VUV_VLAN 11 0) else []
  dst ++ src ++ tag ++ beBytes 2 (s.rf Reg.VUV_ETYPE 15 0)

/-- The number of this station; VUV_STN_ADDR of 0 or above 128 is a host error after which the number is free (10 R355). -/
def stnNum (s : State) : Nat × State :=
  let n := s.rf Reg.VUV_STN_ADDR 7 0
  if 1 ≤ n ∧ n ≤ 128 then (n, s) else (let f := s.free; (f.1.toNat % 256, f.2))

/-- SRC of this device's frames: 0xF1 twin A, 0xF2 twin B, a station its number (10 R320). -/
def vuvSrc (s : State) : Nat × State := if s.isStn then s.stnNum else (if s.unitB then 0xF2 else 0xF1, s)

/-- One copy on network `n`, counted (10 R317, R352; TLM_ETH_TX 19 R589). Where both networks share a port, a free value says whether the copy
leaves (10 R355). -/
def vuvCopy (s : State) (n : Net) (type flags src epoch seq time : Nat) (segs : List (List Byte)) : State :=
  if s.netOn n then
    let f := if s.netClash then s.free else (1, s)
    if fld f.1 0 0 = 1 then
      let s := f.2
      let fl := flags + (match n with | .a => 0 | .b => 4)
      ((s.send (.vuvas n (s.vuvHead n ++ vuvBytes type fl src epoch seq time segs))).bump
        (match n with | .a => Reg.VUV_TX_A | .b => Reg.VUV_TX_B)).bump (Reg.TLM_ETH_TX (s.netPort n))
    else f.2
  else s

/-- A frame sent on both enabled networks (10 R317). -/
def vuvSend (s : State) (type flags epoch seq time : Nat) (segs : List (List Byte)) : State :=
  let c := s.vuvSrc
  (c.2.vuvCopy .a type flags c.1 epoch seq time segs).vuvCopy .b type flags c.1 epoch seq time segs

/-- SEQ of a frame other than OUT and IN: the low 16 bits of the last cycle boundary (10 R324). -/
def lastSeq (s : State) : Nat := (s.scn.lastB.getD 0) % 65536

/-- A control frame of a controller (10 R324, R326, R328): SCHED, SAFE, RELEASE, CONF, TAKE, by the twin with the lead, ACTIVE = 1. -/
def ctlSend (s : State) (type : Nat) (segs : List (List Byte)) : State := s.vuvSend type 16 s.epoch s.lastSeq s.netT segs

/-- DIVERGE raised on this twin (11 R374): event 98 and TWN_STAT.DROP. -/
def divergeRaise (s : State) (cause : Nat) : State :=
  (s.setRf Reg.TWN_STAT 15 12 cause).raise 98 (cause + 256 * (s.scn.cyc % 2 ^ 24))

/-- DIVERGE detected on this twin: raised here and sent to the partner (11 R374). -/
def divergeHere (s : State) (cause : Nat) : State :=
  { (s.divergeRaise cause).twnCmd 5 cause s.scn.cyc with twn := { s.twn with dropped := some s.scn.cyc } }

/-- The full copy stops and FC_RESTART is raised with its cause, where one runs (11 R386); it starts again at the next boundary that R383 allows. -/
def fcRestart (s : State) (cause : Nat) : State :=
  if s.rf Reg.TWN_STAT 10 8 = 0 then s
  else { (s.setRf Reg.TWN_STAT 10 8 0).raise 104 cause with twn := { s.twn with fcLines := [], closed := false } }

/-- Page `p` is one that TWN_CFGSET selects (11 R388). -/
def cfgSet (s : State) (p : Nat) : Bool := if p < 32 then s.rb Reg.TWN_CFGSET_LO p else s.rb Reg.TWN_CFGSET_HI (p - 32)

/-! ## Register writes -/

/-- The active configuration window of a page that TWN_CFGSET selects (11 R370, R386). -/
def inCfgSet (s : State) (a : Nat) : Bool :=
  decide (0x100 ≤ a % 0x1000) && decide (a % 0x1000 < 0x500) && s.cfgSet ((a - 0x01000000) / 0x1000)

/-- This twin follows or joins an active: its images, Pantry, cells and copied configuration are not written from outside (11 R370). -/
def shut (s : State) : Bool := s.modeIn [Mode.syncing, Mode.tracking] || (s.mode == Mode.hold && s.stby)

/-- The checks of a write to a register: those of 02 R629, the limit of SERVICE (03 R83), the registers that only the Steward reaches (18 R545), the
configuration of a standby (11 R370). -/
def regChecks (s : State) (ag : Agent) (a : Nat) (f : State → State) : State :=
  s.guarded ag a fun s =>
    let p := (a - 0x01000000) / 0x1000
    if !s.serviceOk ag p then s.wign p
    else match target p (a % 0x1000 / 4 * 4) with
      | some t => if (t.row.stone && ag != .steward) || (s.shut && s.inCfgSet a) then s.wign p else f s
      | none => s

/-- What a write into the active window of a copied page means to the twin: the full copy starts again (11 R386), and a RW register goes into the next
delta (11 R364). -/
def cfgNote (s : State) (a : Nat) : State :=
  if s.inCfgSet a then
    let rw := match target ((a - 0x01000000) / 0x1000) (a % 0x1000) with | some t => t.row.rw != 0 | none => false
    let s := if rw && s.lead && s.modeIn [Mode.run, Mode.hold] then { s with twn := { s.twn with cfgw := s.twn.cfgw ++ [(a, s.reg a)] } } else s
    s.fcRestart 2
  else s

/-- The bank that an agent number sees. -/
def bankNum (n : Nat) : Nat := if n < 2 then 0 else if n < 6 then 1 else 2

/-- The bytes of `v`, but those of `w` that the mask `m` names. -/
def mergeBytes (v w : Word) (m : Nat) : Word :=
  (List.range 4).foldl (fun x i => if m / 2 ^ i % 2 = 1 then setFld x (8 * i + 7) (8 * i) (fld w (8 * i + 7) (8 * i)) else x) v

/-- The staging buffer of agent number `m` for the word at `a` after a commit by agent number `n` that left the value `v`: that of `n` holds the value and
nothing written, every other one keeps what its agent has written and holds the value elsewhere (00 R12; DEDUCED, log 16). The key one above a buffer's holds
which of its bytes the agent has written. -/
def stageTake (n a : Nat) (banked : Bool) (v : Word) (l : List (Nat × Word)) (m : Nat) : List (Nat × Word) :=
  let k := m * 2 ^ 32 + a
  if m = n then Sparse.set stageReset (Sparse.set stageReset l k v) (k + 1) 0
  else if banked && bankNum m != bankNum n then l
  else Sparse.set stageReset l k (mergeBytes v (Sparse.get stageReset l k) (Sparse.get stageReset l (k + 1)).toNat)

/-- After a commit by agent number `n` to the word at `a` the staging buffers take the register's value, 0 in W1C, W1S and WO fields (00 R12, 02 R48). -/
def stageLoad (s : State) (n a : Nat) (t : Target) : State :=
  let v := s.reg (if t.row.banked then a + bankKey (bankNum n) else a) &&& BitVec.ofNat 32 t.row.rw
  { s with stage := (List.range 7).foldl (stageTake n a t.row.banked v) s.stage }

/-- A register write that has a command of its own: the checks, the effect, the staging buffer. -/
def regWrite (s : State) (ag : Agent) (a : Nat) (f : State → State) : State :=
  s.regChecks ag a fun s =>
    let s := (f s).cfgNote a
    match target ((a - 0x01000000) / 0x1000) (a % 0x1000) with
    | some t => if a = Reg.GRF_MAPDATA_HI then s else s.stageLoad (agentNum ag) a t
    | none => s

end Sys2Proof.Machine.State
end

