-- ==== Sys2Proof/Machine/Lanes.lean ====
section
/-! DEFINITION. Stopping lanes and aborting tasks, broken locks (06 R217, R637; 07 R269), and a change of mode (03 R90). -/

-- one declaration at a time: many at once take a thread and its stack each
set_option Elab.async false

namespace Sys2Proof.Machine.State

/-! ## Arbiters and their owners (07 R259, R266) -/

def arb (s : State) (id : Nat) : Arb := Sparse.get (fun _ => {}) s.arbs id
def setArb (s : State) (id : Nat) (a : Arb) : State := { s with arbs := Sparse.set (fun _ => {}) s.arbs id a }

/-- The arbiters that lane `p` holds between beats, with an open lock or a transfer that has beats left. -/
def owned (s : State) (p : Nat) : List Nat := (s.arbs.filter fun e => e.2.owner == some p).map (·.1)

/-- Lane `p` holds the arbiters `ids` and no others. -/
def ownOnly (s : State) (p : Nat) (ids : List Nat) : State :=
  let s := ((s.owned p).filter fun i => !ids.contains i).foldl (fun (t : State) i => t.setArb i { t.arb i with owner := none }) s
  ids.foldl (fun (t : State) i => t.setArb i { t.arb i with owner := some p }) s

/-- The arbiters that the open lock of lane `p`'s current context holds: its Pantry group's and its Bunch's (04 R157, 07 R266). -/
def lockOwned (s : State) (p : Nat) : List Nat :=
  match (s.cx p).lock.bind (·.group) with | some g => [0x20 + g, p / 17] | none => []

/-- A transfer of lane `p` with beats left ends, its arbiters each with a dead cycle and without a record (07 R632). -/
def dropTransfer (s : State) (p : Nat) : State := (s.count Reg.ARB_WDCNT (s.owned p).length).ownOnly p []

/-- The owning context of a locked sequence stops: the arbiter releases the lock, records it and raises LOCK_BROKEN; a dead
cycle follows at the bank arbiter and at the Bunch arbiter (07 R269). Causes: 1 lane fault, 2 overrun stop, 3 invalid-cycle stop,
4 task abort, 5 domain off. -/
def breakLock (s : State) (p x cause : Nat) : State :=
  let k := s.ctx p x
  match k.lock with
  | none => s
  | some l =>
    let s := s.setCtx p x { k with lock := none }
    match l.group with
    | none => s
    | some g =>
      let ev := 2 ^ 31 + cause * 2 ^ 24 + p * 2 ^ 16 + (p / 17) * 2 ^ 8 + (0x20 + g)
      let s := s.ownOnly p []
      (((s.setReg Reg.ARB_LBEVID (BitVec.ofNat 32 ev)).bump Reg.ARB_LBCNT).count Reg.ARB_WDCNT 2).raise 52 ev

/-- An open locked sequence ends without being broken: the arbiter is free again (07 R266, R268). -/
def endLock (s : State) (p x : Nat) : State :=
  let k := s.ctx p x
  match k.lock with
  | none => s
  | some l =>
    let s := s.setCtx p x { k with lock := none }
    match l.group with
    | none => s
    | some _ => s.ownOnly p []

/-- The last clk in which a stopped lane may issue is over (06 R637): with a breakpoint halt its lock and transfer end (07 R268), else they are broken (R269,
R632). -/
def endStop (s : State) (p : Nat) : State :=
  match (s.core p).stop with
  | none => s
  | some cause =>
    let s := s.setCore p { s.core p with stop := none, grace := 0 }
    if cause = 0 then (s.endLock p (s.core p).cur).ownOnly p [] else (s.breakLock p (s.core p).cur cause).dropTransfer p

/-- Every stopped lane's last clk is over. -/
def stopsOver (s : State) : State := (List.range 68).foldl (fun t p => t.endStop p) s

/-- The contexts of lane `p` that hold tasks, as a bit set (06 R240). -/
def taskBits (s : State) (p : Nat) : Nat :=
  (List.range 8).foldl (fun n x => if (s.ctx p x).task.isSome then n + 2 ^ x else n) 0

/-- Every task in the contexts of physical lane `p` is aborted and its slot freed; TASK_ABORT names them (06 R217, R221). -/
def abortLane (s : State) (p : Nat) : State :=
  let bits := s.taskBits p
  if bits = 0 then s
  else
    let s := (List.range 8).foldl (fun t x =>
      if (t.ctx p x).task.isSome then
        let t := t.breakLock p x 4
        t.setCtx p x { t.ctx p x with task := none, flights := [], rep := none, slot := .none, sealed := 0, beat := none }
      else t) s
    let s := s.dropTransfer p
    let s := s.setCore p { s.core p with run := .idle, held := false, grace := 0, stop := none, credit := false }
    s.raise 26 ((s.scanOf p).getD 0 + bits * 256)

/-- Every running and suspended task is aborted and every pending slot cleared (06 R217). -/
def abortTasks (s : State) : State :=
  let s := (s.lanesWith 2).foldl (fun t k => t.abortLane (t.physOf k)) s
  { s with evt := { s.evt with slots := [] } }

/-- A solving lane stops for the cycle (06 R637): its staged buffer is discarded; a lane other than the one that caused the stop
may still issue what it would have issued in the next two clk, after which its lock and transfer are broken (07 R269, R632). `cause`: that of a broken lock of a
lane that did not itself fault. -/
def stopSolving (s : State) (cause : Nat) (src : Option Nat) (k : Nat) : State :=
  let p := s.physOf k
  let c := s.core p
  if c.run = .idle then s
  else
    let on := decide (c.run = .exec ∧ src ≠ some p) && !c.held
    let s := if on then s else (s.breakLock p c.cur (if src = some p then 1 else cause)).dropTransfer p
    s.setCore p { s.core p with run := .stopped, swb := [], grace := if on then 2 else 0, stop := if on then some cause else none, held := false, credit := false }

/-- Every solving lane stops and the staged buffers are discarded; a merge in progress is abandoned (06 R218, R220, R638). -/
def stopAllSolving (s : State) (cause : Nat) (src : Option Nat) : State :=
  let s := (s.lanesWith 1).foldl (fun t k => t.stopSolving cause src k) s
  { s.setRb Reg.IMG_STAT 0 false with scn := { s.scn with merging := false } }

/-- SCN_STAT.PHASE (06 R238). -/
def setPhase (s : State) (ph : Nat) : State := s.setRf Reg.SCN_STAT 14 12 ph

/-- SYS_MODESTAT (03 R122): target, RESULT, REASON of the last request. -/
def modeStat (s : State) (target result reason : Nat) : State :=
  s.setReg Reg.SYS_MODESTAT (BitVec.ofNat 32 (target % 16 + 16 * result + 256 * reason))

/-- A request refused: SYS_MODESTAT shows it and MODE_REFUSED is raised (03 R86), with a DETAIL the spec leaves open (log 10). -/
def refuseMode (s : State) (target reason : Nat) : State := (s.modeStat target 3 reason).raiseFree 3

/-- What becomes of the pending transitions when the mode changes by row `row` to `new` (03 R89, R92): the request that brought it
is DONE, with the TARGET that it asked for, a request whose source mode has been left is refused with reason PREEMPTED, triggers whose source has been left lapse. -/
def settleRequests (s : State) (old new row : Nat) : State :=
  let req := s.sys.trans.find? (·.request)
  let s := { s with sys := { s.sys with trans := s.sys.trans.filter fun t => decide (t.src = new) && !(t.request && decide (t.row = row)) } }
  match req with
  | none => s
  | some t =>
    if t.row = row ∧ t.target = new then s.modeStat t.asked 2 0
    else if t.src = old ∧ old ≠ new then s.refuseMode t.asked 4
    else s

/-- Scan lanes as a mode in which they do not solve finds them: idle, nothing staged, no hold, no lock (03 R82). -/
def lanesIdle (s : State) : State :=
  (List.range 64).foldl (fun t k =>
    let p := t.physOf k
    let c := t.core p
    if c = {} then t
    else
      let t := ((t.endStop p).endLock p c.cur).ownOnly p []
      t.setCore p { t.core p with run := if c.run = .exec ∧ (t.taskBits p) ≠ 0 then c.run else .idle, swb := [], held := false, grace := 0, stop := none, credit := false, ovf := false }) s

/-- The scan lanes halt (06 R227, R637): the one that hit at once, each other one after what it would issue in the next two clk. A locked sequence and a
transfer of a lane that has halted end (07 R268, R632). `src`: the lane that hit, 68 or more for none. -/
def haltAll (s : State) (src : Nat) : State :=
  (List.range 64).foldl (fun t k =>
    let p := t.physOf k
    let c := t.core p
    if (c.run = .exec ∨ c.run = .atMerge) ∧ !c.held then
      let on := decide (c.run = .exec ∧ p ≠ src ∧ src < 68)
      let t := if on then t else (t.endLock p c.cur).ownOnly p []
      t.setCore p { c with held := true, grace := if on then 2 else 0, stop := if on then some 0 else none, credit := false }
    else t) s

/-- The device is held (06 R228, R231, R238): at a boundary, or with a cycle interrupted between its INPUT FREEZE and its T_apply (R232). A standby that
follows its active into HOLD runs its cycle on (11 R375). -/
def enterHold (s : State) : State :=
  if s.stby then s
  else
    let intr := !s.scn.applied
    { ((s.haltAll 68).setPhase 5).setRf Reg.SCN_HOLDSTAT 1 0 (bn (!intr)) with scn := { s.scn with interrupted := intr, hold := .none } }

/-- A lane halted in HOLD goes on where it stopped (06 R232, R235). -/
def lanesResume (s : State) : State :=
  (List.range 64).foldl (fun t k =>
    let p := t.physOf k
    let c := t.core p
    if c.held then
      let t := t.endStop p
      t.setCore p { t.core p with held := false, grace := 0, credit := false }
    else t) s

/-- The first boundary at or after now that has not been handled (06 R232). -/
def nextB (s : State) : Nat :=
  (s.cycleAt s.netT).elim 0 fun n => if s.scn.lastB.any (fun b => decide (n ≤ b)) then n + 1 else n

/-- The rest of an interrupted cycle goes on, timed from the next boundary as if it had started there (06 R232). -/
def resumeCycle (s : State) : State :=
  if s.scn.interrupted then
    let b := s.nextB
    let s := { s with scn := { s.scn with interrupted := false, tn := s.boundaryAt b, lastB := some b } }
    s.setPhase (if s.scn.heldCyc then 4 else if s.scn.published then 2 else 1)
  else s

/-- The station's output buffer takes its safe values: SAFEVAL bits where SAFEHOLD is 0 (10 R350), while it holds a CONF. -/
def stnSafeBuf (s : State) : State :=
  if s.rb Reg.VUV_STN_STATE 3 then
    let o := Key.sram + s.rf Reg.VUV_STN_OUTBUF 19 7 * 128
    (List.range 124).foldl (fun t j =>
      let i := j + 4
      let hold := t.rd (Key.conf + 144 + i)
      t.wr (o + i) ((t.rd (o + i) &&& hold) ||| (t.rd (Key.conf + 16 + i) &&& ~~~hold))) s
  else s

/-- The station enters its safe state (10 R339, R351, R352): SAFECAUSE 1 from BOOT, 4 on a request, else as the trigger left it. -/
def stnSafeState (s : State) (old : Nat) : State :=
  let cause := s.stn.cause.getD (if old = Mode.boot then 1 else 4)
  let s := s.setRf Reg.VUV_STN_LEAD 11 8 cause
  let s := if s.rf Reg.VUV_STN_STATE 2 0 = 3 then s.setRf Reg.VUV_STN_STATE 2 0 2 else s
  { (s.raise 82 cause).stnSafeBuf with stn := { s.stn with cause := none, released := false } }

/-- STATION-RUN is entered (10 R340, R354): event 83 carries the number of the boundary's cycle. -/
def stnRunState (s : State) : State :=
  { (s.setRf Reg.VUV_STN_STATE 2 0 3).raise 83 (((s.cycleAt s.netT).getD s.scn.cyc) % 2 ^ 32) with stn := { s.stn with released := false } }

/-- Entry into RUN from STOP requests RELEASE for every enabled station where RELEASE_ON_RUN = 1 (10 R346). -/
def releaseAll (s : State) : State :=
  if s.rb Reg.VUV_CFG 7 then
    (List.range 128).foldl (fun t i =>
      if t.rb (Reg.VUV_STNCFG (i + 1)) 0 then t.setRb (Reg.VUV_REL (i / 32)) (i % 32) true else t) s
  else s

/-- What a mode change of the active tells its partner (11 R374, R375): leaving RUN for STOP, entering HOLD, leaving it for RUN. -/
def tellPartner (s : State) (old new : Nat) : State :=
  if !s.lead then s
  else if old = Mode.run ∧ new = Mode.stop ∧ s.partnerTracking then s.divergeHere 7
  else if old = Mode.run ∧ new = Mode.hold ∧ s.partnerTracking then s.twnCmd 6 0 0
  else if old = Mode.hold ∧ new = Mode.run then s.twnCmd 7 0 0
  else s

/-- What entering a mode sends to the Rind (14 R468, R469): SAFE where R82 lists safe values or HOLD repeats no outputs, by row 14 at the T_apply of the cycle at whose
boundary RUN ends (DEDUCED, log 35); RELEASE into RUN with AUTOREL = 1 and into STATION-RUN. -/
def rndMode (s : State) (old new : Nat) : State :=
  if old = Mode.run ∧ new = Mode.stop then { s with rind := { s.rind with safeDue := true } }
  else if [Mode.boot, Mode.service, Mode.config, Mode.stop, Mode.safeHalt, Mode.syncing, Mode.tracking, Mode.stnSafe].contains new ||
      (new == Mode.hold && s.rb Reg.SCN_HOLDCFG 0) then s.rndPush .safe
  else if new = Mode.stnRun ∨ (new = Mode.run ∧ s.rb Reg.RND_CFG 0) then s.rndPush .release
  else s

/-- What entering a mode does to the lead, the stations and the station (10, 11 R361; 03 row 14). -/
def enterNet (s : State) (old new : Nat) : State :=
  let s := (s.tellPartner old new).rndMode old new
  let s := if old = Mode.run ∧ new ≠ Mode.run ∧ s.lead then s.fcRestart 4 else s
  let s := if old = Mode.stop ∧ new = Mode.run ∧ !s.lead then { s with twn := { s.twn with leftStop := true } } else s
  let s := if [Mode.stop, Mode.run, Mode.hold, Mode.safeHalt].contains new then s else s.setLead false
  let s := if old = Mode.stop ∧ new = Mode.run then s.releaseAll else s
  let s := if new = Mode.stop ∧ (old = Mode.run ∨ old = Mode.hold) then { s with scn := { s.scn with safeOut := true } } else s
  if new = Mode.stnRun then s.stnRunState
  else if new = Mode.stnSafe then s.stnSafeState old
  else if new = Mode.config ∧ (old = Mode.stnRun ∨ old = Mode.stnSafe) then
    let s := if s.rf Reg.VUV_STN_STATE 2 0 = 3 then s.setRf Reg.VUV_STN_STATE 2 0 2 else s
    s.stnSafeBuf
  else s

/-- GRF_STAT.STATE: 0 IDLE, 1 ARMING, 2 ARMED, 3 APPLYING. -/
def grfState (s : State) : Nat := s.rf Reg.GRF_STAT 2 0

/-- A cycle in which the Graft does not apply (09 R309); `twin`: by R311. -/
def postpone (s : State) (twin : Bool) : State :=
  let w := s.rf Reg.GRF_STAT 23 16 + 1
  let s := { (s.setRf Reg.GRF_STAT 23 16 w).raise 61 (w % 256 + 256 * bn twin) with grf := { s.grf with dispStop := false } }
  if max 1 (s.rf Reg.GRF_MAXWAIT 7 0) ≤ w then
    let r := if twin then 3 else 2
    ((s.setRf Reg.GRF_STAT 2 0 0).setRf Reg.GRF_STAT 7 4 r).raise 62 r
  else s

/-- The attempt that T_apply opened stands. -/
def attempting (s : State) : Bool := s.grf.dispStop && s.grfState == 2

/-- An attempt that a mode without attempts, or a return to ARMING, cuts off has failed (09 R306, R309; DEDUCED, log 31). -/
def attemptCut (s : State) : State := if s.attempting then s.postpone false else s

/-- What entering a mode does to the lanes, tasks and hold state (06 R217, R231, R233, R637; 03 R82). -/
def enterMode (s : State) (old new : Nat) : State :=
  let s := s.enterNet old new
  let s := if [Mode.run, Mode.stop, Mode.stnRun].contains new then s else s.attemptCut
  let s := if [Mode.run, Mode.stnRun, Mode.hold].contains new then s else s.abortTasks
  let s := if old = Mode.hold ∧ new ≠ Mode.hold then
      { ((s.setRf Reg.SCN_HOLDSTAT 1 0 0).setRb Reg.SCN_HOLDSTAT 24 false) with scn := { s.scn with hold := .none } } else s
  let s := if new = Mode.hold ∧ old ≠ Mode.hold then s.enterHold else s
  let s := if old = Mode.hold ∧ [Mode.run, Mode.tracking].contains new then s.lanesResume else s
  let s := if old = Mode.hold ∧ new = Mode.run then s.resumeCycle else s
  if [Mode.run, Mode.hold, Mode.tracking, Mode.stnRun, Mode.stnSafe, Mode.safeHalt].contains new then s
  else
    let b := if [Mode.boot, Mode.service, Mode.config].contains new then none else s.scn.lastB
    { s.lanesIdle.setPhase 0 with
      scn := { s.scn with interrupted := false, pubDue := false, merging := false, applied := true, published := true, lastB := b } }

/-- A completed mode change by row `row` of the transition table (03 R85, R90, R92): SYS_MODE takes the code, MODE_CHANGE is raised
with old code, new code and row, and the mode's behaviour is brought in as one step. -/
def changeMode (s : State) (new row : Nat) : State :=
  let old := s.mode
  let s := { s.setReg Reg.SYS_MODE (BitVec.ofNat 32 (new % 16 + 16 * bn (decide (row = 27)))) with
    sys := { s.sys with auto := s.sys.auto && new == Mode.stop } }
  let s := s.settleRequests old new row
  let s := s.raise 0 (old + 256 * new + 65536 * row)
  s.enterMode old new

/-- The highest step number of the solving lanes (03 R122). -/
def stepNow (s : State) : Nat := (s.lanesWith 1).foldl (fun n k => max n (s.core (s.physOf k)).stepNo) 0

/-- What an entry into SAFE-HALT tells the partner (11 R374, R379): with codes 0x02, 0x03 and 0x05 a HANDOVER digest, whose value the spec
leaves open, then CMD HANDOVER, the lead cleared and no SAFE frames; with 0x01 and 0x04 DIVERGE. -/
def haltPartner (s : State) (code : Nat) : State :=
  if !s.lead || !s.partnerTracking then s
  else if code = 2 ∨ code = 3 ∨ code = 5 then
    if s.rb Reg.TWN_CFG 1 then
      let f := s.free64
      let s := (f.2.twnSend 0x06 4 0 (leBytes 8 f.1.toNat)).twnCmd 4 0 s.scn.cyc
      { s.setLead false with scn := { s.scn with safeOut := false } }
    else s
  else s.divergeHere 7

/-- A SAFE-HALT trigger (03 R93, row 18; 06 R638): in RUN, HOLD, STANDBY-TRACKING and STATION-RUN the lanes stop, tasks are aborted, a
merge is abandoned, the mode becomes SAFE-HALT with its code and step, SAFE frames and the Rind's safe command are due. In every
other mode it is no transition of the table and does nothing. -/
def safeHalt (s : State) (code : Nat) (lockCause : Nat) (src : Option Nat) : State :=
  if s.modeIn [Mode.run, Mode.hold, Mode.tracking, Mode.stnRun] then
    let step := s.stepNow
    let s := s.stopAllSolving lockCause src
    let s := s.setReg Reg.SYS_HALTCAUSE (BitVec.ofNat 32 (code + 256 * step))
    let s := s.raise 2 code
    let s := s.changeMode Mode.safeHalt 18
    let s := { s.setPhase 0 with scn := { s.scn with safeOut := true, published := true, interrupted := false, pubDue := false } }
    s.haltPartner code
  else s

end Sys2Proof.Machine.State
end

