-- ==== Sys2Proof/Machine/Image.lean ====
section
/-! DEFINITION. Shared memories (07): ECC of their words, POISON and dirty lines, the freeze of the image, accesses by the fabric. -/

-- one declaration at a time: many at once take a thread and its stack each
set_option Elab.async false

namespace Sys2Proof.Machine

namespace State

/-- A set of numbers kept as a sparse map. -/
def setMark (l : List (Nat × Bool)) (n : Nat) (b : Bool) : List (Nat × Bool) := Sparse.set (fun _ => false) l n b
def getMark (l : List (Nat × Bool)) (n : Nat) : Bool := Sparse.get (fun _ => false) l n

/-- The ECC mark of the word that holds byte `k`: 0 clean, 1 correctable, 2 uncorrectable. -/
def eccMark (s : State) (k : Nat) : Nat := Sparse.get (fun _ => 0) s.ecc (k / 4 * 4)
def setEcc (s : State) (k m : Nat) : State := { s with ecc := Sparse.set (fun _ => 0) s.ecc (k / 4 * 4) m }

/-- The address that IMG_UE_ADDR and the events report for a word: its device address, or a report address for the receive and
publish buffers (07 R254). -/
def reportAddr (k : Nat) : Nat :=
  if Key.recv ≤ k ∧ k < Key.recv + 0x4000 then 0x01810000 + (k - Key.recv) / 4 * 4
  else if Key.publish ≤ k ∧ k < Key.publish + 0x4000 then 0x01814000 + (k - Key.publish) / 4 * 4
  else k / 4 * 4

/-- Whether key `k` lies in Pantry. -/
def inPantry (k : Nat) : Bool := decide (Key.pantry ≤ k) && decide (k < Key.pantry + 0x400000)
/-- The Pantry line of key `k` (07 R243). -/
def lineOf (k : Nat) : Nat := (k - Key.pantry) / 64

/-- Every uncorrectable word is counted and recorded: memory, physical lane or 0x7F, half, address (19 R582). -/
def ueRecord (s : State) (mem lane half addr : Nat) : State :=
  ((s.bump Reg.BGD_UE_CNT).setReg Reg.BGD_UE_WHERE (BitVec.ofNat 32 (mem + 256 * lane + 2 ^ 15 * half + 2 ^ 31))).setReg Reg.BGD_UE_ADDR (BitVec.ofNat 32 addr)

/-- An uncorrectable word found (07 R254): replaced by 0 with valid check bits, counted and recorded; a Pantry word marks its line
POISON and raises PANTRY_UE, and with SCN_POISONPOL.HALT brings SAFE-HALT with code 0x05 in the modes of row 18; any other word
raises IMAGE_UE. -/
def ueWord (s : State) (k : Nat) : State :=
  let w := k / 4 * 4
  let s := (((s.setEcc k 0).wrLE w 4 0).bump Reg.IMG_UE_CNT).ueRecord (if inPantry k then 3 else 4) 0x7F 0 (reportAddr k)
  let s := s.setReg Reg.IMG_UE_ADDR (BitVec.ofNat 32 (reportAddr k))
  if inPantry k then
    let s := { s with img := { s.img with poison := setMark s.img.poison (lineOf k) true } }.raise 48 (lineOf k)
    if s.rb Reg.SCN_POISONPOL 0 then s.safeHalt 5 2 none else s
  else s.raise 49 (reportAddr k)

/-- A corrected word (07 R253): written back, counted, ECC_CE raised. -/
def ceWord (s : State) (k : Nat) : State := ((s.setEcc k 0).bump Reg.IMG_CE_CNT).raise 50 (reportAddr k)

/-- What an access to a word of Pantry, the image banks or the buffers does to an ECC error in it (07 R253, R254). -/
def touch (s : State) (k : Nat) : State :=
  match s.eccMark k with
  | 0 => s
  | 1 => s.ceWord k
  | _ => s.ueWord k

/-- A byte of a protected memory read (07 R253). -/
def rdT (s : State) (k : Nat) : Byte × State := let t := s.touch k; (t.rd k, t)

/-- A byte of a protected memory written by a read-modify-write of its word (07 R253). -/
def wrT (s : State) (k : Nat) (v : Byte) : State := (s.touch k).wr k v

/-- A Pantry write to key `k` records its line: ALL always, ND for writers other than solving lanes and the Graft map (07 R256). -/
def dirty (s : State) (k : Nat) (nd : Bool) : State :=
  let l := lineOf k
  { s with img := { s.img with all := setMark s.img.all l true, nd := if nd then setMark s.img.nd l true else s.img.nd } }

/-- An access to the Pantry noted for the cycle (06 R242). -/
def noteAcc (s : State) (a : PanAcc) : State := if s.img.acc.contains a then s else { s with img := { s.img with acc := s.img.acc ++ [a] } }

/-- The host, a service lane or the Steward has written Pantry byte `k` while cycles run: a byte that a solving lane has accessed in this cycle is a free value
(07 R272). -/
def panHost (s : State) (k : Nat) : State :=
  if inPantry k && s.modeIn [Mode.run, Mode.hold, Mode.tracking, Mode.stnRun, Mode.stnSafe] then
    let hit := s.img.acc.any fun e => e.key == k && e.lane != 255
    let s := s.noteAcc ⟨k, 255, 0, true⟩
    if hit then (let f := s.free; f.2.wr k (f.1.setWidth 8)) else s
  else s

/-- A byte stored to Pantry. -/
def pantryWr (s : State) (k : Nat) (v : Byte) (nd : Bool) : State := (s.wrT k v).dirty k nd

/-- Whole words written in one beat by a copy engine: fresh check bits, nothing found (07 R253); whole lines lose their POISON mark (07 R255). -/
def wrLines (s : State) (k : Nat) (bs : List Byte) : State :=
  let s := { s.wrBytes k bs with ecc := Sparse.clear s.ecc k (k + bs.length) }
  if inPantry k then
    (List.range (bs.length / 64)).foldl (fun t i => { t with img := { t.img with poison := setMark t.img.poison (lineOf (k + 64 * i)) false } }) s
  else s

/-- IMG_RINDBLK or IMG_CANBLK names block `b` (07 R249). -/
def localBlk (s : State) (b : Nat) : Bool := b != 0 && (s.rf Reg.IMG_RINDBLK 7 0 == b || s.rf Reg.IMG_CANBLK 7 0 == b)

/-- COMPLETE of block `b` (07 R247). -/
def completeBlk (s : State) (b : Nat) : Bool := getMark s.img.complete b

/-- Bank arbiter `id` decides no access of its own now: a merge or the publish copy uses the image banks (07 R252), the timer cells update (08 R280). -/
def bankBusy (s : State) (id : Nat) : Bool :=
  (decide (0x10 ≤ id) && decide (id < 0x20) && (s.rb Reg.IMG_STAT 0 || s.rb Reg.IMG_STAT 1)) || (id == 0x30 && s.tmc.updating)

/-- The bank arbiter that an access of the fabric to a device address needs (07 R246, R258). -/
def fabArb (a : Nat) : Option Nat :=
  if Key.input ≤ a ∧ a < Key.status then some (0x10 + (a - Key.input) / 128 % 16)
  else if Key.status ≤ a ∧ a < Key.status + 0x400 then some (0x10 + (a - Key.status) / 8 % 16)
  else if Key.exch ≤ a ∧ a < Key.exch + 0x2000 then some (0x10 + (a - Key.exch) / 128 % 16)
  else if Key.cells ≤ a ∧ a < Key.cells + 0x8000 then some 0x30
  else if inPantry a then some (0x20 + (a - Key.pantry) / 0x40000)
  else none

/-- One of `n` bytes at device address `a` waits for its bank: busy, or held by a lane's transfer or locked sequence (07 R258, R266). -/
def fabWaits (s : State) (a n : Nat) : Bool :=
  (List.range n).any fun i => (fabArb (a + i)).any fun id => s.bankBusy id || (s.arb id).owner.isSome

/-- A whole 128-byte block written into the receive buffer: COMPLETE is set with the last beat (07 R247). -/
def recvBlock (s : State) (b : Nat) (bs : List Byte) : State :=
  let s := s.wrLines (Key.recv + (b - 1) * 128) (bs.take 128)
  { s with img := { s.img with complete := setMark s.img.complete b true } }

/-- Key of the status entry of station or block `b`. -/
abbrev statKey (b : Nat) : Nat := Key.status + (b - 1) * 8
/-- Key of its pending entry (07 R245). -/
abbrev pstatKey (b : Nat) : Nat := Key.pendStat + (b - 1) * 8

/-- A copy engine reads the words from key `lo` up to `hi` (07 R253, R254). -/
def touchRange (s : State) (lo hi : Nat) : State :=
  (s.ecc.filter fun e => decide (lo ≤ e.1) && decide (e.1 < hi)).foldl (fun t e => t.touch e.1) s

/-- The words of blocks `bs`, from memory key `base` on, read by the engine (07 R253, R254). -/
def touchBlocks (s : State) (base : Nat) (bs : List Nat) : State :=
  bs.foldl (fun t b => t.touchRange (base + (b - 1) * 128) (base + b * 128)) s

/-- Bytes copied by whole words: the source is read with its check bits, the copy has fresh ones (07 R253). -/
def copyWords (s : State) (src dst n : Nat) : State :=
  let s := (s.touchRange src (src + n)).copyMem src dst n
  { s with ecc := Sparse.clear s.ecc dst (dst + n) }

/-- A block write of `b` that has begun and does not end before the next freeze (07 R250). -/
def recvLate (s : State) (b : Nat) : State := { s with img := { s.img with writing := setMark s.img.writing b true } }

/-- What Pulp has done with the CAN-mapped inputs when the freeze comes (07 R247, R249, R250): the spec does not say how it maps them, so a free value says whether the
block of IMG_CANBLK is as it was, written whole with free bytes, or still being written. A value above 128 is a host error: it reaches a block that is free (R272). -/
def canFill (s : State) : State :=
  let b := s.rf Reg.IMG_CANBLK 7 0
  if s.isStn || b == 0 || !s.domOn 8 then s
  else
    let f := s.free
    let b := if b ≤ 128 then b else fld f.1 14 8 + 1
    if fld f.1 1 0 = 0 then f.2
    else if fld f.1 1 0 = 1 then f.2.recvLate b
    else (let r := f.2.freeBytes (List.replicate 128 0); r.2.recvBlock b r.1)

/-- A block named twice, or named and used by a Vuvas station, is a host error: its content and its status entry are free (07 R272). -/
def blkFree (s : State) (b : Nat) : State :=
  let own := s.rf Reg.IMG_RINDBLK 7 0 == b && s.rf Reg.IMG_CANBLK 7 0 == b
  if 1 ≤ b && b ≤ 128 && (own || s.rb (Reg.VUV_STNCFG b) 0) then
    let r := s.freeBytes (List.replicate 136 0)
    let st := List.zipWith (· &&& ·) (r.1.drop 128) [0x1F, 0xFF, 0x07, 0x07, 0xFF, 0xFF, 0, 0]
    (r.2.wrLines (Key.input + (b - 1) * 128) (r.1.take 128)).wrLines (statKey b) st
  else s

/-- The host errors of the block names, at the freeze (07 R272). -/
def localErr (s : State) : State := (s.blkFree (s.rf Reg.IMG_RINDBLK 7 0)).blkFree (s.rf Reg.IMG_CANBLK 7 0)

/-- What input block `b` takes at the freeze, by the quality that takes effect at it (07 R248). -/
def freezeBlock (s : State) (b : Nat) : State :=
  let e := (s.rd (statKey b)).toNat
  let q := e % 4
  let loc := e / 8 % 2 == 1
  let zero := e / 16 % 2 == 1
  let dst := Key.input + (b - 1) * 128
  if (q = 1 ∨ loc) then
    if s.completeBlk b then s.copyWords (Key.recv + (b - 1) * 128) dst 128 else s
  else if q = 0 ∨ (q = 3 ∧ zero) then s.clearMem dst (dst + 128)
  else s

/-- What a freeze does beside the blocks (07 R247, R250, R256): COMPLETE clears, a block still being written is counted late, ND moves to ND_PREV. -/
def freezeMarks (s : State) : State :=
  let late := s.img.writing.map (·.1)
  let s := { s with img := { s.img with complete := [], writing := [], ndPrev := s.img.nd, nd := [], forceWin := false } }
  late.foldl (fun t b => (t.bump Reg.IMG_LATE_CNT).raise 51 b) s

/-- The image in the clk of INPUT FREEZE (07 R245, R248, R250, R256): the pending status entries take effect, every input block follows its
new quality, and `freezeMarks`. -/
def freezeImage (s : State) : State :=
  let s := s.copyWords Key.pendStat Key.status 0x400
  let s := (List.range 128).foldl (fun t i => t.freezeBlock (i + 1)) s
  s.freezeMarks

/-- The smallest number in a set kept as a sparse map. -/
def firstMark (l : List (Nat × Bool)) : Option Nat := (l.head?).map (·.1)

/-- IMG_PSNCLR (07 R255): clears the mark of a line; it takes effect with GO only. -/
def psnClear (s : State) (v : Word) : State :=
  if fld v 31 31 = 1 then { s with img := { s.img with poison := setMark s.img.poison (fld v 15 0) false } } else s

end State

open State

/-- PSNCLR (07 R255). -/
def execPsnclr (ag : Agent) (v : Word) (s : State) : Res State := .next (s.regWrite ag Reg.IMG_PSNCLR (·.psnClear v))

end Sys2Proof.Machine
end

