-- ==== Sys2Proof/Machine/Cells.lean ====
section
/-! DEFINITION. Timer cells (08): reading, latching, committing, the mode byte, and the update at a freeze. -/

-- one declaration at a time: many at once take a thread and its stack each
set_option Elab.async false

namespace Sys2Proof.Machine

namespace State

/-- Key of byte 0 of cell `n` (08 R273). -/
abbrev cellKey (n : Nat) : Nat := Key.cells + 8 * n
/-- MODE byte of cell `n` (08 R274). -/
def cellMode (s : State) (n : Nat) : Nat := (s.rd (cellKey n + 6)).toNat
/-- STATUS byte of cell `n`. -/
def cellStatus (s : State) (n : Nat) : Nat := (s.rd (cellKey n + 7)).toNat
/-- Hidden base of a FREE cell (08 R285). -/
def cellBase (s : State) (n : Nat) : Int := Sparse.get (fun _ => 0) s.tmc.base n
def setCellBase (s : State) (n : Nat) (b : Int) : State := { s with tmc := { s.tmc with base := Sparse.set (fun _ => 0) s.tmc.base n b } }

/-- The cell is FREE. -/
def cellFree (s : State) (n : Nat) : Bool := s.cellMode n % 16 == 8
/-- The cell is in a counter mode (08 R274). -/
def cellCounter (s : State) (n : Nat) : Bool := [5, 6, 7].contains (s.cellMode n % 16)

/-- A FREE cell's count from base `b` at network time now, and whether it saturates or lies below the base (08 R285). -/
def freeCount (s : State) (b : Int) : Nat × Bool :=
  let d := (s.netUs : Int) - b
  if d < 0 then (0, true) else if (2 ^ 48 : Int) ≤ d then (2 ^ 48 - 1, true) else (d.toNat, false)

/-- Bytes 0–5 of cell `n` as an access that sees base `base` of a FREE cell finds them now; bits [7:2] of byte 5 of a counter read 0 (08 R274, R285). -/
def cellCountBy (s : State) (n : Nat) (base : Int) : Nat :=
  if s.cellFree n then (s.freeCount base).1 else if s.cellCounter n then s.rdLE (cellKey n) 6 % 2 ^ 42 else s.rdLE (cellKey n) 6

/-- Bytes 0–5 of a cell as an access sees them now. -/
def cellCount (s : State) (n : Nat) : Nat := s.cellCountBy n (s.cellBase n)

def setStatus (s : State) (n st : Nat) : State := s.wr (cellKey n + 7) (BitVec.ofNat 8 st)

/-- OVF of a cell. -/
def setOvf (s : State) (n : Nat) : State := let st := s.cellStatus n; if st / 64 % 2 = 1 then s else s.setStatus n (st + 64)

/-- A cell saturates: OVF is set, the saturation counted and recorded, and the first since the freeze raised (08 R284, R290). -/
def cellOvf (s : State) (n : Nat) : State :=
  let s := ((s.setOvf n).bump Reg.TMC_OVF_CNT).setReg Reg.TMC_OVF_LAST (BitVec.ofNat 32 (2 ^ 31 + n))
  if s.tmc.ovfRaised then s else { s.raise 56 n with tmc := { s.tmc with ovfRaised := true } }

/-- The buffers of agent context `ag` for the cell window. -/
def cellBuf (s : State) (ag : Nat) : CellBuf := Sparse.get (fun _ => {}) s.tmc.bufs ag
def setCellBuf (s : State) (ag : Nat) (b : CellBuf) : State := { s with tmc := { s.tmc with bufs := Sparse.set (fun _ => {}) s.tmc.bufs ag b } }

/-- Latch a cell's count for an agent context, with the base that the context sees (08 R285, R288). A FREE cell above its range saturates, one below it sets OVF. -/
def cellLatch (s : State) (ag n : Nat) (base : Int) : State :=
  let v := s.cellCountBy n base
  let s := if s.cellFree n && (s.freeCount base).2 then (if v = 0 then s.setOvf n else s.cellOvf n) else s
  s.setCellBuf ag { s.cellBuf ag with rTag := n + 1, rBuf := BitVec.ofNat 48 v }

/-- A byte of a cell read by an agent context (08 R288 items 1, 2, 5). -/
def cellRead (s : State) (ag n i : Nat) (base : Int) : Byte × State :=
  if i = 0 then let s := s.cellLatch ag n base; (BitVec.ofNat 8 (s.cellBuf ag).rBuf.toNat, s)
  else if i < 6 then
    let b := s.cellBuf ag
    if b.rTag = n + 1 then (BitVec.ofNat 8 (b.rBuf.toNat / 256 ^ i), s) else (BitVec.ofNat 8 (s.cellCountBy n base / 256 ^ i), s)
  else (s.rd (cellKey n + i), s)

/-- The staging buffer of an agent context holds cell `n` (08 R288 items 3, 4). -/
def cellStageFor (s : State) (ag n : Nat) : State :=
  let b := s.cellBuf ag
  if b.sTag = n + 1 then s else s.setCellBuf ag { b with sTag := n + 1, sBuf := BitVec.ofNat 48 (s.cellCount n) }

/-- Byte `i` of a 48-bit buffer replaced. -/
def put48 (w : BitVec 48) (i : Nat) (v : Byte) : BitVec 48 :=
  (w &&& ~~~ ((0xFF#48) <<< (8 * i))) ||| (v.setWidth 48 <<< (8 * i))

/-- COUNT of cell `n` set by a commit (08 R284, R285): OVF clears; a FREE cell's base is set so that COUNT reads the value now. In a counter
mode, bits [7:2] of byte 5 set to 1 are a host error whose count and edge memories are free (08 R292). -/
def cellCommit (s : State) (n v : Nat) : State :=
  let s := s.setStatus n (s.cellStatus n / 128 * 128 + s.cellStatus n % 64)
  if s.cellFree n then s.setCellBase n ((s.netUs : Int) - (v : Int))
  else if s.cellCounter n ∧ 4 ≤ v / 2 ^ 40 then
    let f := s.free64
    f.2.wrLE (cellKey n) 6 (f.1.toNat % 2 ^ 42)
  else s.wrLE (cellKey n) 6 v

/-- Every byte of cell `n` is a free value (08 R292). -/
def cellAny (s : State) (n : Nat) : State := let f := s.free64; f.2.wrLE (cellKey n) 8 f.1.toNat

/-- COUNT, byte 5 and STATUS of a cell cleared and its MODE byte set (08 R287); MODE = 8 sets the base so that COUNT reads 0. MODE 9–15 is a
host error that leaves the cell to free values (08 R292). -/
def cellSetMode (s : State) (n : Nat) (m : Byte) : State :=
  let s := (s.wrLE (cellKey n) 6 0).setStatus n 0
  if 9 ≤ m.toNat % 16 then s.cellAny n
  else
    let s := s.wr (cellKey n + 6) m
    s.setCellBase n (if m.toNat % 16 = 8 then (s.netUs : Int) else 0)

/-- The modes in which host, service lanes and Steward may commit (08 R286), but for a standby's HOLD (11 R370). -/
def cellWritable (s : State) : Bool := s.modeIn [Mode.config, Mode.stop, Mode.safeHalt, Mode.hold] && !s.stby

/-- Bytes 0–5 of a cell written by an agent context that may: bytes 0–4 are staged, byte 5 commits (08 R286, R288). -/
def cellWriteByte (s : State) (ag n i : Nat) (v : Byte) : State :=
  let s := s.cellStageFor ag n
  let b := s.cellBuf ag
  let w := put48 b.sBuf i v
  if i < 5 then s.setCellBuf ag { b with sBuf := w }
  else
    let s := s.cellCommit n w.toNat
    s.setCellBuf ag { s.cellBuf ag with sTag := n + 1, sBuf := BitVec.ofNat 48 (s.cellCount n) }

/-- The bytes `(i, v)` of cell `n` written in one access by the fabric (08 R286, R287): a MODE byte first, then the count, so that a count
committed by the same access stays; what is not allowed is discarded with TMC WIGN. STATUS cannot be written. -/
def cellFabWrite (s : State) (ag n : Nat) (bs : List (Nat × Byte)) : State :=
  let ok := s.cellWritable
  let s := bs.foldl (fun t b => if b.1 = 6 then (if ok then t.cellSetMode n b.2 else t.wign 0x0B) else t) s
  bs.foldl (fun t b =>
    if b.1 < 6 then (if ok then t.cellWriteByte ag n b.1 b.2 else t.wign 0x0B)
    else if b.1 = 7 then t.wign 0x0B else t) s

/-! ## The update (08 R276–R284) -/

/-- A cell as the update sees it. -/
structure CellIn where
  mode : Nat
  count : Nat
  pin : Bool
  pcd : Bool
  q : Bool
  inp : Bool
  cd : Bool
  r : Bool
  ld : Bool
  run : Bool
  deriving DecidableEq, Repr

/-- What the update makes of it: count, RUN, Q, QD, and whether it saturated. -/
structure CellOut where
  count : Nat
  run : Bool
  q : Bool
  qd : Bool
  sat : Bool
  deriving DecidableEq, Repr

/-- "Advance" of 08 R282 with the saturation of 08 R284. -/
def advance (count pt delta : Nat) : Nat × Bool :=
  if count < pt then (if 2 ^ 48 ≤ count + delta then (2 ^ 48 - 1, true) else (count + delta, false)) else (count, false)

/-- A counter's step of 08 R282 with the saturation of 08 R284. -/
def countStep (count : Nat) (up down : Bool) : Nat × Bool :=
  if up && !down then (if count = 2 ^ 40 - 1 then (count, true) else (count + 1, false))
  else if down && !up then (if count = 0 then (0, true) else (count - 1, false))
  else (count, false)

/-- One cell at an update (08 R282, R283): the table of R282, replaced by a reset, or by a load in CTD and CTUD. -/
def cellStep (c : CellIn) (pt delta : Nat) : CellOut :=
  let pc := pt % 2 ^ 40
  match c.mode with
  | 1 =>
    if c.r then ⟨0, false, false, false, false⟩
    else if c.inp then
      let a := if c.run then advance c.count pt delta else (c.count, false)
      ⟨a.1, true, decide (pt ≤ a.1), false, a.2⟩
    else ⟨0, false, false, false, false⟩
  | 2 =>
    if c.r then ⟨0, false, false, false, false⟩
    else if c.inp then ⟨0, false, true, false, false⟩
    else
      let a := if c.run then advance c.count pt delta else (c.count, false)
      let run := (c.run || c.q) && decide (a.1 < pt)
      ⟨a.1, run, run, false, a.2⟩
  | 3 =>
    if c.r then ⟨0, false, false, false, false⟩
    else if c.run then
      let a := advance c.count pt delta
      ⟨a.1, decide (a.1 < pt), decide (a.1 < pt), false, a.2⟩
    else if c.inp && c.count == 0 then ⟨c.count, true, true, false, false⟩
    else if !c.inp then ⟨0, false, false, false, false⟩
    else ⟨c.count, false, false, false, false⟩
  | 4 =>
    if c.r then ⟨0, false, false, false, false⟩
    else if c.inp then
      let a := if c.run then advance c.count pt delta else (c.count, false)
      ⟨a.1, true, decide (pt ≤ a.1), false, a.2⟩
    else ⟨c.count, false, decide (pt ≤ c.count), false, false⟩
  | 5 =>
    let a := if c.r then (0, false) else countStep c.count (c.inp && !c.pin) false
    ⟨a.1, false, decide (pc ≤ a.1), false, a.2⟩
  | 6 =>
    let a := if c.r then (0, false) else if c.ld then (pc, false) else countStep c.count false (c.cd && !c.pcd)
    ⟨a.1, false, a.1 == 0, a.1 == 0, a.2⟩
  | 7 =>
    let a := if c.r then (0, false) else if c.ld then (pc, false) else countStep c.count (c.inp && !c.pin) (c.cd && !c.pcd)
    ⟨a.1, false, decide (pc ≤ a.1), a.1 == 0, a.2⟩
  | _ => ⟨c.count, c.run, false, false, false⟩

/-- The preset PT of cell `n` (08 R276, R280, R281): the 48-bit value of its Pantry slot, whose 64-byte line the engine reads; where a word of the slot was uncorrectable
at the freeze, in `s0`, it reads 0, the cell uses PT = 0 and PRESET_ERR is raised. -/
def preset (s0 s : State) (n : Nat) : Nat × State :=
  let j := s.cellMode n / 16
  let off := (s.rf (Reg.TMC_PBASE j) 21 3 * 8 + 8 * n) % 0x400000
  let k := Key.pantry + off
  let bad := s0.eccMark k = 2 ∨ s0.eccMark (k + 4) = 2
  let s := s.touchRange (k / 64 * 64) (k / 64 * 64 + 64)
  if bad then (0, (s.setReg Reg.TMC_PERR_LAST (BitVec.ofNat 32 (2 ^ 31 + n))).raise 57 n) else (s.rdLE k 6, s)

/-- The update of cell `n` (08 R277–R284); `s0`: the state at the freeze. A FREE cell's preset is read as well and not used (R280). -/
def updateCell (s0 s : State) (delta n : Nat) : State :=
  let m := s.cellMode n % 16
  let st := s.cellStatus n
  if m = 0 then s.setStatus n (st % 128 / 2 * 2)
  else if m = 8 then (preset s0 s n).2.setStatus n (st % 128 / 2 * 2)
  else if 8 < m then s.cellAny n
  else
    let cnt := (5 ≤ m : Bool)
    let raw := s.rdLE (cellKey n) 6
    let p := preset s0 s n
    let s := p.2
    let b := fun i => st / 2 ^ i % 2 == 1
    let c : CellIn := { mode := m, count := if cnt then raw % 2 ^ 40 else raw, pin := cnt && raw / 2 ^ 40 % 2 == 1, pcd := cnt && raw / 2 ^ 41 % 2 == 1,
                        q := b 0, inp := b 1, cd := b 2, r := b 3, ld := b 4, run := b 5 }
    let o := cellStep c p.1 delta
    let s := s.wrLE (cellKey n) 6 (if cnt then o.count % 2 ^ 40 + 2 ^ 40 * bn c.inp + 2 ^ 41 * bn c.cd else o.count)
    let cleared := c.r || (c.ld && (m == 6 || m == 7))
    let s := s.setStatus n (bn o.q + st / 2 % 16 * 2 + 32 * bn o.run + (if cleared then 0 else 64 * (st / 64 % 2)) + 128 * bn o.qd)
    if o.sat then s.cellOvf n else s

/-- The cells that any byte of the cell memory names; the others are all zero, and an update leaves them so. -/
def cellsListed (s : State) : List Nat :=
  ((s.mem.filter fun e => decide (Key.cells ≤ e.1) && decide (e.1 < Key.cells + 0x8000)).map fun e => (e.1 - Key.cells) / 8).eraseDups

/-- The update of every cell at a freeze with timestamp `cts` µs (08 R278, R279): Δ since the last update, then TMC_LASTTS takes the timestamp. -/
def updateCells (s : State) (cts : Nat) : State :=
  let delta := (cts + 2 ^ 48 - s.reg64 Reg.TMC_LASTTS_LO % 2 ^ 48) % 2 ^ 48
  let s := s.cellsListed.foldl (fun t n => updateCell s t delta n) { s with tmc := { s.tmc with ovfRaised := false } }
  { (s.setReg64 Reg.TMC_LASTTS_LO cts).setRb Reg.TMC_STAT 0 true with tmc := { s.tmc with updating := true } }

end State

open State

/-- The address of a cell's byte, for the checks of an access. -/
abbrev cellAddr (n i : Nat) : Nat := 0x01900000 + 8 * n + i

/-- TMC_MODE_WRITE (08 R287). -/
def execTmcModeWrite (ag : Agent) (cell : BitVec 12) (v : Byte) (s : State) : Res State :=
  .next (s.guarded ag (cellAddr cell.toNat 6) fun s =>
    if !s.serviceOk ag 0x0B then s.wign 0x0B else s.cellFabWrite (agentNum ag) cell.toNat [(6, v)])

/-- CELL_COUNT_COMMIT (08 R288): a write of byte 5. -/
def execCellCountCommit (ag : Agent) (cell : BitVec 12) (v : Byte) (s : State) : Res State :=
  .next (s.guarded ag (cellAddr cell.toNat 5) fun s =>
    if !s.serviceOk ag 0x0B then s.wign 0x0B else s.cellFabWrite (agentNum ag) cell.toNat [(5, v)])

/-- UPDATE_DONE (08 R279, R290): the update that runs ends after the clk given, its length is reported and UPDATE_DONE raised. -/
def execUpdateDone (clk : BitVec 11) (s : State) : Res State :=
  if s.tmc.updating && s.pwr.coreRun then
    let n := min clk.toNat 1600
    let s := { s.setRb Reg.TMC_STAT 0 false with tmc := { s.tmc with updating := false } }
    let s := s.setReg Reg.TMC_UPD_LAST (BitVec.ofNat 32 n)
    let s := if s.rf Reg.TMC_UPD_MAX 10 0 < n then s.setReg Reg.TMC_UPD_MAX (BitVec.ofNat 32 n) else s
    .next (s.raise 58 n)
  else .next s

end Sys2Proof.Machine
end

