-- ==== Sys2Proof/Machine/Modes.lean ====
section
/-! DEFINITION. Mode requests and transitions (03 R86–R92), the segment-map check (06 R198), switched functions under completion
before reversal (00 R15–R18), power domains (03 R118–R121), supplies, PLLs and the reference clock (03 R124, 21 R607). -/

-- one declaration at a time: many at once take a thread and its stack each
set_option Elab.async false

namespace Sys2Proof.Machine

namespace State

/-! ## The map check (06 R198) -/

/-- The code of the first check of 06 R198 that the active or the shadow set fails, 0 when it passes every check. -/
def mapErr (s : State) (sh : Bool) : Nat :=
  let o := if sh then 0x400 else 0
  let per := s.rf (Reg.SCN_PERIOD + o) 19 0
  let ofs := s.rf (Reg.SCN_APPLY_OFS + o) 19 0
  let role := fun k => s.rf (Reg.SCN_SEGMAP k + o) 15 14
  let ks := List.range 64
  if per < 50 ∨ 1000000 < per then 1
  else if per < s.rf (Reg.SCN_SAMPLE_LEAD + o) 19 0 + ofs then 2
  else if ofs < s.rf (Reg.SCN_DEADLINE + o) 19 0 + 6 then 3
  else if ks.any (fun k => role k == 3) then 4
  else if !s.isStn && ks.all (fun k => role k != 1) then 5
  else if 16 < (ks.filter fun k => role k == 2).length then 6
  else if ks.any (fun k => (role k == 1 || role k == 2) && !s.domOn (2 + k / 16)) then 7
  else if s.isStn && (decide (1 < (ks.filter fun k => role k == 1).length) || ks.any (fun k => role k == 2 || (role k == 1 && decide (16 ≤ k)))) then 8
  else if sh && s.modeIn [Mode.run, Mode.hold, Mode.syncing, Mode.tracking, Mode.stnRun, Mode.stnSafe] &&
      (s.reg (Reg.SCN_PERIOD + o) != s.reg Reg.SCN_PERIOD || s.reg (Reg.SCN_ORIGIN_LO + o) != s.reg Reg.SCN_ORIGIN_LO
        || s.reg (Reg.SCN_ORIGIN_HI + o) != s.reg Reg.SCN_ORIGIN_HI) then 9
  else 0

/-- SCN_STAT shows both results (06 R198, R238). -/
def mapCheck (s : State) : State :=
  let a := s.mapErr false
  let b := s.mapErr true
  (((s.setRb Reg.SCN_STAT 0 (a == 0)).setRb Reg.SCN_STAT 1 (b == 0)).setRf Reg.SCN_STAT 7 4 a).setRf Reg.SCN_STAT 11 8 b

/-! ## Requests (03 R86–R88, R91) -/

/-- The instants at which a requested transition takes effect (03 R91, last column). -/
inductive When where
  | now64
  | boundary
  deriving DecidableEq, Repr

/-- A partner is active on the twin link (03 rows 12, 13; 11 R388). -/
def partnerActive (s : State) : Bool := s.domOn 12 && s.rb Reg.TWN_STAT 0 && s.rb Reg.TWN_STAT 2

/-- The row with a request trigger from the current mode to `target` (03 R91): its number, whether its condition holds, the mode
entered, and when. A request for RUN while a partner is active is row 13 (11, "request RUN on it. It enters STANDBY-SYNCING (row 13)"); since row 13 lists the pair
of STOP and STANDBY-SYNCING, a request for STANDBY-SYNCING is taken for it too (DEDUCED, log 26). -/
def requestRow (s : State) (target : Nat) : Option (Nat × Bool × Nat × When) :=
  let m := s.mode
  let locked := !s.rb Reg.TIM_STAT 0 || s.rb Reg.SCN_LOCKPOLICY 0
  if (m = Mode.config ∨ m = Mode.stop ∨ m = Mode.stnSafe) ∧ target = Mode.service then some (7, true, target, .now64)
  else if m = Mode.service ∧ target = Mode.config then some (8, true, target, .now64)
  else if m = Mode.config ∧ target = Mode.stop then some (9, !s.isStn && s.mapErr false == 0, target, .now64)
  else if m = Mode.config ∧ target = Mode.stnSafe then some (10, s.isStn, target, .now64)
  else if m = Mode.stop ∧ target = Mode.config then some (11, true, target, .now64)
  else if m = Mode.stop ∧ target = Mode.run then
    if s.partnerActive then some (13, locked, Mode.syncing, .boundary) else some (12, locked, target, .boundary)
  else if m = Mode.stop ∧ target = Mode.syncing then some (13, locked && s.partnerActive, target, .boundary)
  else if m = Mode.run ∧ target = Mode.stop then some (14, true, target, .boundary)
  else if m = Mode.run ∧ target = Mode.hold then some (15, true, target, .boundary)
  else if m = Mode.hold ∧ target = Mode.run then some (16, !s.stby, target, .boundary)
  else if m = Mode.hold ∧ target = Mode.stop then some (17, !s.stby, target, .now64)
  else if m = Mode.safeHalt ∧ target = Mode.config then some (19, true, target, .now64)
  else if m = Mode.syncing ∧ target = Mode.stop then some (23, true, target, .now64)
  else if m = Mode.tracking ∧ target = Mode.stop then some (24, true, target, .boundary)
  else if m = Mode.stnRun ∧ target = Mode.stnSafe then some (29, true, target, .now64)
  else if (m = Mode.stnRun ∨ m = Mode.stnSafe) ∧ target = Mode.config then some (30, true, target, .now64)
  else none

/-- A request for a mode (03 R86, R87, R92): refused with BUSY while one is pending, with NOT_ALLOWED where no row lists the pair,
with CONDITION where the row's condition does not hold; otherwise PENDING. R92 lets RESULT read PENDING while a request is pending, and R86 shows the outcome of every
request there: that a refusal with BUSY is shown over the PENDING of the earlier request, until that one ends, is a DESIGN CHOICE (log 26). -/
def requestMode (s : State) (target : Nat) : State :=
  if s.sys.trans.any (·.request) then s.refuseMode target 3
  else match s.requestRow target with
  | none => s.refuseMode target 1
  | some (row, ok, goal, _) =>
    if !ok then s.refuseMode target 2
    else { s.modeStat target 1 0 with sys := { s.sys with trans := s.sys.trans ++ [⟨row, goal, s.mode, true, target⟩] } }

/-- START = RUN after BOOT (03 row 12, or row 13 where a partner is active): due in STOP once its condition holds. -/
def autoRun (s : State) : Option Trans :=
  match s.requestRow Mode.run with
  | some (row, true, target, _) => if s.mode = Mode.stop then some ⟨row, target, Mode.stop, false, target⟩ else none
  | _ => none

/-- The pending transition that the order of 03 R89 takes first: a trigger before a request; START = RUN last. A switch-over waits
for its boundary (11 R382). -/
def nextTrans (s : State) : Option Trans :=
  match s.sys.trans.find? fun t => !t.request && (t.row != 25 || s.twn.sw.any fun w => decide (s.boundaryAt w.b ≤ s.netT)) with
  | some t => some t
  | none =>
    match s.sys.trans.find? (·.request) with
    | some t => some t
    | none => if s.sys.auto then s.autoRun else none

/-! ## Switched functions (00 R15–R18) -/

/-- Numbers of switched functions: domains 0–14, the block of page p 100 + p, Rind channel c 200 + c. -/
abbrev fnPage (p : Nat) : Nat := 100 + p
abbrev fnChan (c : Nat) : Nat := 200 + c

def fn (s : State) (id : Nat) : Fn := Sparse.get (fun _ => {}) s.fns id
def setFn (s : State) (id : Nat) (f : Fn) : State := { s with fns := Sparse.set (fun _ => {}) s.fns id f }

/-- The page that owns a switched function (00 R15). -/
def fnOwner (id : Nat) : Nat := if id < 100 then 0x01 else if id < 200 then id - 100 else 0x15

/-- PAGE_STAT.BUSY of page `p`: a soft reset, a transition or a held request of a function the page owns (00 R18, 02 R54). -/
def syncBusy (s : State) (p : Nat) : State :=
  s.setRb (Reg.PAGE_STAT p) 1 (s.softRst.contains p || s.fns.any fun e => fnOwner e.1 == p && (e.2.toward.isSome || !e.2.held.isEmpty))

/-- A request to a function in transition or with requests held is held (00 R15, R16); a fifth is a host error (00 R17), after
which a free value says whether it replaces the newest one held or is lost (log 3). -/
def holdReq (s : State) (id t : Nat) : State :=
  let f := s.fn id
  if f.held.length < 4 then (s.setFn id { f with held := f.held ++ [t] }).syncBusy (fnOwner id)
  else
    let v := s.free
    if fld v.1 0 0 = 1 then v.2.setFn id { f with held := f.held.take 3 ++ [t] } else v.2

/-! ## Power domains (03 R118–R121) -/

/-- PWR_STATd.HELD shows the requests held (03 R118, R123). -/
def syncHeld (s : State) (d : Nat) : State := (s.setRf (Reg.PWR_STAT d) 5 3 (s.fn d).held.length).syncBusy 1

/-- What a domain loses when it is OFF: its memories, which read 0 with valid ECC when it comes up (01 R36, 03 R119). Registers keep
their values: no rule resets them but a reset (log 9). DBG_PC keeps the address at which a core stopped (06 R237). -/
def domLost (s : State) (d : Nat) : State :=
  if 2 ≤ d ∧ d ≤ 5 then
    let b := d - 2
    let s := s.clearMem (Key.scratch (17 * b)) (Key.scratch (17 * b + 17))
    (List.range 17).foldl (fun t j =>
      let p := 17 * b + j
      let c := t.core p
      let x := t.cx p
      let t := if c = {} then t else t.setCore p { c with run := .idle, swb := [], held := false, grace := 0, stop := none, credit := false }
      { t with ctxs := Sparse.clear t.ctxs (p * 8) (p * 8 + 8) }.setCx p { pc := x.pc }) s
  else if d = 6 ∨ d = 7 then
    (List.range 68).foldl (fun t p =>
      (t.clearMem (Key.instr p (d - 6) 0) (Key.instr p (d - 6) 0x4000)).clearMem (Key.const p (d - 6)) (Key.const p (d - 6) + 0x1000)) s
  else if d = 8 then
    let s := (((s.clearMem Key.input (Key.status + 0x400)).clearMem Key.exch (Key.exch + 0x2000)).clearMem Key.cells (Key.cells + 0x8000)).clearMem
      Key.pantry (Key.pantry + 0x400000)
    let s := ((s.clearMem Key.recv (Key.recv + 0x4000)).clearMem Key.publish (Key.publish + 0x4000)).clearMem Key.pendStat (Key.pendStat + 0x400)
    { s.clearMem Key.map (Key.map + 0x80000) with img := {}, tmc := {} }
  else if d = 14 then s.rindDrop
  else if d = 11 then (List.range 4).foldl (fun t n => t.clearMem (Key.can n) (Key.can n + 10240)) s
  else s

/-- Every lane of a Bunch whose domain leaves ON: a lock that it holds is broken (07 R269, cause 5), a transfer ends (R632). -/
def domLocks (s : State) (d : Nat) : State :=
  if 2 ≤ d ∧ d ≤ 5 then
    (List.range 17).foldl (fun t j => 
      ((List.range 8).foldl (fun t x => t.breakLock (17 * (d - 2) + j) x 5) t).dropTransfer (17 * (d - 2) + j)) s
  else s

/-- Domain `d` starts towards `target` (0 OFF, 1 RET, 2 ON) from its present end state (03 R118); where it is there already, nothing
starts. -/
def domStart (s : State) (d target : Nat) : State :=
  let cur := s.domState d
  let set := fun (s : State) v => (s.setRf (Reg.PWR_STAT d) 2 0 v).setFn d { s.fn d with toward := some target, base := cur }
  let s := if cur = 2 ∧ target ≠ 2 then (if d = 14 then s.rindStop else s.domLocks d) else s
  if target = 2 ∧ cur = 0 then (set s 1).syncHeld d
  else if target = 2 ∧ cur = 4 then (set s 5).syncHeld d
  else if target = 1 ∧ cur = 2 then (set s 3).syncHeld d
  else if target = 1 ∧ cur = 0 then (set s 1).syncHeld d
  else if target = 0 ∧ (cur = 2 ∨ cur = 4) then ((set s 6).syncHeld d).rndFault
  else s.syncHeld d

/-- A request that 03 R120 refuses; 01 R36 lets the shadow half leave ON only while no Graft is pending (DEDUCED, log 26). -/
def domRefused (s : State) (d target : Nat) : Bool :=
  let down := target != 2
  let cfg := s.modeIn [Mode.config, Mode.service]
  if target = 1 ∧ 8 ≤ d then true
  else if (d = 6 ∨ d = 7) ∧ down then decide (s.activeHalf = d - 6) || s.rf Reg.GRF_STAT 2 0 != 0
  else if 2 ≤ d ∧ d ≤ 5 ∧ down then
    (List.range 16).any (fun i => let r := s.laneRole (16 * (d - 2) + i); r == 1 || r == 2) && !s.modeIn [Mode.config, Mode.service, Mode.safeHalt]
  else if (d = 8 ∨ d = 9) ∧ target = 0 then !cfg
  else if d = 12 ∧ target = 0 then s.modeIn [Mode.syncing, Mode.tracking] || (s.mode == Mode.run && s.rb (Reg.PAGE_CTRL 0x0E) 0)
  else false

/-- A request for a state of domain `d` (03 R118–R121): refused, held, or started; PD14 ON waits for VFLD (R121). -/
def domRequest (s : State) (d target : Nat) : State :=
  if s.domRefused d target then
    (((s.wign 1).setReg Reg.PWR_DOMSEL_LAST (BitVec.ofNat 32 (d + 16 * target)))).raise 9 (d + 16 * target)
  else
    let f := s.fn d
    if f.toward.isSome ∨ !f.held.isEmpty ∨ (d = 14 ∧ target = 2 ∧ !s.pwr.vfldOk) then (s.holdReq d target).syncHeld d
    else s.domStart d target

/-- The end of domain `d`'s transition (03 R118): the new state and DOM_DONE; an OFF to RET request goes on with its second leg. PD14 goes OFF only after
the outputs' demagnetisation (03 R119); when it comes up the Rind starts in its safe state and takes its configuration again (14 R466; DEDUCED). When PD9 comes up, the
time base starts from 0 and asks for its load (12 R400). -/
def domDone (s : State) (d : Nat) : State :=
  let st := s.domState d
  let old := (s.fn d).base
  let new := if st = 1 ∨ st = 5 then 2 else if st = 3 then 4 else 0
  match (s.fn d).toward with
  | none => s
  | some target =>
    if d = 14 ∧ new = 0 ∧ s.rind.demag ≠ 0 then s
    else
    let s := s.setRf (Reg.PWR_STAT d) 2 0 new
    let s := if d = 14 ∧ new = 2 then s.rindStart.rndPushAll else if d = 9 ∧ new = 2 ∧ st = 1 then s.timFresh else s
    let s := if new = 0 then s.domLost d else s
    let s := s.setFn d { s.fn d with toward := none }
    let s := (s.raise 8 (d + 256 * old + 65536 * new)).rndFault
    let s := if target = 1 ∧ new = 2 then s.domStart d 1 else s
    s.syncHeld d

/-- A write of PWR_REQd; a request that is refused is ignored, and the register keeps its value (03 R120). TARGET = 3 is a host error that leaves the state of the
domain alone free (03 R125): a state to which it may go now, or none. -/
def domReqWrite (s : State) (d : Nat) (v : Word) : State :=
  let t := fld v 1 0
  if t = 3 then
    let f := (s.setReg (Reg.PWR_REQ d) 3).free
    let g := f.1.toNat % 4
    if g = 3 ∨ f.2.domRefused d g then f.2 else f.2.domRequest d g
  else if s.domRefused d t then s.domRequest d t
  else (s.setReg (Reg.PWR_REQ d) (BitVec.ofNat 32 t)).domRequest d t

/-- A domain is put into a state at once, with nothing in transition or held (resets, loss of supply). -/
def domForce (s : State) (d st : Nat) : State :=
  let s := if st = 0 ∧ s.domState d ≠ 0 then s.domLost d else s
  ((s.setReg (Reg.PWR_STAT d) (BitVec.ofNat 32 st)).setFn d {}).syncBusy 1

end State

/-! ## The commands -/

open State

/-- SYS_MODEREQ (03 R86). -/
def execSysModereq (ag : Agent) (v : Word) (s : State) : Res State :=
  .next (s.regWrite ag Reg.SYS_MODEREQ fun s => s.requestMode (fld v 3 0))

/-- MODE_CHANGE (03 R90): the pending transition that 03 R89 takes first takes effect; with none pending, nothing happens. -/
def execModeChange (s : State) : Res State :=
  match s.nextTrans with
  | none => .next s
  | some t => .next (s.changeMode t.target t.row)

/-- MAP_CHECK (06 R198). -/
def execMapCheck (s : State) : Res State := .next s.mapCheck

/-- DOMAIN_REQUEST (03 R118). Domains 0 and 1 have no request register. -/
def execDomainRequest (ag : Agent) (d : Fin 15) (v : Word) (s : State) : Res State :=
  if d.val < 2 then .next s else .next (s.regWrite ag (Reg.PWR_REQ d) (·.domReqWrite d v))

/-- DOM_DONE (03 R118). -/
def execDomDone (d : Fin 15) (s : State) : Res State := .next (s.domDone d)

/-- PLL_UNLOCK (03 R124, 15 R479): the core PLL's loss stops the core domain; another PLL's is counted and raises PLL_UNLOCK, with a
DETAIL the spec leaves open. -/
def execPllUnlock (p : Fin 6) (s : State) : Res State :=
  if p.val = 0 then .next { s.setRb Reg.CLK_LOCK 0 false with pwr := { s.pwr with coreRun := false } }
  else
    let s := if 4 ≤ p.val then let f := s.free; f.2.setRb Reg.CLK_REFSTAT (p - 2) (fld f.1 0 0 == 1) else s
    .next (((s.setRb Reg.CLK_LOCK p false).bump Reg.CLK_UNLOCK_CNT).raiseFree 13)

/-- PLL_LOCK (03 R124): the PLL is locked again; a SerDes PLL locks to a reference clock that is there (DEDUCED, log 26). -/
def execPllLock (p : Fin 6) (s : State) : Res State :=
  let s := s.setRb Reg.CLK_LOCK p true
  let s := if 4 ≤ p.val then s.setRb Reg.CLK_REFSTAT (p - 2) true else s
  .next (if p.val = 0 then { s with pwr := { s.pwr with coreRun := true } } else s)

/-- REF25_MEASUREMENT (03 R124): a measurement completes while the crystal runs. -/
def execRef25Measurement (ppm : Half) (s : State) : Res State :=
  if !s.rtc.xtal then .next s
  else
    let ok := decide (-2000 ≤ ppm.toInt) && decide (ppm.toInt ≤ 2000)
    .next ((s.setReg Reg.CLK_REF25PPM (ppm.setWidth 32)).setRb Reg.CLK_REFSTAT 0 ok)

/-- SUPPLY_WARN (21 R607): supply `i` is below its warning level; the spec gives DETAIL no content. -/
def execSupplyWarn (_i : Fin 6) (s : State) : Res State := .next (s.raiseFree 10)

/-- VBAT_LOW (21 R607). -/
def execVbatLow (s : State) : Res State := .next (s.raiseFree 11)

end Sys2Proof.Machine
end

