-- ==== Sys2Proof/Machine/Swap.lean ====
section
/-! DEFINITION. Page control (02 R53–R56), the configuration swap and copy (02 R60–R66), event control and the log (02 R67–R73). -/

-- one declaration at a time: many at once take a thread and its stack each
set_option Elab.async false

namespace Sys2Proof.Machine

namespace State

/-! ## Configuration swap and copy (02 R60–R66) -/

/-- The pages that take part in a swap (02 R66): SHADOW = 1 and SHD_PART = 1. -/
def swapPages (s : State) : List Nat :=
  [0x03, 0x04, 0x0A, 0x0B, 0x0D].filter fun p => (pageInfo p).shadow && s.rb (Reg.PAGE_CTRL p) 2

/-- The offset of an RS register of the active window of page `p`. -/
def isRs (p off : Nat) : Bool :=
  match target p off with
  | some t => t.row.rs && !t.shadow
  | none => false

/-- The RS word offsets of page `p`. -/
def rsOffs (p : Nat) : List Nat := (List.range 256).filterMap fun i => if isRs p (0x100 + 4 * i) then some (0x100 + 4 * i) else none

/-- Where a register key of page `p` goes in a swap: an RS register and its shadow copy change places (02 R61). -/
def swapKey (p k : Nat) : Nat :=
  if k / 0x1000 * 0x1000 = Reg.page p then
    let off := k % 0x1000
    if 0x100 ≤ off ∧ off < 0x500 ∧ isRs p off then k + 0x400
    else if 0x500 ≤ off ∧ off < 0x900 ∧ isRs p (off - 0x400) then k - 0x400
    else k
  else k

/-- The active and shadow contents of page `p` exchanged; SHD_SEQ counts and SHD_DIRTY clears (02 R61). -/
def swapPage (s : State) (p : Nat) : State :=
  let s := { s with regs := Sparse.insertAll regReset (s.regs.map fun (e : Nat × Word) => (swapKey p e.1, e.2)) [] }
  (s.setReg (Reg.SHD_SEQ p) (s.reg (Reg.SHD_SEQ p) + 1)).setRb (Reg.PAGE_STAT p) 2 false

/-- The active set of page `p` copied into its shadow window (02 R60); SHD_DIRTY clears (02 R53). -/
def copyPage (s : State) (p : Nat) : State :=
  ((rsOffs p).foldl (fun t o => t.setReg (Reg.page p + o + 0x400) (t.reg (Reg.page p + o))) s).setRb (Reg.PAGE_STAT p) 2 false

/-- Pending slots meet a new slot set: one that it disables, or that names another event there, is cleared and counted (09 R307). -/
def reslot (s : State) : State :=
  let bad := s.evt.slots.filter fun o => !s.slotNames o.2.1.toNat o.1
  { s with evt := { s.evt with slots := s.evt.slots.filter fun o => s.slotNames o.2.1.toNat o.1 } }.count Reg.EVT_TASK_OVR bad.length

/-- The swap of every participating page in one clk (02 R61), with what follows it: the slots (09 R307), and in STOP and SAFE-HALT a schedule that
restarts when the period or origin changed (06 R199). -/
def swapSets (s : State) : State :=
  let per := (s.reg Reg.SCN_PERIOD, s.reg64 Reg.SCN_ORIGIN_LO)
  let s := (s.swapPages.foldl (fun t p => t.swapPage p) s).reslot
  if s.modeIn [Mode.stop, Mode.safeHalt] ∧ (s.reg Reg.SCN_PERIOD, s.reg64 Reg.SCN_ORIGIN_LO) ≠ per then { s with scn := { s.scn with lastB := none } } else s

/-- A swap by GO or by a delta (02 R61): the full copy of a twin starts again (11 R386), and the next delta tells it (11 R364). -/
def configSwap (s : State) : State :=
  let s := s.swapSets.fcRestart 2
  { s with twn := { s.twn with swapped := true } }

/-- A swap waits (SYS_CFGSWAP.PEND, 02 R60). -/
def swapPend (s : State) : Bool := s.rb Reg.SYS_CFGSWAP 1
/-- SYS_CFGSWAP.COPY_BUSY. -/
def copyBusy (s : State) : Bool := s.rb Reg.SYS_CFGSWAP 3

/-- A Graft is arming, armed or applying (09 R295). -/
def grafting (s : State) : Bool := s.rf Reg.GRF_STAT 2 0 != 0

/-- A GO waits that was written after a Graft's swap, for the second boundary after it (09 R308). -/
def graftHold (s : State) : Bool := s.grf.goHold.isSome

/-- The modes in which a swap applies at a boundary (02 R62). -/
def swapAtBoundary (s : State) : Bool := s.modeIn [Mode.run, Mode.stnRun, Mode.stnSafe, Mode.hold]

/-- SYS_CFGSWAP.GO (02 R62, R63, 06 R199, 09 R295). -/
def swapGo (s : State) : State :=
  if s.modeIn [Mode.syncing, Mode.tracking] || s.swapPend || s.copyBusy || s.grafting then s.wign 0
  else
    let e := s.mapErr true
    if s.swapAtBoundary && e != 0 then (s.wign 0).raise 27 e
    else
      let s := (s.setRb Reg.SYS_CFGSWAP 1 true).setRb Reg.SYS_CFGSWAP 0 true
      { s with grf := { s.grf with goHold := s.grf.swapped } }

/-- SYS_CFGSWAP.COPY (02 R60, R63, 09 R295). -/
def swapCopy (s : State) : State :=
  if s.swapPend || s.copyBusy || s.grafting then s.wign 0 else s.setRb Reg.SYS_CFGSWAP 3 true

/-! ## Page control (02 R53–R55) -/

/-- What a soft reset of page `p` clears at its end (02 R54): the area at 0x900–0xFFF, EVT_RAW and with it EVT_PEND, and WIGN. Hidden counts
of the page go with their counters. -/
def softClear (s : State) (p : Nat) : State :=
  let lo := Reg.page p + 0x900
  let hi := Reg.page p + 0x1000
  let s := { s with regs := Sparse.clear s.regs lo hi, hidden := Sparse.clear s.hidden lo hi }
  (s.setReg (Reg.EVT_RAW p) 0).setRb (Reg.PAGE_STAT p) 3 false

/-- Clearing FREEZE adds the hidden counts of the page to its counters in one clk (02 R55). -/
def thaw (s : State) (p : Nat) : State :=
  let here := s.hidden.filter fun e => e.1 / 0x1000 * 0x1000 == Reg.page p
  let s := here.foldl (fun t e => t.setReg e.1 (t.reg e.1 + e.2)) s
  { s.setRb (Reg.PAGE_CTRL p) 3 false with hidden := s.hidden.filter fun e => e.1 / 0x1000 * 0x1000 != Reg.page p }

/-- A request for EN of page `p` (02 R53, 00 R15): the block with a transition of its own (CAN, ETH and RND, whose ends are commands) is in
transition until that command; any other block switches at once, since the spec gives its transition no time (log 11). READY follows
EN at the end. -/
def enRequest (s : State) (p : Nat) (en : Bool) : State :=
  if p = 0x16 ∨ p = 0x23 then s
  else
    let timed := (0x11 ≤ p ∧ p ≤ 0x15) ∨ (0x1E ≤ p ∧ p ≤ 0x21)
    let cur := s.rb (Reg.PAGE_CTRL p) 0
    if timed then
      let f := s.fn (fnPage p)
      if f.toward.isSome ∨ !f.held.isEmpty then (s.setRb (Reg.PAGE_CTRL p) 0 en).holdReq (fnPage p) (bn en)
      else if cur = en then s
      else
        let s := if p = 0x15 ∧ !en then { s.rindStop with rndQ := [] } else s
        ((((s.setRb (Reg.PAGE_CTRL p) 0 en).setRb (Reg.PAGE_STAT p) 0 (en && s.rb (Reg.PAGE_STAT p) 0)).setFn (fnPage p)
          { f with toward := some (bn en), held := [] }).syncBusy p).rndFault
    else (s.setRb (Reg.PAGE_CTRL p) 0 en).setRb (Reg.PAGE_STAT p) 0 (en && !s.softRst.contains p)

/-- SOFT_RST of page `p` (02 R54). -/
def softReset (s : State) (p : Nat) : State :=
  if !(pageInfo p).softrst || s.softRst.contains p then s.wign p
  else { s.setRb (Reg.PAGE_STAT p) 0 false with softRst := p :: s.softRst }.syncBusy p

/-! ## Event control and the log (02 R68, R70–R73) -/

/-- Writing 1 to an EVT_PEND bit clears it and its EVT_RAW bit, whatever the mask (02 R68). -/
def pendClear (s : State) (p : Nat) (v : Word) : State :=
  s.setReg (Reg.EVT_RAW p) (s.reg (Reg.EVT_RAW p) &&& ~~~ v)

/-- EVT_SWRAISE (02 R52): event 240 + i for each bit i, in rising order; with a reserved bit set, a free value says which of the sources addressed are
delivered (02 R81). The DETAIL of a lane-software event raised so is not given (log 10). -/
def swRaise (s : State) (v : Word) : State :=
  let w := if fld v 31 16 = 0 then (v, s) else let f := s.free; (v &&& f.1, f.2)
  (List.range 16).foldl (fun t i => if fld w.1 i i = 1 then t.raiseFree (240 + i) else t) w.2

/-- The 16 bytes of a log record (02 R74). -/
def logBytes (r : LogRec) : List Byte :=
  [r.source, r.flags] ++ ((List.range 2).map fun i => BitVec.ofNat 8 (r.seq.toNat / 256 ^ i))
    ++ ((List.range 8).map fun i => BitVec.ofNat 8 (r.time.toNat / 256 ^ i)) ++ ((List.range 4).map fun i => BitVec.ofNat 8 (r.detail.toNat / 256 ^ i))

/-- The log writer writes a record to the ring (02 R72) and to the PD0 tail (02 R73). -/
def logPut (s : State) (r : LogRec) : State :=
  let w := s.rf Reg.EVT_LOG_WIDX 9 0
  let u := s.rf Reg.EVT_LOG_WIDX 26 16
  let s := s.wrBytes (Key.ring + 16 * w) (logBytes r)
  let s := s.setRf Reg.EVT_LOG_WIDX 9 0 (w + 1)
  let s := if u < 1024 then s.setRf Reg.EVT_LOG_WIDX 26 16 (u + 1)
    else (s.bump Reg.EVT_LOG_OVWR).setRf Reg.EVT_LOG_RIDX 9 0 (s.rf Reg.EVT_LOG_RIDX 9 0 + 1)
  let i := s.rf Reg.EVT_TAIL_IDX 5 0
  let words := (List.range 4).map fun j => ((logBytes r).drop (4 * j)).foldr (fun b n => b.toNat + 256 * n) 0 % 2 ^ 32
  let s := (List.range 4).foldl (fun t j => t.setReg (Reg.EVT_TAIL (4 * i + j)) (BitVec.ofNat 32 (words.getD j 0))) s
  s.setRf Reg.EVT_TAIL_IDX 5 0 (i + 1)

/-- A host write of EVT_LOG_RIDX recomputes the unread count (02 R72). -/
def ridxWrite (s : State) (v : Word) : State :=
  let r := fld v 9 0
  let w := s.rf Reg.EVT_LOG_WIDX 9 0
  (s.setReg Reg.EVT_LOG_RIDX (BitVec.ofNat 32 r)).setRf Reg.EVT_LOG_WIDX 26 16 ((w + 1024 - r) % 1024)

/-- The transition of a block with one of its own ends (00 R15, R18): READY follows EN, BUSY clears unless a request is held. -/
def enDone (s : State) (p : Nat) : State :=
  let f := s.fn (fnPage p)
  match f.toward with
  | none => s
  | some t => ((s.setRb (Reg.PAGE_STAT p) 0 (t == 1 && !s.softRst.contains p)).setFn (fnPage p) { f with toward := none, base := t }).syncBusy p

/-- The Steward's write of OWNER while LOCK = 0; every other write is ignored with WIGN (02 R56). -/
def ownerPut (s : State) (ag : Agent) (p : Nat) (v : Word) : State :=
  if ag != .steward || s.rb (Reg.OWNER p) 31 then s.wign p
  else
    let m : Word := if p = 0x23 then 0x30 else 0x3F
    s.setReg (Reg.OWNER p) ((v &&& m) ||| (v &&& 0x80000000))

/-- A whole write of PAGE_CTRL (02 R53): SHD_PART, EN, FREEZE, SOFT_RST. When SOFT_RST clears itself is not said: it is never stored and reads 0, also
while the soft reset runs (DESIGN CHOICE, log 11). -/
def ctrlPut (s : State) (p : Nat) (v : Word) : State :=
  let s := if (pageInfo p).shadow then s.setRb (Reg.PAGE_CTRL p) 2 (fld v 2 2 == 1) else s
  let s := s.enRequest p (fld v 0 0 == 1)
  let s := if fld v 3 3 = 1 then s.setRb (Reg.PAGE_CTRL p) 3 true else s.thaw p
  if fld v 1 1 = 1 then s.softReset p else s

/-- A write of SYS_CFGSWAP; GO is taken before COPY (DEDUCED, log 33). -/
def cfgswapWrite (s : State) (v : Word) : State :=
  let s := if fld v 0 0 = 1 then s.swapGo else s
  if fld v 2 2 = 1 then s.swapCopy else s

end State

open State

/-! ## The commands -/

/-- A write of PAGE_CTRL that has a command of its own. -/
def ctrlWrite (ag : Agent) (p : Fin 37) (f : State → State) (s : State) : State := s.regWrite ag (Reg.PAGE_CTRL p) f

/-- BAR0WIN_WRITE (02 R45). -/
def execBar0winWrite (ag : Agent) (v : Word) (s : State) : Res State :=
  .next (s.regWrite ag Reg.HST_BAR0WIN fun s => s.setReg Reg.HST_BAR0WIN (BitVec.ofNat 32 (fld v 7 0)))

/-- SOFT_RST (02 R54). -/
def execSoftRst (ag : Agent) (p : Fin 37) (s : State) : Res State := .next (ctrlWrite ag p (·.softReset p) s)

/-- PAGE_ENABLE (02 R53, 00 R15). -/
def execPageEnable (ag : Agent) (p : Fin 37) (en : Bool) (s : State) : Res State := .next (ctrlWrite ag p (·.enRequest p en) s)

/-- FREEZE_SET (02 R55). A page without counters has no hidden ones to keep. -/
def execFreezeSet (ag : Agent) (p : Fin 37) (s : State) : Res State := .next (ctrlWrite ag p (·.setRb (Reg.PAGE_CTRL p) 3 true) s)

/-- FREEZE_CLEAR (02 R55). -/
def execFreezeClear (ag : Agent) (p : Fin 37) (s : State) : Res State := .next (ctrlWrite ag p (·.thaw p) s)

/-- OWNER_WRITE (02 R56). -/
def execOwnerWrite (ag : Agent) (p : Fin 37) (v : Word) (s : State) : Res State :=
  .next (s.guarded ag (Reg.OWNER p) fun s => ownerPut s ag p v)

/-- OWNER_LOCK (02 R56): LOCK written 1, the rights bits as they stand. -/
def execOwnerLock (ag : Agent) (p : Fin 37) (s : State) : Res State :=
  .next (s.guarded ag (Reg.OWNER p) fun s => ownerPut s ag p (s.reg (Reg.OWNER p) ||| 0x80000000))

/-- CFGSWAP_GO (02 R62). -/
def execCfgswapGo (ag : Agent) (s : State) : Res State := .next (s.regWrite ag Reg.SYS_CFGSWAP (·.swapGo))

/-- CONFIG_SWAP (02 R61, R62): a swap that is pending applies, in a mode whose swap waits for no boundary and that does not follow an active; a swap asked for
after a Graft's in STOP waits for its boundary (09 R308). Otherwise nothing happens here. -/
def execConfigSwap (s : State) : Res State :=
  if s.swapPend && !s.swapAtBoundary && !s.shut && !(s.graftHold && s.modeIn [Mode.stop, Mode.safeHalt]) && s.pwr.coreRun then .next ((s.configSwap.setRb Reg.SYS_CFGSWAP 1 false).setRb Reg.SYS_CFGSWAP 0 false) else .next s

/-- CFGSWAP_COPY (02 R60). -/
def execCfgswapCopy (ag : Agent) (s : State) : Res State := .next (s.regWrite ag Reg.SYS_CFGSWAP (·.swapCopy))

/-- COPY_DONE (02 R60): the copy of every participating page ends. -/
def execCopyDone (s : State) : Res State :=
  if s.copyBusy && s.pwr.coreRun then .next ((s.swapPages.foldl (fun t p => t.copyPage p) s).setRb Reg.SYS_CFGSWAP 3 false) else .next s

/-- EVT_PEND_CLEAR (02 R68). -/
def execEvtPendClear (ag : Agent) (p : Fin 37) (v : Word) (s : State) : Res State :=
  .next (s.regWrite ag (Reg.EVT_PEND p) (·.pendClear p v))

/-- EVT_SWRAISE (02 R52). -/
def execEvtSwraise (ag : Agent) (v : Word) (s : State) : Res State := .next (s.regWrite ag Reg.EVT_SWRAISE (·.swRaise v))

/-- LOG_WRITE (02 R72, R73): the oldest record of the log input queue is written; an empty queue, or a core clock that stands still, leaves the writer idle. -/
def execLogWrite (s : State) : Res State :=
  match s.evt.logq with
  | [] => .next s
  | r :: t => .next (if !s.pwr.coreRun then s else { s with evt := { s.evt with logq := t } }.logPut r)

/-- LOG_RIDX_WRITE (02 R72). -/
def execLogRidxWrite (ag : Agent) (v : Word) (s : State) : Res State := .next (s.regWrite ag Reg.EVT_LOG_RIDX (·.ridxWrite v))

/-- HELD_REQUEST_START (00 R15, R16): a function at an end state starts its oldest held request from there. A domain's follows 03 R118, R121;
a block's changes EN's transition; turning the Rind or a channel off starts with its outputs (14 R455). -/
def heldStart (s : State) (id : Nat) : State :=
  let f := s.fn id
  match f.toward, f.held with
  | none, t :: rest =>
    if id < 15 then
      if id = 14 ∧ t = 2 ∧ !s.pwr.vfldOk then s
      else ((s.setFn id { f with held := rest }).domStart id t).syncHeld id
    else if 200 ≤ id then
      let s := if t = 0 then s.chanDown (id - 200) else s
      ((s.setFn id { f with toward := if getB s.rind.chOn (id - 200) = (t == 1) then none else some t, held := rest }).syncBusy 0x15).setRb Reg.RND_CHBUSY (id - 200) (!rest.isEmpty)
    else if f.base = t then (s.setFn id { f with held := rest }).syncBusy (fnOwner id)
    else
      let s := if id = fnPage 0x15 ∧ t = 0 then { s.rindStop with rndQ := [] } else s
      (s.setFn id { f with toward := some t, held := rest }).syncBusy (fnOwner id)
  | _, _ => s

end Sys2Proof.Machine
end

