-- ==== Sys2Proof/Machine/Vuvas.lean ====
section
/-! DEFINITION. Vuvas, the controller's side (10 R317–R335, R342–R347): checks of a received frame, IN copies, the quality of stations at a
freeze, the frames a controller sends. -/

-- one declaration at a time: many at once take a thread and its stack each
set_option Elab.async false

namespace Sys2Proof.Machine

/-- A segment as received (10 R322). -/
structure VSeg where
  addr : Nat
  sflags : Nat
  data : List Byte
  deriving DecidableEq, Repr

/-- A Vuvas frame as received (10 R320). -/
structure VFrame where
  type : Nat
  flags : Nat
  src : Nat
  epoch : Nat
  seq : Nat
  time : Nat
  segs : List VSeg
  deriving DecidableEq, Repr

/-- `n` segments from offset `o` of a frame, and the offset after them; none where they run past its end (10 R322, R327 check 1). -/
def vuvSegs (f : List Byte) : Nat → Nat → Option (List VSeg × Nat)
  | 0, o => if o + 4 ≤ f.length ∧ o + 4 ≤ 1500 then some ([], o) else none
  | n + 1, o =>
    let len := ofBE (sub f (o + 2) 2)
    if f.length < o + 4 + len then none
    else match vuvSegs f n (o + 4 + len) with
    | none => none
    | some (l, e) => some (⟨byteAt f o, byteAt f (o + 1), sub f (o + 4) len⟩ :: l, e)

/-- SRC is one that R324 names for TYPE (10 R320, R327 check 3). -/
def vuvSrcOk (type src : Nat) : Bool :=
  if [1, 3, 4, 5, 7, 9].contains type then src == 0xF1 || src == 0xF2 else decide (1 ≤ src) && decide (src ≤ 128)

/-- Every segment names a station and has the length given. -/
def segsAre (len : Nat) (l : List VSeg) : Bool := l.all fun g => decide (1 ≤ g.addr) && decide (g.addr ≤ 128) && g.data.length == len

/-- Segment numbers strictly rise. -/
def ascending : List VSeg → Bool
  | a :: b :: t => decide (a.addr < b.addr) && ascending (b :: t)
  | _ => true

/-- NSEG, ADDR and LEN are as R324 allows for TYPE. -/
def vuvShapeOk (type src : Nat) (l : List VSeg) : Bool :=
  let own := fun len => l.length == 1 && segsAre len l && l.all fun g => g.addr == src
  match type with
  | 1 => decide (1 ≤ l.length) && decide (l.length ≤ 10) && segsAre 128 l && ascending l
  | 2 => own 128
  | 3 => l.length == 1 && l.all fun g => g.addr == 0 && g.data.length == 24
  | 4 => decide (l.length ≤ 64) && segsAre 0 l
  | 5 => decide (1 ≤ l.length) && decide (l.length ≤ 64) && segsAre 0 l
  | 6 => own 32
  | 7 => l.length == 1 && segsAre 272 l
  | 8 => own 48
  | 9 => l.isEmpty
  | _ => false

/-- How checks 1 to 3 of 10 R327 end. -/
inductive VCheck where
  | fmt
  | crc
  | ok (f : VFrame)
  deriving DecidableEq, Repr

/-- Checks 1 to 3 of 10 R327, in their order. -/
def vuvCheck (f : List Byte) : VCheck :=
  if f.length < 28 then .fmt
  else match vuvSegs f (byteAt f 16) 24 with
  | none => .fmt
  | some (segs, e) =>
    if ofBE (sub f e 4) ≠ (crc32c (f.take e)).toNat then .crc
    else
      let t := byteAt f 1
      let src := byteAt f 3
      if byteAt f 0 = 1 ∧ vuvSrcOk t src ∧ vuvShapeOk t src segs then
        .ok ⟨t, byteAt f 2, src, ofBE (sub f 4 2), ofBE (sub f 6 2), ofBE (sub f 8 8), segs⟩
      else .fmt

namespace State

/-! ## Reception (10 R327) -/

/-- A check 2 failure: counted, by a station also per network, and the first after a freeze raises RX_CRC (10 R327, R354). -/
def vuvCrc (s : State) (net : Net) : State :=
  let s := s.bump Reg.VUV_RX_CRC
  let s := if s.isStn then s.bump (match net with | .a => Reg.VUV_STN_CRCA | .b => Reg.VUV_STN_CRCB) else s
  if s.vuv.crc then s else { s.raise 74 (match net with | .a => 0 | .b => 1) with vuv := { s.vuv with crc := true } }

/-- Check 4: the types this device's role takes; a controller takes OUT frames of its partner only. -/
def vuvTakes (s : State) (f : VFrame) : Bool :=
  if s.isStn then [1, 3, 4, 5, 7, 9].contains f.type
  else [2, 6, 8].contains f.type || (f.type == 1 && f.src == (if s.unitB then 0xF1 else 0xF2))

/-- A frame received on a Vuvas port, from its destination address on: the EtherType, checks 1 to 4, counts, then `k` for a frame of type `want`. A PTP frame goes to the
time base (ETH_RX_FRAME); any other that is not Vuvas is discarded and counted (10 R318, R319). A frame on a network that is not enabled is none of Vuvas; where both networks share a port a free value says whether it is received (10 R355). VUV_RX_OK counts what passes the four checks
(DEDUCED). -/
def vuvRx (s : State) (net : Net) (f : List Byte) (want : Nat) (k : VFrame → State → State) : State :=
  if !s.netOn net then s
  else
    let c := if s.netClash then s.free else (1, s)
    if fld c.1 0 0 = 0 || !c.2.portTakes (c.2.netPort net) f then c.2
    else
      let s := c.2.bump (Reg.TLM_ETH_RX (c.2.netPort net))
      match s.vuvPart f with
      | none => if s.isPtp (s.netPort net) f then s else s.bump Reg.VUV_RX_OTHER
      | some p =>
        match vuvCheck p with
        | .fmt => s.bump Reg.VUV_RX_FMT
        | .crc => s.vuvCrc net
        | .ok v =>
          if !s.vuvTakes v then s
          else
            let s := s.bump (match net with | .a => Reg.VUV_RX_OK_A | .b => Reg.VUV_RX_OK_B)
            if v.type = want then k v s else s

/-! ## IN copies (10 R332, R333, R335, R345) -/

def stnRx (s : State) (b : Nat) : StnRx := Sparse.get (fun _ => {}) s.vuv.stns b
def setStnRx (s : State) (b : Nat) (r : StnRx) : State := { s with vuv := { s.vuv with stns := Sparse.set (fun _ => {}) s.vuv.stns b r } }

/-- DETAIL of a per-station event (10 R354). -/
abbrev stnDetail (s : State) (b : Nat) : Nat := b + 256 * (s.scn.cyc % 2 ^ 24)

/-- A copy has arrived on a network: its bit sets, raising NET_UP when it was clear (10 R335). -/
def netSeen (s : State) (net : Net) : State :=
  let s := { s with vuv := match net with | .a => { s.vuv with seenA := true } | .b => { s.vuv with seenB := true } }
  let i := match net with | .a => 2 | .b => 3
  if s.rb Reg.VUV_STAT i then s else (s.setRb Reg.VUV_STAT i true).raise 76 (i - 2)

/-- The join state that a copy written to the block reaches (10 R345): 3 on SAFE = 1 unless a RELEASE has been sent already, 0 on SAFE = 0. -/
def joinAfter (join : Nat) (safe : Bool) : Nat := if safe then (if join = 4 then 4 else 3) else 0

/-- An IN copy (10 R332, R333). `lands`: its block write ends before the next freeze (07 R250). -/
def inCopy (s : State) (net : Net) (f : VFrame) (lands : Bool) : State :=
  let b := f.src
  match f.segs with
  | [g] =>
    if !s.rb (Reg.VUV_STNCFG b) 0 || g.sflags / 2 % 2 == 0 then s
    else if s.scn.lastB.isNone || (s.scn.cyc + 1) % 65536 != f.seq then s.bump Reg.VUV_RX_SEQ
    else
      let s := s.netSeen net
      let pk := pstatKey b
      let bit : Byte := match net with | .a => 1 | .b => 2
      let r := s.stnRx b
      if r.seq = some (BitVec.ofNat 16 f.seq) then (s.wr (pk + 3) (s.rd (pk + 3) ||| bit)).bump Reg.VUV_RX_DUP
      else
        let s := (s.wr (pk + 3) (bit + (match net with | .a => 0 | .b => 4))).wrLE (pk + 4) 2 f.seq
        let safe := f.flags / 2 % 2 == 1
        let r := { r with seq := some (BitVec.ofNat 16 f.seq) }
        if lands then (s.setStnRx b { r with wrote := some safe, join := joinAfter r.join safe }).recvBlock b g.data
        else (s.setStnRx b r).recvLate b
  | _ => s

/-! ## HELLO and DIAG (10 R343, R325) -/

/-- VUV_HELLO_LAST and the UID. -/
def helloRec (s : State) (b uid : Nat) (acc : Bool) : State :=
  (s.setReg Reg.VUV_HELLO_LAST (BitVec.ofNat 32 (b + 256 * bn acc + 2 ^ 31))).setReg64 Reg.VUV_HELLO_UID_LO uid

/-- A HELLO (10 R343). A station without an earlier HELLO has no UID to differ from (DEDUCED). -/
def hello (s : State) (f : VFrame) : State :=
  let b := f.src
  let uid := match f.segs with | [g] => ofBE (sub g.data 0 8) | _ => 0
  if !s.rb (Reg.VUV_STNCFG b) 0 then s.helloRec b uid false
  else
    let r := s.stnRx b
    let q := (s.rd (statKey b)).toNat % 4
    let join := (s.rd (statKey b + 2)).toNat % 8
    let s := s.setStnRx b { r with uid := some (BitVec.ofNat 64 uid) }
    if join = 0 ∧ (q = 1 ∨ q = 2) ∧ (r.uid.map fun (u : DWord) => u.toNat != uid) = some true then
      (s.helloRec b uid false).raise 73 (s.stnDetail b)
    else
      let s := (s.helloRec b uid true).setStnRx b { s.stnRx b with join := 1 }
      { s.raise 69 (s.stnDetail b) with vuv := { s.vuv with confQ := s.vuv.confQ ++ [b] } }

/-- The service-RAM areas of Vuvas and the log ring, as (offset, length) (10 R352). -/
def vuvAreas (s : State) : List (Nat × Nat) :=
  [(s.rf Reg.VUV_CONFBASE 19 8 * 256, 0x8000), (s.rf Reg.VUV_DIAGBASE 19 6 * 64, 0x2000), (s.rf Reg.VUV_STN_INBUF 19 7 * 128, 128),
    (s.rf Reg.VUV_STN_OUTBUF 19 7 * 128, 128), (0xFC000, 0x4000)]

/-- Two of them overlap: a host error (10 R355). -/
def vuvOverlap (s : State) : Bool :=
  let l := s.vuvAreas
  (List.range 5).any fun i => (List.range i).any fun j =>
    let a := l.getD i (0, 0)
    let b := l.getD j (0, 0)
    decide (a.1 < b.1 + b.2) && decide (b.1 < a.1 + a.2)

/-- Bytes that the engine stores in service RAM from offset `o` on; free values while areas overlap (10 R355). Offsets count modulo 1 MiB. -/
def sramPut (s : State) (o : Nat) : List Byte → State
  | [] => s
  | b :: t =>
    let v := if s.vuvOverlap then (let f := s.free; (f.1.setWidth 8, f.2)) else (b, s)
    (v.2.wr (Key.sram + o % 0x100000) v.1).sramPut (o + 1) t

/-- A DIAG: its 48 bytes, TIME and SEQ are stored in the station's area (10 R352), TIME and SEQ as the frame spells them. -/
def diag (s : State) (f : VFrame) : State :=
  match f.segs with
  | [g] =>
    let o := s.rf Reg.VUV_DIAGBASE 19 6 * 64 + 64 * (f.src - 1)
    (s.sramPut o (g.data ++ beBytes 8 f.time ++ beBytes 2 f.seq)).raise 77 (s.stnDetail f.src)
  | _ => s

/-! ## The freeze (10 R334, R335, R345) -/

/-- What a freeze makes of the quality: Q and AGE (10 R334). -/
def quality (complete : Bool) (prevQ age lim : Nat) : Nat × Nat :=
  if complete then (1, 0)
  else
    let age' := min 255 (age + 1)
    if (prevQ = 1 ∨ prevQ = 2) ∧ age' ≤ lim then (2, age') else (3, age')

/-- The pending entry of station `b` as the freeze takes it (10 R334, R345; 07 R249), and its events. -/
def vuvFreezeStn (s : State) (b : Nat) : State :=
  let pk := pstatKey b
  let cfg := s.reg (Reg.VUV_STNCFG b)
  if !s.isStn && s.localBlk b then (s.wrLE pk 4 (9 + 16 * fld cfg 1 1)).wrLE (pk + 4) 2 0
  else if fld cfg 0 0 = 0 then (s.wrLE pk 4 (16 * fld cfg 1 1)).wrLE (pk + 4) 2 0
  else
    let k := statKey b
    let s := s.touch k
    let old := (s.rd k).toNat
    let r := s.stnRx b
    let q := quality (s.completeBlk b) (old % 4) (s.rd (k + 1)).toNat (s.rf Reg.VUV_STALE_LIM 7 0)
    let wasSafe := old / 4 % 2 == 1
    let safe := r.wrote.getD wasSafe
    let oldJoin := (s.rd (k + 2)).toNat % 8
    let s := ((s.wr pk (BitVec.ofNat 8 (q.1 + 4 * bn safe + 16 * fld cfg 1 1))).wr (pk + 1) (BitVec.ofNat 8 q.2)).wr (pk + 2) (BitVec.ofNat 8 r.join)
    let d := s.stnDetail b
    let s := if q.1 ≠ old % 4 then s.raise (63 + q.1) d else s
    let s := if safe ≠ wasSafe then s.raise (if safe then 67 else 68) d else s
    let s := if r.join = 3 ∧ oldJoin ≠ 3 then s.raise 71 d else s
    let done := !safe && r.relLeft.isSome
    let s := if done then s.setRb (Reg.VUV_REL ((b - 1) / 32)) ((b - 1) % 32) false else s
    s.setStnRx b { r with wrote := none, relLeft := if done then none else r.relLeft }

/-- A network without copies while the other has them (10 R335). -/
def netFreeze (s : State) (net : Net) : State :=
  let seen := match net with | .a => s.vuv.seenA | .b => s.vuv.seenB
  let other := match net with | .a => s.vuv.seenB | .b => s.vuv.seenA
  let put := fun (s : State) n => { s with vuv := match net with | .a => { s.vuv with missA := n } | .b => { s.vuv with missB := n } }
  if seen then put s 0
  else if other then
    let n := (match net with | .a => s.vuv.missA | .b => s.vuv.missB) + 1
    let s := put s n
    let i := match net with | .a => 2 | .b => 3
    if max 1 (s.rf Reg.VUV_NETLOSS_LIM 7 0) ≤ n ∧ s.rb Reg.VUV_STAT i then (s.setRb Reg.VUV_STAT i false).raise 75 (i - 2) else s
  else s

/-- The Vuvas engine just before the freeze takes the pending entries: every entry, both networks. -/
def vuvFreeze (s : State) : State :=
  let s := (List.range 128).foldl (fun t i => t.vuvFreezeStn (i + 1)) s
  let s := (s.netFreeze .a).netFreeze .b
  { s with vuv := { s.vuv with seenA := false, seenB := false, crc := false, confN := 0, outDone := false, schedSent := false, safeSent := false } }

/-- The word of a station bitmap register `m` (10 R352). -/
def stnBits (p : Nat → Bool) (m : Nat) : Word :=
  BitVec.ofNat 32 ((List.range 32).foldl (fun n j => if p (statKey (32 * m + j + 1)) then n + 2 ^ j else n) 0)

/-- After the freeze: the bitmaps of the status table, and pending entries without copies seen for the next cycle. -/
def vuvFrozen (s : State) : State :=
  let q := fun k => (s.rd k).toNat % 4
  let t := (List.range 4).foldl (fun t m =>
    (((t.setReg (Reg.VUV_GOOD m) (stnBits (fun k => q k == 1) m)).setReg (Reg.VUV_BAD m) (stnBits (fun k => q k == 3) m)).setReg
      (Reg.VUV_SAFE m) (stnBits (fun k => (s.rd k).toNat / 4 % 2 == 1) m)).setReg (Reg.VUV_JOIN m) (stnBits (fun k => (s.rd (k + 2)).toNat % 8 != 0) m)) s
  (List.range 128).foldl (fun t i => t.wr (pstatKey (i + 1) + 3) 0) t

/-! ## OUT frames (10 R328–R331) -/

/-- The stations with EN = 1, ascending (10 R329). -/
def enabledStns (s : State) : List Nat := (List.range 128).filterMap fun i => if s.rb (Reg.VUV_STNCFG (i + 1)) 0 then some (i + 1) else none

/-- A list in pieces of `k`, the last perhaps shorter; `fuel` bounds the number of pieces. -/
def pieces {α : Type} (k : Nat) : Nat → List α → List (List α)
  | 0, _ => []
  | fuel + 1, l => if l.isEmpty then [] else l.take k :: pieces k fuel (l.drop k)

/-- Bytes on the wire of a frame with `n` segments of `len` data bytes (10, "Frame sizes"). -/
def wireBytes (s : State) (n len : Nat) : Nat := 38 + max 46 (28 + (4 + len) * n) + (if s.rb Reg.VUV_CFG 6 then 4 else 0)

/-- The OUT frames of cycle `n` whose T_apply is `time`, with the output blocks from memory key `base` on (10 R329–R331). OUTSEG outside 1–10 is a host error: the number of
segments per frame is free (10 R355). Answers the bytes on the wire per network. -/
def outFrames (s : State) (base flags n time : Nat) : Nat × State :=
  let o := s.rf Reg.VUV_CFG 11 8
  let c := if 1 ≤ o ∧ o ≤ 10 then (o, s) else (let f := s.free; (f.1.toNat % 10 + 1, f.2))
  let s := c.2
  let fr := pieces c.1 128 s.enabledStns
  let s' := fr.foldl (fun t l =>
    t.vuvSend 0x01 flags t.epoch (n % 65536) (time % 2 ^ 64) (l.map fun b => segBytes b 0 (t.rdBytes (base + (b - 1) * 128) 128))) (s.touchBlocks base s.enabledStns)
  ((fr.map fun l => s.wireBytes l.length 128).sum, s')

/-- A twin that may send OUT frames: the lead in RUN or in the cycles of HOLD, or a standby in STANDBY-TRACKING (10 R328, 11 R361). -/
def mayPublish (s : State) : Bool := (s.lead && s.modeIn [Mode.run, Mode.hold]) || s.mode == Mode.tracking

/-- PUB_LATE (10 R354): the last OUT frame ends after T_apply; known at T_apply, or at PUBLISH where that comes after it. -/
def pubLate (s : State) (now : Bool) : State :=
  if now && decide (s.scn.tn + s.rf Reg.SCN_APPLY_OFS 19 0 * 1000 < s.vuv.pubEnd) then s.raise 78 (s.scn.cyc % 2 ^ 32) else s

/-- The OUT frames at PUBLISH (10 R328, R329), REPEAT ones with `rep`. The last ends after a start delay of at most 3 µs, which the spec leaves open (a
free value), and the time of the bytes at 8 ns each; VUV_PUB_LAST and VUV_PUB_MAX show it. RELEASE requests that stand now are due in this cycle's
control frames (10 R346). -/
def publishOut (s : State) (base : Nat) (rep : Bool) : State :=
  let s := { s with vuv := { s.vuv with outDone := true, relDue := (List.range 128).filterMap fun i => if s.rb (Reg.VUV_REL (i / 32)) (i % 32) then some (i + 1) else none } }
  if s.mayPublish then
    let r := s.outFrames base (8 * bn rep + 16 * bn s.lead) s.scn.cyc (s.scn.tn + s.rf Reg.SCN_APPLY_OFS 19 0 * 1000)
    if r.1 = 0 then r.2
    else
      let f := r.2.free
      let ns := f.1.toNat % 3001 + 8 * r.1
      let s := f.2.setReg Reg.VUV_PUB_LAST (BitVec.ofNat 32 (ns % 2 ^ 24))
      let s := if s.rf Reg.VUV_PUB_MAX 23 0 < ns % 2 ^ 24 then s.setReg Reg.VUV_PUB_MAX (BitVec.ofNat 32 (ns % 2 ^ 24)) else s
      { s with vuv := { s.vuv with pubEnd := s.netT + ns }, scn := { s.scn with outSent := true } }.pubLate s.scn.applied
  else s

/-- The keep-alive of HOLD at boundary `n` (06 R229, 10 R328): OUT frames flagged HOLD from the publish buffer, or a SAFE frame for all stations from
the lead. -/
def holdFrames (s : State) (n : Nat) : State :=
  let s := { s with vuv := { s.vuv with outDone := true, schedSent := false, safeSent := true } }
  if s.rb Reg.SCN_HOLDCFG 0 then (if s.lead then s.ctlSend 0x04 [] else s)
  else if s.lead || s.stby then (s.outFrames Key.publish (1 + 16 * bn s.lead) n (s.applyAt n)).2
  else s

/-! ## Control frames (10 R328, R343, R346, R347) -/

/-- SCHED data (10 R325). -/
def schedData (s : State) : List Byte :=
  beBytes 8 (s.reg64 Reg.SCN_ORIGIN_LO) ++ beBytes 4 (s.rf Reg.SCN_PERIOD 19 0) ++ beBytes 4 (s.rf Reg.SCN_SAMPLE_LEAD 19 0)
    ++ beBytes 4 (s.rf Reg.SCN_APPLY_OFS 19 0) ++ beBytes 4 0

/-- Control frames may leave: they follow the last OUT frame of the cycle where the mode sends OUT frames (10 R328). -/
def ctlTurn (s : State) : Bool := s.vuv.outDone || s.modeIn [Mode.stop, Mode.safeHalt]

/-- A SCHED is due (10 R328): in RUN in each cycle whose number is a multiple of VUV_SCHED_DIV, in HOLD, STOP and SAFE-HALT in each; one a cycle. -/
def schedDue (s : State) : Bool :=
  s.lead && s.ctlTurn && !s.vuv.schedSent && ((s.mode == Mode.run && s.scn.cyc % max 1 (s.rf Reg.VUV_SCHED_DIV 7 0) == 0) || s.modeIn [Mode.hold, Mode.stop, Mode.safeHalt])

/-- SAFE frames (10 R328, R347; 06 R218): for all stations in STOP and SAFE-HALT, and in HOLD with HOLD_OUT = 1, one a cycle; in RUN for the stations requested, 64
a frame at most, whose bits then clear. -/
def safeTx (s : State) : State :=
  if !s.lead || !s.ctlTurn then s
  else if s.modeIn [Mode.stop, Mode.safeHalt] || (s.mode == Mode.hold && s.rb Reg.SCN_HOLDCFG 0) then
    if s.vuv.safeSent && !s.scn.safeOut then s
    else { s.ctlSend 0x04 [] with scn := { s.scn with safeOut := false }, vuv := { (s.ctlSend 0x04 []).vuv with safeSent := true } }
  else if s.mode = Mode.run then
    let l := (List.range 128).filterMap fun i => if s.rb (Reg.VUV_SAFEREQ (i / 32)) (i % 32) then some (i + 1) else none
    let s := (pieces 64 2 l).foldl (fun t p => t.ctlSend 0x04 (p.map fun b => segBytes b 0 [])) s
    (List.range 4).foldl (fun t m => t.setReg (Reg.VUV_SAFEREQ m) 0) s
  else s

/-- The station's RELEASE is sent once more (10 R346); JOIN 4 follows a JOIN of 3 that the status entry shows (R345). -/
def releaseOne (s : State) (b : Nat) : State :=
  let r := s.stnRx b
  let s := if r.relLeft.isNone then s.raise 72 (s.stnDetail b) else s
  let left := r.relLeft.getD (max 1 (s.rf Reg.VUV_REL_REP 3 0)) - 1
  let s := if left = 0 then s.setRb (Reg.VUV_REL ((b - 1) / 32)) ((b - 1) % 32) false else s
  s.setStnRx b { r with relLeft := if left = 0 then none else some left, join := if r.join = 3 ∧ (s.rd (statKey b + 2)).toNat % 8 = 3 then 4 else r.join }

/-- RELEASE frames of this cycle (10 R346), 64 stations a frame at most. -/
def releaseTx (s : State) : State :=
  if s.lead && s.mode == Mode.run && s.ctlTurn then
    let l := s.vuv.relDue.filter fun b => s.rb (Reg.VUV_REL ((b - 1) / 32)) ((b - 1) % 32)
    let s := (pieces 64 2 l).foldl (fun t p => t.ctlSend 0x05 (p.map fun b => segBytes b 0 [])) s
    let s := l.foldl (fun t b => t.releaseOne b) s
    { s with vuv := { s.vuv with relDue := [] } }
  else s

/-- The data of a CONF for station `b` (10 R325, R343). -/
def confData (s : State) (b : Nat) : List Byte :=
  let cfg := s.reg (Reg.VUV_STNCFG b)
  let o := s.rf Reg.VUV_CONFBASE 19 8 * 256 + 256 * (b - 1)
  let head := beBytes 1 (max 2 (fld cfg 15 8)) ++ beBytes 1 0 ++ beBytes 2 (s.rf Reg.VUV_DIAG_DIV 15 0)
  let tail := (List.range 256).map fun i => s.rd (Key.sram + (o + i) % 0x100000)
  head ++ beBytes 8 (crc64 (head ++ beBytes 4 0 ++ tail)).toNat ++ beBytes 4 0 ++ tail

/-- The oldest queued CONF is sent, four a cycle at most (10 R343). -/
def confTx (s : State) : State :=
  if s.lead && s.modeIn [Mode.run, Mode.stop, Mode.safeHalt] && s.ctlTurn && decide (s.vuv.confN < 4) then
    match s.vuv.confQ with
    | [] => s
    | b :: t =>
      let s := s.ctlSend 0x07 [segBytes b 0 (s.confData b)]
      let r := s.stnRx b
      let s := s.setStnRx b { r with join := if r.join = 1 then 2 else r.join }
      { s.raise 70 (s.stnDetail b) with vuv := { s.vuv with confQ := t, confN := s.vuv.confN + 1 } }
  else s

end State

open State

/-! ## The commands -/

/-- NON_VUVAS_FRAME (10 R319): a frame on a Vuvas port that is neither Vuvas nor PTP is discarded and counted. -/
def execNonVuvasFrame (net : Net) (s : State) : Res State :=
  .next (if s.netOn net then (s.bump (Reg.TLM_ETH_RX (s.netPort net))).bump Reg.VUV_RX_OTHER else s)

/-- IN_FRAME_RX (10 R332). -/
def execInFrameRx (net : Net) (f : List Byte) (lands : Bool) (s : State) : Res State :=
  .next (s.vuvRx net f 2 fun v s => s.inCopy net v lands)

/-- HELLO_RX (10 R343). -/
def execHelloRx (net : Net) (f : List Byte) (s : State) : Res State := .next (s.vuvRx net f 6 fun v s => s.hello v)

/-- DIAG_RX (10 R325, R352). -/
def execDiagRx (net : Net) (f : List Byte) (s : State) : Res State := .next (s.vuvRx net f 8 fun v s => s.diag v)

/-- SCHED_TX (10 R328). -/
def execSchedTx (s : State) : Res State :=
  .next (if s.schedDue then (let t := s.ctlSend 0x03 [segBytes 0 0 s.schedData]; { t with vuv := { t.vuv with schedSent := true } }) else s)

/-- SAFE_TX (10 R328, R347). -/
def execSafeTx (s : State) : Res State := .next s.safeTx

/-- RELEASE_TX (10 R346). -/
def execReleaseTx (s : State) : Res State := .next s.releaseTx

/-- CONF_TX (10 R343). -/
def execConfTx (s : State) : Res State := .next s.confTx

/-- RELEASE_REQUEST (10 R346): bits written 1 are set. -/
def execReleaseRequest (ag : Agent) (m : Fin 4) (v : Word) (s : State) : Res State :=
  .next (s.regWrite ag (Reg.VUV_REL m) fun s => s.setReg (Reg.VUV_REL m) (s.reg (Reg.VUV_REL m) ||| v))

/-- SAFE_REQUEST (10 R347). -/
def execSafeRequest (ag : Agent) (m : Fin 4) (v : Word) (s : State) : Res State :=
  .next (s.regWrite ag (Reg.VUV_SAFEREQ m) fun s => s.setReg (Reg.VUV_SAFEREQ m) (s.reg (Reg.VUV_SAFEREQ m) ||| v))

end Sys2Proof.Machine
end

