-- ==== Sys2Proof/Machine/Twin.lean ====
section
/-! DEFINITION. Twin redundancy (11): the link and its records, the lead, deltas, digests, switch-over and the full copy. What a boundary does is in
Cycle.lean. -/

-- one declaration at a time: many at once take a thread and its stack each
set_option Elab.async false

namespace Sys2Proof.Machine

/-- A record of the twin link as received (11 R359). -/
structure TRec where
  type : Nat
  flags : Nat
  seq : Nat
  addr : Nat
  data : List Byte
  deriving DecidableEq, Repr

/-- Payload length of a record type (11 R359). -/
def twnLen (type : Nat) : Option Nat :=
  match type with
  | 1 => some 16
  | 2 => some 16
  | 3 => some 64
  | 4 => some 8
  | 5 => some 0
  | 6 => some 8
  | 7 => some 64
  | 8 => some 16
  | 9 => some 16
  | _ => none

/-- A record whose CRC is right and whose length is its type's. -/
def twnParse (r : List Byte) : Option TRec :=
  match twnLen (byteAt r 0) with
  | none => none
  | some n =>
    if r.length = 12 + n ∧ ofLE (r.drop (8 + n)) = (crc32c (r.take (8 + n))).toNat then
      some ⟨byteAt r 0, byteAt r 1, ofLE (sub r 2 2), ofLE (sub r 4 4), sub r 8 n⟩
    else none

namespace State

/-- A record received (11 R358): one whose CRC fails is discarded and counted, raising LINK_ERR once a cycle; `k` for a record of type `want`. With EN = 0 or
PD12 not ON the link is ignored (11 R356, R360). -/
def twnRx (s : State) (r : List Byte) (want : Nat) (k : TRec → State → State) : State :=
  if !s.twnOn then s
  else match twnParse r with
  | none =>
    let s := s.bump Reg.TWN_REC_CRC
    if s.twn.linkErr then s else { s.raise 111 (byteAt r 0 % 16) with twn := { s.twn with linkErr := true } }
  | some t => if t.type = want then k t s else s

/-- The device follows its active: STANDBY-TRACKING, or HOLD entered from it. -/
def following (s : State) : Bool := s.mode == Mode.tracking || (s.mode == Mode.hold && s.stby)
/-- SYNCED (11 R388): this twin follows its active, or leads one that does. -/
def synced (s : State) : Bool := s.following || (s.lead && s.partnerTracking)

/-- Loss of step of a standby: to STANDBY-SYNCING at once, by row 22 or, from HOLD, row 32 (11 R374; 03 R85). -/
def dropOut (s : State) : State :=
  if s.mode = Mode.tracking then s.changeMode Mode.syncing 22
  else if s.mode = Mode.hold ∧ s.stby then s.changeMode Mode.syncing 32
  else s

/-- DIVERGE detected by this twin with its consequence (11 R374). -/
def diverge (s : State) (cause : Nat) : State := (s.divergeHere cause).dropOut

/-! ## Heartbeats and the link (11 R360) -/

/-- The HB payload. -/
def hbData (s : State) : List Byte :=
  leBytes 1 s.mode ++ leBytes 1 (bn s.lead + 2 * bn s.synced + 16) ++ leBytes 2 s.epoch ++ leBytes 6 s.scn.cyc ++ leBytes 1 (bn s.unitB)
    ++ leBytes 1 (s.rf Reg.GRF_STAT 2 0) ++ leBytes 4 0

/-- A partner's claim to the lead (11 R363). Twins strapped with one UNIT_ID are a host error: a free value then decides at equal epoch (11 R390). -/
def dualClaim (s : State) (epoch : Nat) (sameUnit : Bool) : State :=
  if !s.lead || s.sys.trans.any (·.row == 26) then s
  else
    let d := (epoch + 65536 - s.epoch) % 65536
    let c := if d = 0 ∧ sameUnit then (let f := s.free; (fld f.1 0 0 == 1, f.2)) else (if d = 0 then s.unitB else decide (d ≤ 32767), s)
    let s := c.2.raise 101 (bn c.1 + 65536 * epoch)
    if !c.1 then s
    else
      let s := s.bump Reg.TWN_CLAIM_LOST
      if s.mode = Mode.run then { s with sys := { s.sys with trans := s.sys.trans ++ [⟨26, Mode.syncing, Mode.run, false, 0⟩] } } else s.setLead false

/-- A valid HB (11 R360, R362): the link comes up with the fourth in a row; what it says of the partner is kept; a twin without the lead takes over the
epoch of a partner that has it (DEDUCED: its OUT frames carry the lead epoch, 10 R336). -/
def hb (s : State) (r : TRec) : State :=
  if byteAt r.data 1 / 16 ≠ 1 then { s with twn := { s.twn with hbGood := 0 } }
  else
    let s := { s with twn := { s.twn with hbGood := min 4 (s.twn.hbGood + 1) } }
    let s := if s.twn.hbGood = 4 ∧ !s.rb Reg.TWN_STAT 0 then (s.setRb Reg.TWN_STAT 0 true).raise 96 0 else s
    let pl := byteAt r.data 1 % 2 == 1
    let ep := ofLE (sub r.data 2 2)
    let s := (s.setRb Reg.TWN_STAT 2 pl).setRf Reg.TWN_STAT 7 4 (byteAt r.data 0)
    let s := s.setReg Reg.TWN_PARTNER (BitVec.ofNat 32 (ep + 65536 * ofLE (sub r.data 4 2)))
    let s := { s with grf := { s.grf with partnerArmed := byteAt r.data 11 == 2 } }
    if pl then
      let s := { s with twn := { s.twn with claim := true } }
      if s.lead then s.dualClaim ep (byteAt r.data 10 == bn s.unitB) else s.setEpoch ep
    else s

/-- The link is lost (11 R360, R377, R386). -/
def linkLost (s : State) : State :=
  if !s.rb Reg.TWN_STAT 0 then s
  else
    let s := (s.setRb Reg.TWN_STAT 0 false).raise 97 0
    let s := { s with twn := { s.twn with hbGood := 0 } }.fcRestart 1
    if (s.mode == Mode.tracking && s.twn.outSeen) || (s.mode == Mode.hold && s.stby) then (s.setRf Reg.TWN_STAT 15 12 11).dropOut else s

/-- A partner's OUT frame that has passed R327 (11 R362, R363, R376, R377). -/
def partnerOut (s : State) (f : VFrame) : State :=
  if !s.rb (Reg.PAGE_CTRL 0x0E) 0 then s
  else
    let act := f.flags / 16 % 2 == 1
    let s := s.setReg Reg.TWN_PARTNER (BitVec.ofNat 32 (f.epoch + 65536 * f.seq))
    let s := { s with twn := { s.twn with outSeen := true, claim := s.twn.claim || act } }
    let s := if act then s.dualClaim f.epoch false else s
    if s.mode = Mode.tracking ∧ !s.rb Reg.TWN_STAT 0 then (s.setRf Reg.TWN_STAT 15 12 11).dropOut else s

/-- A pulse on TAKE_IN (11 R357, R377). -/
def takeIn (s : State) : State :=
  if !s.rb (Reg.PAGE_CTRL 0x0E) 0 then s
  else
    let s := s.bump Reg.TWN_TAKEIN_CNT
    if s.mode = Mode.tracking then { s with twn := { s.twn with takeIn := true } }
    else if s.mode = Mode.syncing then (s.changeMode Mode.stop 23).raise 110 (s.scn.cyc % 2 ^ 32)
    else s.raise 109 s.mode

/-! ## The lead (11 R362) -/

/-- The lead is acquired; `takeover`: LEAD_TAKEN is not raised. -/
def acquireLead (s : State) (takeover : Bool) : State :=
  let e := (max (s.rf Reg.TWN_EPOCH 15 0) (s.rf Reg.TWN_PARTNER 15 0) + 1) % 65536
  let s := ((s.setReg Reg.TWN_EPOCH (BitVec.ofNat 32 e)).setEpoch e).setLead true
  let s := s.ctlSend 0x09 []
  if takeover then s else s.raise 100 e

/-! ## Lines of memory by SPACE (11 R359) -/

/-- Memory key of a line of spaces 0 to 5. -/
def lineKey (space i : Nat) : Nat :=
  (match space with
    | 0 => Key.input
    | 1 => Key.output
    | 2 => Key.status
    | 3 => Key.exch
    | 4 => Key.pantry
    | _ => Key.cells) + 64 * i

/-- Lines a space has. -/
def spaceLines (space : Nat) : Nat :=
  match space with
  | 0 => 256
  | 1 => 256
  | 2 => 16
  | 3 => 128
  | 4 => 65536
  | 5 => 512
  | 6 => 64 * 768
  | 7 => 64 * 64
  | 8 => 37 * 16
  | _ => 0

/-- Key of byte `j` of the packed words of an instruction half: three bytes a word (09 R294). -/
def instrByte (p h j : Nat) : Nat := Key.instr p h (j / 3) + j % 3

/-- The 64 bytes of a line as the active sends it. -/
def lineRead (s : State) (space i : Nat) : List Byte :=
  match space with
  | 5 => (List.range 8).flatMap fun c => leBytes 6 (s.cellCount (8 * i + c)) ++ s.rdBytes (cellKey (8 * i + c) + 6) 2
  | 6 => (List.range 64).map fun j => s.rd (instrByte (s.physOf (i / 768)) s.activeHalf (64 * (i % 768) + j))
  | 7 => s.rdBytes (Key.const (s.physOf (i / 64)) s.activeHalf + 64 * (i % 64)) 64
  | 8 => (List.range 16).flatMap fun j => leBytes 4 (s.reg (Reg.page (i / 16) + 0x100 + 64 * (i % 16) + 4 * j)).toNat
  | _ => s.rdBytes (lineKey space i) 64

/-- The engine reads a line of the memories with check bits (07 R253, R254): spaces 0 to 4. -/
def lineTouch (s : State) (space i : Nat) : State := if space < 5 then s.touchRange (lineKey space i) (lineKey space i + 64) else s

/-- A line sent in a record of type `ty`. -/
def lineSend (s : State) (ty : Nat) (l : Nat × Nat) : State :=
  let t := s.lineTouch l.1 l.2
  t.twnSend ty 0 (l.1 * 2 ^ 28 + l.2) (t.lineRead l.1 l.2)

/-- A configuration register of the active window written by a record: its RW bits take the value. -/
def cfgPut (s : State) (p off : Nat) (v : Word) : State :=
  match target p off with
  | some t => if t.shadow || t.row.rw = 0 then s else s.setReg (Reg.page p + off) (v &&& BitVec.ofNat 32 t.row.rw)
  | none => s

/-- A line written by a standby (11 R365, R383). -/
def lineWrite (s : State) (space i : Nat) (bs : List Byte) : State :=
  if spaceLines space ≤ i then s
  else match space with
  | 5 =>
    let s := s.wrLines (lineKey 5 i) bs
    (List.range 8).foldl (fun t c =>
      let n := 8 * i + c
      t.setCellBase n (if t.cellFree n then (t.netUs : Int) - (t.rdLE (cellKey n) 6 : Int) else 0)) s
  | 6 => (List.range 64).foldl (fun t j => t.wr (instrByte (t.physOf (i / 768)) t.activeHalf (64 * (i % 768) + j)) (bs.getD j 0)) s
  | 7 => s.wrBytes (Key.const (s.physOf (i / 64)) s.activeHalf + 64 * (i % 64)) (bs.take 64)
  | 8 => (List.range 16).foldl (fun t j => t.cfgPut (i / 16) (0x100 + 64 * (i % 16) + 4 * j) (BitVec.ofNat 32 (ofLE (sub bs (4 * j) 4)))) s
  | _ => s.wrLines (lineKey space i) (bs.take 64)

/-! ## Deltas (11 R364–R367) -/

/-- The lines of a space whose content differs between two states. -/
def changedLines (old new : State) (space n : Nat) : List Nat :=
  (List.range n).filter fun i => old.rdBytes (lineKey space i) 64 != new.rdBytes (lineKey space i) 64

/-- The delta of the cycle that has just been frozen (11 R364, R367); `old`: the state before the freeze; `first`: the partner has become a standby at this
boundary, which its heartbeats do not say yet (11 R382, R385). -/
def deltaTx (s old : State) (held first : Bool) : State :=
  if s.lead && s.modeIn [Mode.run, Mode.hold] && s.twnOn && s.rb Reg.TWN_STAT 0 && (first || s.partnerTracking || s.rf Reg.TWN_STAT 7 4 == Mode.hold) then
    let nd := s.img.ndPrev.map (·.1)
    if 1024 < nd.length ∨ 256 < s.twn.cfgw.length then
      let s := s.divergeHere 6
      { s with twn := { s.twn with cfgw := [], swapped := false } }
    else
      let lines := ((changedLines old s 0 256).map fun i => (0, i)) ++ ((changedLines old s 2 16).map fun i => (2, i)) ++ (nd.map fun i => (4, i))
      let count := lines.length + s.twn.cfgw.length
      let s := s.twnSend 0x02 0 0 (leBytes 6 s.scn.cyc ++ leBytes 6 s.scn.cts ++ leBytes 1 (bn held + 2 * bn s.twn.swapped) ++ leBytes 3 0)
      let s := lines.foldl (fun t l => t.lineSend 0x03 l) s
      let s := s.twn.cfgw.foldl (fun (t : State) (w : Nat × Word) =>
        t.twnSend 0x04 0 0 (leBytes 2 ((w.1 - 0x01000000) / 0x1000) ++ leBytes 2 (w.1 % 0x1000) ++ leBytes 4 w.2.toNat)) s
      let s := s.twnSend 0x05 0 count []
      { s.setReg Reg.TWN_DELTA_LAST (BitVec.ofNat 32 (count % 65536 + 65536 * nd.length)) with twn := { s.twn with cfgw := [], swapped := false } }
  else { s with twn := { s.twn with cfgw := [], swapped := false } }

/-- A record of a delta staged by a standby (11 R365); a record beyond the buffer's size is lost; one without a DTIME
before it belongs to the lines of a Graft (09 R312, DEDUCED). -/
def stageRec (s : State) (f : Delta → Delta) : State :=
  if s.following then { s with twn := { s.twn with delta := some (f (s.twn.delta.getD ⟨0, 0, 0, false, false, [], [], 0, true⟩)) } } else s

/-- The lines staged for Pantry. -/
def pantryLines (d : Delta) : Nat := (d.lines.filter fun l => l.1 / 2 ^ 28 == 4).length

/-- The staged delta applied (11 R365, steps 1 to 4). -/
def applyDelta (s : State) (d : Delta) : State :=
  let s := d.lines.foldl (fun t l => t.lineWrite (l.1 / 2 ^ 28) (l.1 % 2 ^ 28) l.2) s
  let s := d.cfgw.foldl (fun t w => t.cfgPut (w.1 / 65536) (w.1 % 65536) w.2) s
  if d.swap then s.configSwap else s

/-- At a boundary before which the last cycle's COMMIT has not been applied (11 R368): with the link up the standby diverges, with the link lost it
waits. In HOLD, only cycles that the active runs have a delta (11 R375). -/
def deltaLate (s : State) : State :=
  if s.mode == Mode.tracking && s.twn.committed != s.scn.lastB.map (· % 2 ^ 48) && s.rb Reg.TWN_STAT 0 then s.diverge 4 else s

/-! ## Digests (11 R371–R373) -/

/-- The Pantry lines of a digest: those that were set in ALL and clear in ND at the final merge; none in a held cycle. -/
def digestLines (s : State) (held : Bool) : List Nat := if held then [] else s.twn.digLines

/-- The final merge fixes the Pantry lines of the cycle's digest (11 R371). -/
def digestMark (s : State) : State := { s with twn := { s.twn with digLines := (s.img.all.map (·.1)).filter fun l => !getMark s.img.nd l } }

/-- The digest of the cycle over the publish buffer and its Pantry lines. -/
def digest (s : State) (held : Bool) : DWord :=
  crc64 (s.rdBytes Key.publish 0x4000 ++ (s.digestLines held).flatMap fun l => leBytes 2 l ++ s.rdBytes (Key.pantry + 64 * l) 64)

/-- The digest reads its words with their check bits (07 R253, R254). -/
def digestTouch (s : State) (held : Bool) : State :=
  (s.digestLines held).foldl (fun t l => t.lineTouch 4 l) (s.touchRange Key.publish (Key.publish + 0x4000))

/-- A standby's OUT frames, once a cycle (11 R373). -/
def standbyOut (s : State) : State :=
  if s.mode = Mode.tracking ∧ !s.twn.sent then { s with twn := { s.twn with sent := true } }.publishOut Key.publish false else s

/-- Compare the digests of one cycle once both are held (11 R372–R374). -/
def compareDig (s : State) : State :=
  match s.twn.own, s.twn.part with
  | some o, some p =>
    if o.cyc % 65536 ≠ p.cyc % 65536 then s
    else
      let s := ((s.setReg64 Reg.TWN_DIG_OWN_LO o.val.toNat).setReg64 Reg.TWN_DIG_PART_LO p.val.toNat).setReg Reg.TWN_DIG_CYC (BitVec.ofNat 32 o.cyc)
      let s := { s with twn := { s.twn with own := none, part := none } }
      if o.invalid || p.invalid then
        let s := { s with twn := { s.twn with matched := false } }
        if s.following then s.diverge (if p.invalid then 2 else 3) else s
      else if o.val = p.val then { s with twn := { s.twn with matched := true } }.standbyOut
      else { s with twn := { s.twn with matched := false } }.diverge 1
  | _, _ => s

/-- The own digest of the current cycle is ready: it is kept, sent and compared (11 R371, R372); frames that waited for it leave (11 R373). -/
def ownDigest (s : State) (held invalid : Bool) : State :=
  if s.twnOn && (s.following || (s.lead && s.modeIn [Mode.run, Mode.hold] && s.partnerTracking)) then
    let s := if invalid then s else s.digestTouch held
    let v := if invalid then 0 else s.digest held
    let s := { s with twn := { s.twn with own := some ⟨s.scn.cyc, v, invalid⟩ } }
    let s := s.twnSend 0x06 (bn invalid + 2 * bn held) 0 (leBytes 8 v.toNat)
    let s := if s.twn.free && !invalid then s.standbyOut else s
    s.compareDig
  else s

/-- A DIGEST received (11 R372, R373): HANDOVER lets the standby's frames leave as soon as its own digest is ready. -/
def digestRx (s : State) (r : TRec) : State :=
  if !(s.following || s.lead) then s
  else if r.flags / 4 % 2 = 1 then
    let s := { s with twn := { s.twn with free := true } }
    if s.twn.own.isSome then s.standbyOut else s
  else
    let s := { s with twn := { s.twn with part := some ⟨r.seq, BitVec.ofNat 64 (ofLE r.data), r.flags % 2 == 1⟩ } }
    s.compareDig

/-- No digest of the cycle by t_n + TWN_PUBWAIT (11 R373): the frames leave now, or as soon as the publish buffer of the cycle is there. -/
def pubwait (s : State) : State :=
  if s.mode = Mode.tracking ∧ !s.twn.sent ∧ !s.twn.free ∧ s.twn.part.isNone ∧ !s.scn.invalid then
    let s := { s.bump Reg.TWN_UNVERIFIED with twn := { s.twn with free := true } }
    if s.twn.own.isSome then s.standbyOut else s
  else s

/-! ## Commands of the partner (11 R359) -/

/-- A CMD record with code `code`. -/
def cmdRx (s : State) (r : List Byte) (code : Nat) (k : Nat → Nat → State → State) : State :=
  s.twnRx r 0x09 fun t s => if byteAt t.data 0 = code then k (byteAt t.data 1) (ofLE (sub t.data 4 8)) s else s

/-- CMD DIVERGE (11 R374): raised here too unless this twin has raised it for that cycle. -/
def divergeCmd (s : State) (cause cyc : Nat) : State :=
  if s.twn.dropped = some (cyc % 2 ^ 48) then s
  else if s.following then (s.divergeRaise cause).dropOut
  else if s.lead then s.divergeRaise cause
  else s

/-! ## Switch-over and resync (11 R382, R386) -/

/-- The first boundary at least 100 µs away. -/
def switchBoundary (s : State) : Nat :=
  (s.cycleAt (s.netT + 100000)).elim 0 fun n => if s.boundaryAt n = s.netT + 100000 then n else n + 1

/-- TWN_CMD.SWITCH (11 R382). -/
def switchGo (s : State) : State :=
  if s.lead && s.mode == Mode.run && s.partnerTracking && s.rf Reg.GRF_STAT 2 0 == 0 then
    let b := s.switchBoundary
    let s := { s.setReg Reg.TWN_SWSTAT 0x101 with twn := { s.twn with sw := some ⟨b, false, true⟩ } }
    s.twnCmd 1 0 b
  else (s.wign 0x0E).raise 107 (s.rf Reg.TWN_SWSTAT 15 8)

/-- SWITCH_REQ at the standby (11 R382 step 2). -/
def switchReq (s : State) (b : Nat) : State :=
  if s.mode = Mode.tracking ∧ s.twn.matched then { s with twn := { s.twn with sw := some ⟨b % 2 ^ 48, true, false⟩ } }.twnCmd 2 0 b else s

/-- SWITCH_ACK at the active (11 R382 step 3): before b it makes row 25 due there. -/
def switchAck (s : State) (b : Nat) : State :=
  match s.twn.sw with
  | some w =>
    if w.mine && !w.acked && decide (w.b % 2 ^ 48 = b % 2 ^ 48) && decide (s.netT < s.boundaryAt w.b) && s.mode == Mode.run then
      { s with twn := { s.twn with sw := some { w with acked := true } }, sys := { s.sys with trans := s.sys.trans ++ [⟨25, Mode.tracking, Mode.run, false, 0⟩] } }
    else s
  | none => s

/-- TWN_CMD.RESYNC (11 R374, R386). -/
def resyncGo (s : State) : State :=
  let s := s.fcRestart 5
  if s.following || (s.lead && s.partnerTracking) then s.diverge 10 else s

/-- A write of TWN_CMD; SWITCH and RESYNC both 1 are a host error in which a free value says which acts (11 R390). -/
def twnCmdWrite (s : State) (v : Word) : State :=
  if fld v 1 0 = 3 then (let f := s.free; if fld f.1 0 0 = 1 then f.2.switchGo else f.2.resyncGo)
  else if fld v 0 0 = 1 then s.switchGo
  else if fld v 1 1 = 1 then s.resyncGo
  else s

/-- TWN_PRESET (11 R380). -/
def presetWrite (s : State) (v : Word) : State := if fld v 7 0 = 0x3C then s.twnCmd 3 0 0 else s.wign 0x0E

/-! ## The full copy (11 R383–R385) -/

/-- The pages copied, in rising number. -/
def fcPages (s : State) : List Nat := (List.range 37).filter s.cfgSet
/-- Lines of pass 1. -/
def fcTotal (s : State) : Nat := 49152 + 4096 + 16 * s.fcPages.length + 65536

/-- ADDR's SPACE and line of position `i` of pass 1 (11 R383). -/
def fcLine (s : State) (i : Nat) : Nat × Nat :=
  let c := 16 * s.fcPages.length
  if i < 49152 then (6, i)
  else if i < 53248 then (7, i - 49152)
  else if i < 53248 + c then (8, s.fcPages.getD ((i - 53248) / 16) 0 * 16 + (i - 53248) % 16)
  else (4, i - 53248 - c)

/-- An FLINE sent. -/
def fline (s : State) (l : Nat × Nat) : State := s.lineSend 0x07 l

/-- An FMARK sent. -/
def fmark (s : State) (kind n : Nat) : State :=
  s.twnSend 0x08 0 0 (leBytes 1 kind ++ leBytes 3 0 ++ leBytes 4 n ++ leBytes 6 (s.reg64 Reg.TMC_LASTTS_LO) ++ leBytes 2 0)

/-- Clear the dirty bitmap ALL. -/
def clearAll (s : State) : State := { s with img := { s.img with all := [] } }

/-- Lines of the current pass sent within this cycle, TWN_FCRATE at most; FMARK ends the pass (11 R384). -/
def fcSend (s : State) : State :=
  let rate := max 1 (s.rf Reg.TWN_FCRATE 15 0)
  let left := s.rf Reg.TWN_FC_LEFT 16 0
  let n := min rate left
  let s :=
    if s.rf Reg.TWN_STAT 10 8 = 1 then
      let s' := (List.range n).foldl (fun t i => t.fline (t.fcLine (t.twn.fcPos + i))) s
      { s' with twn := { s'.twn with fcPos := s.twn.fcPos + n } }
    else
      let s' := (s.twn.fcLines.take n).foldl (fun t l => t.fline (4, l)) s
      { s' with twn := { s'.twn with fcLines := s.twn.fcLines.drop n } }
  let s := { s.setReg Reg.TWN_FC_LEFT (BitVec.ofNat 32 (left - n)) with twn := { s.twn with fcSent := s.twn.fcSent + n } }
  if left = n ∧ 0 < left then s.fmark 1 s.twn.fcSent else s

/-- A pass count that reaches TWN_FCMAXPASS raises FC_NOCONV once (11 R385). -/
def fcPassCount (s : State) : State :=
  let p := s.rf Reg.TWN_FC_PASS 7 0 + 1
  let s := s.setReg Reg.TWN_FC_PASS (BitVec.ofNat 32 (p % 256))
  if max 1 (s.rf Reg.TWN_FCMAXPASS 7 0) ≤ p ∧ !s.twn.noconv then { s.raise 105 (p % 256) with twn := { s.twn with noconv := true } } else s

/-- The closing transfer (11 R385): the lines set in ALL, the closing lines, FMARK 2; in time when its last byte and 400 ns of latency fit before the next
boundary, at 1.515 bytes a ns (11 R358). -/
def fcClose (s : State) : State :=
  let dirtyL := s.img.all.map (·.1)
  let n := dirtyL.length + 896
  let s := dirtyL.foldl (fun t l => t.fline (4, l)) (s.setRf Reg.TWN_STAT 10 8 3)
  let s := (List.range 256).foldl (fun t i => t.fline (1, i)) s
  let s := (List.range 128).foldl (fun t i => t.fline (3, i)) s
  let s := (List.range 512).foldl (fun t i => t.fline (5, i)) s
  let s := (s.fmark 2 n).clearAll
  let ns := (n * 76 + 28) * 1000 / 1515 + 401
  let inTime := match s.cycleAt s.netT with
    | some c => decide (s.netT + ns < s.boundaryAt (c + 1))
    | none => false
  if inTime then { s with twn := { s.twn with closed := true } }
  else { s.fcPassCount.setRf Reg.TWN_STAT 10 8 2 with twn := { s.fcPassCount.twn with closed := false } }

/-- What the full copy does at a final merge (11 R384, R385). -/
def fcMerge (s : State) : State :=
  let st := s.rf Reg.TWN_STAT 10 8
  if st = 0 ∨ st = 3 ∨ !s.lead ∨ s.mode ≠ Mode.run then s
  else if s.rf Reg.TWN_FC_LEFT 16 0 ≠ 0 then s.fcSend
  else
    let n := s.img.all.length
    if s.rf Reg.TWN_FCFINAL 15 0 < n then
      let lines := s.img.all.map (·.1)
      let s := (s.setRf Reg.TWN_STAT 10 8 2).fcPassCount
      let s := { s.clearAll.setReg Reg.TWN_FC_LEFT (BitVec.ofNat 32 n) with twn := { s.twn with fcLines := lines, fcSent := 0 } }
      s.fcSend
    else s.fcClose

/-- The full copy starts at a boundary (11 R383): pass 1 clears ALL. -/
def fcBegin (s : State) : State :=
  if s.lead && s.mode == Mode.run && s.twnOn && s.rb Reg.TWN_STAT 0 && s.rf Reg.TWN_STAT 7 4 == Mode.syncing && s.rf Reg.TWN_STAT 10 8 == 0 then
    let s := (s.setRf Reg.TWN_STAT 10 8 1).raise 102 (s.scn.cyc % 2 ^ 32)
    let s := (s.clearAll.setReg Reg.TWN_FC_PASS 1).setReg Reg.TWN_FC_LEFT (BitVec.ofNat 32 s.fcTotal)
    { s with twn := { s.twn with fcPos := 0, fcLines := [], fcSent := 0, fcStart := s.scn.cyc, noconv := false, closed := false } }
  else s

/-- A FLINE at a twin in STANDBY-SYNCING (11 R383): written into its memory; the first of a copy raises SYNC_START here. -/
def flineRx (s : State) (r : TRec) : State :=
  if s.mode = Mode.syncing then
    let s := if s.rf Reg.TWN_STAT 10 8 = 0 then
        { (s.setRf Reg.TWN_STAT 10 8 1).raise 102 (s.scn.cyc % 2 ^ 32) with twn := { s.twn with fcStart := s.scn.cyc } }
      else s
    s.lineWrite (r.addr / 2 ^ 28) (r.addr % 2 ^ 28) r.data
  else s

/-- An FMARK at a twin in STANDBY-SYNCING (11 R385): the closing one makes STANDBY-TRACKING due at the next boundary. -/
def fmarkRx (s : State) (r : TRec) : State :=
  if s.mode = Mode.syncing then
    if byteAt r.data 0 = 2 then
      let s := s.setReg64 Reg.TMC_LASTTS_LO (ofLE (sub r.data 8 6))
      if s.sys.trans.any (·.row == 20) then s
      else { s with sys := { s.sys with trans := s.sys.trans ++ [⟨20, Mode.tracking, Mode.syncing, false, 0⟩] }, twn := { s.twn with closed := true } }
    else s.setRf Reg.TWN_STAT 10 8 2
  else s

end State

open State

/-! ## The commands -/

/-- PARTNER_OUT_RX (10 R327, 11 R362, R376). -/
def execPartnerOutRx (net : Net) (f : List Byte) (s : State) : Res State := .next (s.vuvRx net f 1 fun v s => s.partnerOut v)

/-- HB_TX (11 R360): sent whatever the link state. -/
def execHbTx (s : State) : Res State :=
  .next (if s.twnOn then s.send (.twin (twnBytes 0x01 0 s.scn.cyc 0 s.hbData)) else s)

/-- HB_RX (11 R360). -/
def execHbRx (r : List Byte) (s : State) : Res State := .next (s.twnRx r 0x01 fun t s => s.hb t)

/-- HB_MISS (11 R360): a heartbeat period without a valid HB. -/
def execHbMiss (s : State) : Res State :=
  .next (if s.twnOn then { s.bump Reg.TWN_HB_MISS with twn := { s.twn with hbGood := 0 } } else s)

/-- TWIN_LINK_LOST (11 R360). -/
def execTwinLinkLost (s : State) : Res State := .next s.linkLost

/-- TAKE_IN_PULSE (11 R357): a level of 100 to 500 ns counts or not, as a free value says. -/
def execTakeInPulse (ns : Nat) (s : State) : Res State :=
  if ns < 100 then .next s
  else if 500 ≤ ns then .next s.takeIn
  else
    let f := s.free
    .next (if fld f.1 0 0 = 1 then f.2.takeIn else f.2)

/-- DTIME_RX (11 R365): begins a new delta. -/
def execDtimeRx (r : List Byte) (s : State) : Res State :=
  .next (s.twnRx r 0x02 fun t s =>
    if s.following then
      { s with twn := { s.twn with delta := some ⟨t.seq, ofLE (sub t.data 0 6), ofLE (sub t.data 6 6), byteAt t.data 12 % 2 == 1, byteAt t.data 12 / 2 % 2 == 1, [], [], 0, false⟩ } }
    else s)

/-- DLINE_RX (11 R365): SPACE 0, 2 or 4. -/
def execDlineRx (r : List Byte) (s : State) : Res State :=
  .next (s.twnRx r 0x03 fun t s => s.stageRec fun d =>
    if t.addr / 2 ^ 28 = 4 ∧ 1024 ≤ pantryLines d then d
    else if [0, 2, 4].contains (t.addr / 2 ^ 28) then { d with lines := d.lines ++ [(t.addr, t.data)], count := d.count + 1 } else d)

/-- CFGW_RX (11 R365). -/
def execCfgwRx (r : List Byte) (s : State) : Res State :=
  .next (s.twnRx r 0x04 fun t s => s.stageRec fun d =>
    if 256 ≤ d.cfgw.length then d
    else { d with cfgw := d.cfgw ++ [(byteAt t.data 0 * 65536 + ofLE (sub t.data 2 2), BitVec.ofNat 32 (ofLE (sub t.data 4 4)))], count := d.count + 1 })

/-- DELTA_LATE (11 R368). -/
def execDeltaLate (s : State) : Res State :=
  .next s.deltaLate

/-- DIGEST_RX (11 R372). -/
def execDigestRx (r : List Byte) (s : State) : Res State := .next (s.twnRx r 0x06 fun t s => s.digestRx t)

/-- PUBWAIT_EXPIRY (11 R373). -/
def execPubwaitExpiry (s : State) : Res State := .next s.pubwait

/-- SWITCH_REQ (11 R382). -/
def execSwitchReq (r : List Byte) (s : State) : Res State := .next (s.cmdRx r 1 fun _ b s => s.switchReq b)

/-- SWITCH_ACK (11 R382). -/
def execSwitchAck (r : List Byte) (s : State) : Res State := .next (s.cmdRx r 2 fun _ b s => s.switchAck b)

/-- CMD_HANDOVER (11 R377, R379). -/
def execCmdHandover (r : List Byte) (s : State) : Res State :=
  .next (s.cmdRx r 4 fun _ _ s => if s.mode = Mode.tracking then { s with twn := { s.twn with handover := true } } else s)

/-- CMD_DIVERGE (11 R374). -/
def execCmdDiverge (r : List Byte) (s : State) : Res State := .next (s.cmdRx r 5 fun c n s => s.divergeCmd c n)

/-- CMD_HOLD (11 R375). -/
def execCmdHold (r : List Byte) (s : State) : Res State :=
  .next (s.cmdRx r 6 fun _ _ s => if s.mode = Mode.tracking then s.changeMode Mode.hold 27 else s)

/-- CMD_RESUME (11 R375; 03 row 31): the return comes with the next committed delta. -/
def execCmdResume (r : List Byte) (s : State) : Res State :=
  .next (s.cmdRx r 7 fun _ _ s => if s.mode = Mode.hold ∧ s.stby then { s with twn := { s.twn with resume := true } } else s)

/-- CMD_GRF_DIGEST (11 R359, 09 R310). -/
def execCmdGrfDigest (r : List Byte) (s : State) : Res State :=
  .next (s.cmdRx r 8 fun _ v s => s.setReg64 Reg.GRF_PARTNER_DIGEST_LO v)

/-- TWN_PRESET (11 R380). -/
def execTwnPreset (ag : Agent) (v : Word) (s : State) : Res State := .next (s.regWrite ag Reg.TWN_PRESET (·.presetWrite v))

/-- TWN_SWITCH (11 R382): TWN_CMD written with SWITCH = 1. -/
def execTwnSwitch (ag : Agent) (s : State) : Res State := .next (s.regWrite ag Reg.TWN_CMD (·.twnCmdWrite 1))

/-- TWN_RESYNC (11 R386): TWN_CMD written with RESYNC = 1. -/
def execTwnResync (ag : Agent) (s : State) : Res State := .next (s.regWrite ag Reg.TWN_CMD (·.twnCmdWrite 2))

/-- FLINE_RX (11 R383). -/
def execFlineRx (r : List Byte) (s : State) : Res State := .next (s.twnRx r 0x07 fun t s => s.flineRx t)

/-- FMARK_RX (11 R385). -/
def execFmarkRx (r : List Byte) (s : State) : Res State := .next (s.twnRx r 0x08 fun t s => s.fmarkRx t)

end Sys2Proof.Machine
end

