-- ==== Sys2Proof/Machine/Scan.lean ====
section
/-! DEFINITION. The scan engine inside a cycle (06): merges, lane faults and sparing, HOLD and breakpoints, the dispatch of event tasks; the records of
uncorrectable words (19 R582). What a boundary does is in Cycle.lean. -/

-- one declaration at a time: many at once take a thread and its stack each
set_option Elab.async false

namespace Sys2Proof.Machine

namespace State

/-- The modes in which the schedule runs (06 R197), while the core clock does (03 R124). A station without a schedule (10 R351, R341) runs none. -/
def scheduled (s : State) : Bool :=
  s.pwr.coreRun && s.modeIn [Mode.stop, Mode.run, Mode.hold, Mode.safeHalt, Mode.syncing, Mode.tracking, Mode.stnRun, Mode.stnSafe] &&
    !(s.modeIn [Mode.stnRun, Mode.stnSafe] && s.rf Reg.VUV_STN_STATE 2 0 == 0)

/-- SCN_STAT.SCHED_RUN: in those modes with a period that passes check 1 (06 R197, R198). -/
def schedRuns (s : State) : Bool := s.scheduled && decide (50000 ≤ s.periodNs) && decide (s.periodNs ≤ 1000000000)

/-! ## Merges (06 R200–R206) -/

/-- The order in which a merge searches what entries name (06 R205). -/
def stagedRank : Staged → Nat
  | .img o => o
  | .exch o => 0x10000 + o
  | .cell n => 0x20000 + n

/-- The key of the byte an entry writes: of the output image, the exchange memory, or a cell's STATUS. -/
def stagedKey : Staged → Nat
  | .img o => Key.output + o
  | .exch o => Key.exch + o
  | .cell n => cellKey n + 7

/-- The bits of one staged byte that the entries write. -/
def stagedMask (es : List Entry) (w : Staged) : Byte := es.foldl (fun m e => if e.what = w then m ||| e.mask else m) 0

/-- What the entries name, in search order, each once. -/
def stagedAll (es : List Entry) : List Staged :=
  (es.foldl (fun (l : List (Nat × Option Staged)) e => Sparse.set (fun _ => none) l (stagedRank e.what) (some e.what)) []).filterMap (·.2)

/-- Bits of byte `old` that `mask` names replaced by those of `v`. -/
def putBits (old mask v : Byte) : Byte := (old &&& ~~~mask) ||| (v &&& mask)

/-- One entry written; the inputs of a cell are bits 1 to 4 of its STATUS (08 R274). -/
def mergeEntry (s : State) (e : Entry) : State :=
  let k := stagedKey e.what
  match e.what with
  | .cell _ => s.wr k (putBits (s.rd k) (e.mask <<< 1) (e.val <<< 1))
  | _ => let s := s.touch k; s.wr k (putBits (s.rd k) e.mask e.val)

/-- The solving lanes: scan lane number and staged entries, in rising number. -/
def staged (s : State) : List (Nat × List Entry) := (s.lanesWith 1).map fun k => (k, (s.core (s.physOf k)).swb)

/-- The scan lanes that write bit `b` of `w` in this merge, in rising number. -/
def writers (l : List (Nat × List Entry)) (w : Staged) (b : Nat) : List Nat :=
  (l.filter fun e => (stagedMask e.2 w).getLsbD b).map (·.1)

/-- The record of a conflict (06 R238, SCN_CONF_LAST). -/
def confRecord (w : Staged) (b : Nat) (ls : List Nat) : Nat :=
  let at' := match w with | .img o => 0x4000 + o | .exch o => 0x2000 + o | .cell n => n + 2 ^ 19
  at' + b * 2 ^ 16 + ls.getLastD 0 * 2 ^ 20 + ls.headD 0 * 2 ^ 26

/-- The conflicting bits of a merge in search order, as their records (06 R205). -/
def conflicts (l : List (Nat × List Entry)) : List Nat :=
  (stagedAll (l.flatMap (·.2))).flatMap fun w =>
    (List.range 8).filterMap fun b => let ls := writers l w b; if 2 ≤ ls.length then some (confRecord w b ls) else none

/-- Conflicts counted and recorded; MERGE_CONFLICT once (06 R205). -/
def mergeConf (s : State) (step : Nat) (c : List Nat) : State :=
  match c.getLast? with
  | none => s
  | some r => ((s.count Reg.SCN_MERGE_CONF c.length).setReg Reg.SCN_CONF_LAST (BitVec.ofNat 32 r)).raise 23 (c.length % 2 ^ 16 + step * 2 ^ 16)

/-- A core has arrived at the merge (06 R200). -/
def hasArrived (c : CoreSt) : Bool := c.run == .atMerge || c.run == .segEnd

/-- The merge starts once the last participant has arrived (06 R200), while SOLVE of the cycle is open. -/
def mergeStart (s : State) : State :=
  let ps := s.lanesWith 1
  if !s.scn.published && !s.scn.merging && !ps.isEmpty && ps.all (fun k => hasArrived (s.core (s.physOf k))) then
    let e := s.staged.foldl (fun n l => max n l.2.length) 0
    { s.setRb Reg.IMG_STAT 0 true with scn := { s.scn with merging := true, mergeE := e } }
  else s

/-- The length of a merge in clk (06 R201). -/
def mergeClk (e : Nat) : Nat := 32 + (e + 15) / 16

/-- clk from SOLVE start to network instant `t` in quarter nanoseconds. -/
def solveClk (s : State) (t : Nat) : Nat := min (2 ^ 30 - 1) ((t - s.scn.solveAt) / 5)

/-- The solve time of scan lane `k` recorded (19 R587). -/
def laneSolve (s : State) (k : Nat) : State :=
  let p := s.physOf k
  let c := s.core p
  let n := s.solveClk c.doneAt
  s.setCore p { c with solved := true, lsLast := n, lsMin := min c.lsMin n, lsMax := max c.lsMax n }

/-- The share of SOLVE in which a Bunch port carried beats: a value of the timing that the model does not follow, free (19 R587). -/
def bunUtil (s : State) (b : Nat) : State :=
  let f := s.free
  let v := f.1.toNat % 1001
  f.2.setReg (Reg.TLM_BUNUTIL b) (BitVec.ofNat 32 (v + 2 ^ 16 * max v (f.2.rf (Reg.TLM_BUNUTIL b) 25 16)))

/-- PUBLISH of a cycle begins (06 R193, R220; 10 R329; 11 R384): the copy to the publish buffer, or that of the previous cycle again, and the OUT frames.
In an interrupted cycle it waits for the resumption, which fixes T_apply (R232; DEDUCED). -/
def publish (s : State) : State :=
  if s.scn.interrupted then { s with scn := { s.scn with pubDue := true } }
  else
    let s := { s.setPhase 2 with scn := { s.scn with pubDue := false } }
    if s.scn.invalid then (if s.mode = Mode.tracking then s else s.publishOut Key.publish true)
    else
      let s := (s.digestMark.touchRange Key.output (Key.output + 0x4000)).setRb Reg.IMG_STAT 1 true
      if s.mode = Mode.tracking then s else (s.publishOut Key.output false).fcMerge

/-- The PUBLISH that waited for the resumption begins. -/
def publishDue (s : State) : State := if s.scn.pubDue && !s.scn.interrupted then s.publish else s

/-- The final merge has ended: SOLVE ends, PUBLISH begins (06 R202, R193). -/
def solveDone (s : State) : State :=
  let n := s.solveClk s.now
  let s := s.setReg Reg.SCN_SOLVE_LAST (BitVec.ofNat 32 n)
  let s := if s.rf Reg.SCN_SOLVE_MAX 29 0 < n then s.setReg Reg.SCN_SOLVE_MAX (BitVec.ofNat 32 n) else s
  let s := s.setReg Reg.SCN_MERGE_LAST (BitVec.ofNat 32 (s.scn.mergeMax % 2 ^ 16 + 2 ^ 16 * s.scn.mergeMaxE))
  let s := (s.lanesWith 1).foldl (fun t k => t.laneSolve k) s
  let s := (List.range 4).foldl (fun t b => t.bunUtil b) s
  let s := s.raise 17 n
  { s with scn := { s.scn with published := true } }.publish

/-- A step of HOLD ends when every lane has issued its instruction and no merge runs (06 R230); the device is then held again (R231). -/
def stepDone (s : State) : State :=
  if s.scn.hold == .step && !s.scn.merging && (List.range 64).all (fun k => !(s.core (s.physOf k)).credit) then
    { (s.setRb Reg.SCN_HOLDSTAT 24 false).setRf Reg.SCN_HOLDSTAT 0 0 (bn (!s.scn.interrupted)) with scn := { s.scn with hold := .none } }.raise 25 0
  else s

/-- A participant after a merge (06 R201): nothing staged, the next step, and on from STEP. After the final merge of 16 steps STEP_NO is 0, as its four bits
wrap (DESIGN CHOICE, log 51). -/
def afterMerge (s : State) (k : Nat) : State :=
  let p := s.physOf k
  let c := s.core p
  s.setCore p { c with swb := [], stepNo := (c.stepNo + 1) % 16, run := if c.run = .atMerge then .exec else c.run }

/-- The merge that runs ends (06 R201, R202, R204, R205). -/
def mergeDone (s : State) : State :=
  if !s.scn.merging || !s.pwr.coreRun then s
  else
    let l := s.staged
    let final := (s.lanesWith 1).all fun k => (s.core (s.physOf k)).run == .segEnd
    let step := s.stepNow
    let s := l.foldl (fun t e => e.2.foldl mergeEntry t) s
    let s := s.mergeConf step (conflicts l)
    let s := (s.lanesWith 1).foldl (fun t k => t.afterMerge k) s
    let m := mergeClk s.scn.mergeE
    let s := { (s.setRb Reg.IMG_STAT 0 false).setRf Reg.SCN_STAT 19 16 s.stepNow with
      scn := { s.scn with merging := false, mergeMax := max s.scn.mergeMax m, mergeMaxE := if s.scn.mergeMax < m then s.scn.mergeE else s.scn.mergeMaxE } }
    (if final then s.solveDone else s).stepDone

/-! ## Uncorrectable words (19 R582) -/

/-- DETAIL of the events of 19 R588. -/
def ueDetail (lane addr : Nat) : Nat := addr % 2 ^ 24 + 2 ^ 24 * lane

/-! ## Lane faults and sparing (06 R219–R226) -/

/-- The physical lane of a Bunch's spare. -/
def spareOf (s : State) (b : Nat) : Nat := s.rf (Reg.BUN_SPARE b) 6 0

/-- The spare of a Bunch can take a lane: available, and not being copied for another (06 R226). -/
def spareFree (s : State) (b : Nat) : Bool := s.rb (Reg.BUN_SPARE b) 9 && !s.scn.copies.any (·.1 == b)

/-- The BUN_FLT word of a fault (06 R240), and its record: the first two of a Bunch are kept (06 R219). -/
def faultRecord (s : State) (p cause : Nat) : Nat × State :=
  let b := p / 17
  let w := p + 2 ^ 7 + cause * 2 ^ 8 + (s.core p).stepNo % 16 * 2 ^ 12 + (s.cx p).pc % 2 ^ 14 * 2 ^ 16
  let put := fun (s : State) r c => (s.setReg r (BitVec.ofNat 32 w)).setReg c (BitVec.ofNat 32 s.scn.cyc)
  let s := if !s.rb (Reg.BUN_FLT0 b) 7 then put s (Reg.BUN_FLT0 b) (Reg.BUN_FLT0_CYC b)
    else if !s.rb (Reg.BUN_FLT1 b) 7 then put s (Reg.BUN_FLT1 b) (Reg.BUN_FLT1_CYC b) else s
  (w, s.raise (32 + 4 * b) w)

/-- A copy that runs stops with the number of words it had copied, which the model does not follow: free (06 R226). -/
def copyStop (s : State) (b : Nat) : State :=
  match s.scn.copies.find? (·.1 == b) with
  | some (_, c) =>
    if c.running then
      let f := s.free
      { (f.2.setRb (Reg.BUN_COPYSTAT b) 0 false).setRf (Reg.BUN_COPYSTAT b) 19 4 (f.1.toNat % (17408 * (1 + bn (s.rb (Reg.BUN_COPYSTAT b) 3)) + 1)) with
        scn := { f.2.scn with copies := f.2.scn.copies.map fun (e : Nat × Copy) => if e.1 = b then (b, { e.2 with running := false }) else e } }
    else s
  | none => s

/-- The cycle is invalid (06 R220): solving lanes stop, the previous publish buffer goes out again. What the PUBLISH of a cycle has begun is not
called back (DEDUCED, log 20). -/
def cycleInvalid (s : State) (p k cause : Nat) : State :=
  let open' := !s.scn.published
  let s := s.stopAllSolving 3 (some p)
  let s := { (s.bump Reg.SCN_INVALID).raise 20 (k + 256 * cause) with scn := { s.scn with invalid := true, published := true } }
  if open' then s.publish.ownDigest false true else s

/-- The copy to the spare starts, or there is none and the device goes to SAFE-HALT (06 R222, R226). -/
def spareStart (s : State) (p k : Nat) : State :=
  let b := p / 17
  if s.spareFree b then
    let both := s.rf Reg.GRF_STAT 2 0 == 2
    { (s.setReg (Reg.BUN_COPYSTAT b) (BitVec.ofNat 32 (1 + 8 * bn both))).setRb (Reg.BUN_SPARE b) 9 false with
      scn := { s.scn with copies := s.scn.copies ++ [(b, ⟨p, k, true, false⟩)] } }
  else ((s.copyStop b).raise (35 + 4 * b) p).safeHalt 2 2 (some p)

/-- A fault of physical lane `p` (06 R219–R226). Causes: 1 register file, 2 scratch, 3 parity, 4 SWB_OVF, 5 instruction, 6 forced. A lane that serves no scan
lane is only recorded and kept out of service; a spare that faults is no longer available. -/
def laneFault (s : State) (p cause : Nat) : State :=
  let r := s.faultRecord p cause
  let s := r.2
  match s.scanOf p with
  | none =>
    let b := p / 17
    let s := s.setCore p { s.core p with faulty := true }
    if s.spareOf b = p then (s.copyStop b).setRb (Reg.BUN_SPARE b) 9 false else s
  | some k =>
    if cause = 4 then
      let s := s.setCore p { s.core p with ovf := true, credit := false }
      (s.raise 22 (k + 256 * ((s.cx p).pc % 2 ^ 14))).safeHalt 4 2 (some p)
    else
      let s := if s.laneRole k = 1 then s.cycleInvalid p k cause else s.abortLane p
      let s := s.setCore p { s.core p with faulty := true, run := .stopped, forced := false, grace := 0, stop := none, credit := false }
      (s.spareStart p k).stepDone

/-- A service lane with an uncorrectable word halts and sets its SVFLT bit; the Steward halts (19 R582). -/
def svcStop (s : State) (c : Nat) : State :=
  let s := s.setCore c { s.core c with run := .stopped, faulty := true }
  if c < 72 then { s with svflt := s.svflt ||| BitVec.ofNat 4 (2 ^ (c - 68)) } else s

/-- The first uncorrectable word in the source of a copy: half and word address. -/
def copyBad (s : State) (p : Nat) (both : Bool) : Option (Nat × Nat) :=
  let h := s.activeHalf
  (s.ecc.find? fun e => e.2 == 2 &&
    ((decide (Key.instr p h 0 ≤ e.1) && decide (e.1 < Key.instr p h 0x4000)) ||
      (both && decide (Key.instr p (1 - h) 0 ≤ e.1) && decide (e.1 < Key.instr p (1 - h) 0x4000)))).map
    fun (e : Nat × Nat) => ((e.1 - Key.instr p 0 0) / 0x10000, (e.1 - Key.instr p 0 0) % 0x10000 / 4)

/-- The halves and constant banks of lane `p` copied to lane `q`. -/
def copyHalf (s : State) (p q h : Nat) : State :=
  let s := s.copyMem (Key.instr p h 0) (Key.instr q h 0) 0x10000
  { s.copyMem (Key.const p h) (Key.const q h) 0x1000 with ecc := Sparse.clear s.ecc (Key.instr q h 0) (Key.instr q h 0x4000) }

/-- A word that a copy cannot read stops it (06 R225). -/
def copyErr (s : State) (b addr half : Nat) : State :=
  if s.scn.copies.any (fun e => e.1 == b && e.2.running) then
    let v := BitVec.ofNat 32 (addr + 2 ^ 15 * half)
    ((((s.copyStop b).setRb (Reg.BUN_COPYSTAT b) 2 true).setReg (Reg.BUN_COPYERR b) v).ueRecord 0 ((s.scn.copies.find? (·.1 == b)).elim 0x7F (·.2.lane)) half
      addr).raise (34 + 4 * b) v.toNat
  else s

/-- The copy of Bunch `b` ends (06 R222); it cannot where its source holds an uncorrectable word (06 R225). An armed Graft arms again (09 R296). -/
def spareReady (s : State) (b : Nat) : State :=
  match s.scn.copies.find? (·.1 == b) with
  | some (_, c) =>
    if c.running then
      let both := s.rb (Reg.BUN_COPYSTAT b) 3
      match s.copyBad c.lane both with
      | some (h, a) => s.copyErr b a h
      | none =>
        let q := s.spareOf b
        let s := s.copyHalf c.lane q s.activeHalf
        let s := if both then s.copyHalf c.lane q (1 - s.activeHalf) else s
        let s := s.attemptCut
        let s := if s.rf Reg.GRF_STAT 2 0 = 2 then s.setRf Reg.GRF_STAT 2 0 1 else s
        { s.setReg (Reg.BUN_COPYSTAT b) (BitVec.ofNat 32 (2 + 8 * bn both + 16 * (if both then 34816 else 17408))) with
          scn := { s.scn with copies := s.scn.copies.map fun (e : Nat × Copy) => if e.1 = b then (b, { e.2 with running := false, done := true }) else e } }.raise (33 + 4 * b) q
    else s
  | none => s

/-- The lane states and fault records of Bunch `b` are free values (06 R242): which lanes are out of service, which have a forced fault waiting, BUN_FLT0 and
BUN_FLT1 with their cycles. -/
def bunFree (s : State) (b : Nat) : State :=
  let f := s.free
  let s := (List.range 17).foldl (fun t j =>
    let p := 17 * b + j
    let c := t.core p
    t.setCore p { c with forced := f.1.getLsbD j, faulty := (f.1 >>> 15).getLsbD j, run := if (f.1 >>> 15).getLsbD j && c.run != .idle then .stopped else c.run }) f.2
  [Reg.BUN_FLT0 b, Reg.BUN_FLT0_CYC b, Reg.BUN_FLT1 b, Reg.BUN_FLT1_CYC b].foldl (fun t r => let g := t.free; g.2.setReg r g.1) s

/-- BUN_FORCEFLT (06 R240): GO forces a fault at the lane's next instruction; POS above 16 is a host error (06 R242). -/
def forceWrite (s : State) (b : Nat) (v : Word) : State :=
  if fld v 7 7 = 1 then
    if fld v 4 0 < 17 then
      let p := 17 * b + fld v 4 0
      s.setCore p { s.core p with forced := true }
    else s.bunFree b
  else s

/-! ## HOLD and breakpoints (06 R227–R235) -/

/-- Breakpoint `i` of scan lane `k`: address and EN (06 R234). -/
def bpOf (s : State) (k i : Nat) : Nat × Bool :=
  let w := s.rf ((if i < 2 then Reg.DBG_BPA k else Reg.DBG_BPB k)) (16 * (i % 2) + 15) (16 * (i % 2))
  (w % 2 ^ 14, w / 2 ^ 15 == 1)

/-- Breakpoints act: BPEN in RUN and in HOLD (06 R234). -/
def bpActive (s : State) : Bool := s.rb Reg.DBG_CTRL 0 && s.modeIn [Mode.run, Mode.hold]

/-- Scan lane `k` is about to execute an instruction at an enabled breakpoint. -/
def bpMatch (s : State) (k pc : Nat) : Bool :=
  s.bpActive && (List.range 4).any fun i => let b := s.bpOf k i; b.2 && b.1 == pc

/-- A breakpoint hit on physical lane `p` at address `pc`; `brk`: by a BRK with that code (06 R227, R231, R232, R234–R236). -/
def breakHit (s : State) (p k pc : Nat) (brk : Option Nat) : State :=
  let s := s.haltAll p
  let s := s.setCore p { s.core p with held := true, grace := 0, stop := none, credit := false }
  let s := s.setCx p { s.cx p with skipBp := brk.isNone, atBrk := brk.isSome }
  let intr := !s.scn.applied
  let d := k + 256 * pc
  let w : HoldCmd := s.scn.hold
  let one := w == .running
  let stp := w == .step
  let s := if s.mode = Mode.run then s.changeMode Mode.hold 15 else s
  let s := { s.setPhase 5 with scn := { s.scn with interrupted := intr, hold := if one then .none else w } }
  let s := s.raise 24 d
  let s := s.setReg Reg.SCN_HOLDSTAT (BitVec.ofNat 32 (bn (!intr) + 2 + 4 * k + 256 * pc + 2 ^ 24 * bn stp))
  let s := s.setReg Reg.DBG_BRKREC (BitVec.ofNat 32 (d + 2 ^ 22 * bn brk.isSome + 2 ^ 31))
  let s := match brk with | some c => s.setReg Reg.DBG_BRKCODE (BitVec.ofNat 32 c) | none => s
  if one then s.raise 25 1 else s.stepDone

/-- SINGLE_BUSY. -/
def singleBusy (s : State) : Bool := s.rb Reg.SCN_HOLDSTAT 24

/-- SCN_HOLDCMD.STEP (06 R230): every halted scan lane that has an instruction to issue may issue one. -/
def holdStep (s : State) : State :=
  let s := (List.range 64).foldl (fun t k =>
    let p := t.physOf k
    let c := t.core p
    if c.held && c.run == .exec then
      let t := t.endStop p
      t.setCore p { t.core p with credit := true, grace := 0 }
    else t) s
  { (s.setRb Reg.SCN_HOLDSTAT 24 true).setRb Reg.SCN_HOLDSTAT 0 false with scn := { s.scn with hold := .step } }.stepDone

/-- SCN_HOLDCMD.CYCLE (06 R231, R232): the interrupted cycle goes on at once, or the cycle of the next boundary runs. -/
def holdCycle (s : State) : State :=
  let s := (s.setRb Reg.SCN_HOLDSTAT 24 true).setRf Reg.SCN_HOLDSTAT 1 0 0
  if s.scn.interrupted then
    let s := s.lanesResume.resumeCycle
    { s with scn := { s.scn with hold := .running } }
  else { s with scn := { s.scn with hold := .waiting } }

/-- A write of SCN_HOLDCMD (06 R233); STEP and CYCLE both 1 are a host error in which a free value says which acts (06 R242). -/
def holdCmd (s : State) (v : Word) : State :=
  if s.mode ≠ Mode.hold ∨ s.singleBusy then s.wign 4
  else if fld v 1 0 = 0 then s
  else if fld v 1 0 = 3 then (let f := s.free; if fld f.1 0 0 = 1 then f.2.holdStep else f.2.holdCycle)
  else if fld v 0 0 = 1 then s.holdStep
  else s.holdCycle

/-- A single cycle that has run ends at the boundary after it (06 R231): the lanes are held again. -/
def holdCycleEnd (s : State) : State :=
  if s.mode == Mode.hold && s.scn.hold == .running then
    { ((s.haltAll 68).setRf Reg.SCN_HOLDSTAT 1 0 1).setRb Reg.SCN_HOLDSTAT 24 false with scn := { s.scn with hold := .none, interrupted := false } }.setPhase 5 |>.raise 25 1
  else s

/-- The keep-alive at boundary `n` of HOLD (06 R229): the frames, and the Rind receives the outputs again or its safe command (14 R458). -/
def holdKeepalive (s : State) (n : Nat) : State :=
  let s := { s with scn := { s.scn with lastB := some n } }.holdFrames n
  if s.rb Reg.SCN_HOLDCFG 0 then s.rndPush .safe
  else { s with rind := { s.rind with refDone := false } }

/-- DBG_CORE_HALT and DBG_CORE_RUN (06 R237): only the debug access port writes them. Their bits act at the write and read 0 (DESIGN CHOICE, log 51). -/
def dbgCore (s : State) (ag : Agent) (v : Word) (halt : Bool) : State :=
  if ag ≠ .debug then s.wign 0x24
  else (List.range 5).foldl (fun t i =>
    if fld v i i = 1 then (t.setCore (68 + i) { t.core (68 + i) with dbgHalt := halt }).setRb Reg.DBG_CORE_STAT i halt else t) s

/-! ## Event tasks (06 R210–R217, R634) -/

/-- The slots whose task runs or is suspended. -/
def slotsRunning (s : State) : List Nat :=
  (s.lanesWith 2).flatMap fun k => (List.range 8).filterMap fun x => (s.ctx (s.physOf k) x).task.map (·.slot)

/-- The highest priority of a task of lane `p`: the one it counts as running (06 R634). -/
def lanePrio (s : State) (p : Nat) : Option Nat := ((List.range 8).filter fun x => (s.ctx p x).task.isSome).getLast?

/-- Scan lane `k` is an event lane of slot `n`'s set that can run. -/
def inSet (s : State) (n k : Nat) : Bool :=
  s.laneRole k == 2 && (if k < 32 then s.rb (Reg.SCN_SLOT_LSET0 n) k else s.rb (Reg.SCN_SLOT_LSET1 n) (k - 32)) &&
    s.domOn (2 + k / 16) && !(s.core (s.physOf k)).faulty

/-- PRIO of slot `n`. -/
def slotPrio (s : State) (n : Nat) : Nat := s.rf (Reg.SCN_SLOT_CFG n) 18 16

/-- The lane to which slot `n` goes (06 R212): an idle one, else the one that runs the lowest priority below the slot's. -/
def slotLane (s : State) (n : Nat) : Option Nat :=
  let set := (List.range 64).filter (s.inSet n)
  match set.find? fun k => (s.lanePrio (s.physOf k)).isNone with
  | some k => some k
  | none =>
    let pr := fun k => (s.lanePrio (s.physOf k)).getD 8
    (set.filter fun k => decide (pr k < s.slotPrio n)).foldl (fun (b : Option Nat) k =>
      match b with | some j => if pr k < pr j then some k else b | none => some k) none

/-- The slot dispatched next (06 R212): the pending one with the highest priority, the lower number first, that has a lane and whose task does not
run. -/
def slotNext (s : State) : Option (Nat × Nat) :=
  let busy := s.slotsRunning
  let l := (List.range 32).filterMap fun n =>
    if s.evt.slots.any (·.1 == n) && !busy.contains n then (s.slotLane n).map (fun k => (n, k)) else none
  l.foldl (fun (b : Option (Nat × Nat)) e =>
    match b with | some c => if s.slotPrio c.1 < s.slotPrio e.1 then some e else b | none => some e) none

/-- A context at the start of a segment or task (04 R131). -/
def startCtx (entry : Nat) (t : Option Task) : Ctx := { pc := entry, task := t }

/-- The read and staging buffers of agent number `n` are empty: no value passes from one segment or task to the next in them (04 R131). -/
def clearBufs (s : State) (n : Nat) : State :=
  { s with
    rbuf := Sparse.clear s.rbuf (n * 2 ^ 32) ((n + 1) * 2 ^ 32)
    stage := Sparse.clear s.stage (n * 2 ^ 32) ((n + 1) * 2 ^ 32)
    tmc := { s.tmc with bufs := Sparse.clear s.tmc.bufs n (n + 1) } }

/-- The dispatcher dispatches one slot (06 R212–R214, R634): on an idle lane the task starts, on one that runs a task it waits suspended for the preemption. It
dispatches in RUN and STATION-RUN, and not while a Graft waits for its test point (09 R306). -/
def dispatch (s : State) : State :=
  if !s.modeIn [Mode.run, Mode.stnRun] || s.grf.dispStop || !s.pwr.coreRun then s
  else match s.slotNext with
  | none => s
  | some (n, k) =>
    match s.evt.slots.find? (·.1 == n) with
    | none => s
    | some (_, ev, arg, seq) =>
      let p := s.physOf k
      let pr := s.slotPrio n
      let idle := (s.lanePrio p).isNone
      let s := { s with evt := { s.evt with slots := s.evt.slots.filter (·.1 != n) } }
      let s := (s.setCtx p pr (startCtx (s.rf (Reg.SCN_SLOT_CFG n) 13 0) (some ⟨n, ev, pr, arg, seq⟩))).clearBufs (8 + 8 * p + pr)
      if idle then s.setCore p { s.core p with run := .exec, cur := pr, held := false, grace := 0, credit := false } else s

/-- A preemption takes effect (06 R214, 04 R154, R156, R159): the victim has no open seal, no locked sequence, no delay slot to issue and no beat to take. What
is left of a repeated instruction is a transfer of its own when the victim resumes (DEDUCED, log 12). -/
def preempt (s : State) (p : Nat) : State :=
  let c := s.core p
  let x := s.ctx p c.cur
  match s.lanePrio p with
  | none => s
  | some pr =>
    if c.run == .exec && s.pwr.coreRun && decide (c.cur < pr) && x.sealed == 0 && x.lock.isNone && x.slot == .none && x.beat.isNone then
      (s.ownOnly p []).setCore p { c with cur := pr }
    else s

/-! ## What registers show of the scan (06 R237, R238, R240) -/

/-- SCN_SLOT_PEND and SCN_SLOT_RUN. -/
def slotPendView (s : State) : Word := BitVec.ofNat 32 ((List.range 32).foldl (fun m n => if s.evt.slots.any (·.1 == n) then m + 2 ^ n else m) 0)
def slotRunView (s : State) : Word :=
  let l := s.slotsRunning
  BitVec.ofNat 32 ((List.range 32).foldl (fun m n => if l.contains n then m + 2 ^ n else m) 0)

/-- STATE of a physical lane in BUN_LSTAT. A lane that has executed HALT or is stopped reads halted, one that waits at a merge arrived (DEDUCED). -/
def lstatState (s : State) (p : Nat) : Nat :=
  let c := s.core p
  if !s.domOn (2 + p / 17) then 0
  else if c.faulty || c.ovf then 7
  else match s.scanOf p with
  | none => 6
  | some k =>
    let r := s.laneRole k
    if r = 2 then (if s.taskBits p = 0 then 1 else if c.held then 4 else 5)
    else if r = 1 then
      match c.run with
      | .exec => if c.held then 4 else 2
      | .atMerge => 3
      | .segEnd | .stopped | .waitQueue => 4
      | .idle => 1
    else 1

/-- BUN_LSTATj of Bunch `b`. -/
def lstatView (s : State) (b j : Nat) : Word :=
  let p := 17 * b + j
  BitVec.ofNat 32 (s.lstatState p + 256 * s.taskBits p + 2 ^ 16 * ((s.cx p).pc % 2 ^ 14))

/-- The core issues nothing for another reason than a stall (06 R237, DBG_PC.HALTED). -/
def coreHalted (s : State) (c : Nat) : Bool :=
  let k := s.core c
  k.run != .exec || k.held || k.dbgHalt || k.faulty || (decide (c < 68) && !s.domOn (2 + c / 17))

/-- DBG_PC; a PCSEL that names no core reads 0. -/
def dbgPcView (s : State) : Word :=
  let c := s.rf Reg.DBG_PCSEL 6 0
  if c < 73 then BitVec.ofNat 32 ((s.cx c).pc + 2 ^ 31 * bn (s.coreHalted c)) else 0

end State

open State

/-! ## The commands -/

/-- MERGE_DONE (06 R201, R204). -/
def execMergeDone (s : State) : Res State := .next s.mergeDone

/-- EVENT_DISPATCH (06 R212). -/
def execEventDispatch (s : State) : Res State := .next s.dispatch

/-- PREEMPTION (06 R214) on core `c`. -/
def execPreemption (c : Core) (s : State) : Res State := .next (if c.val < 68 then s.preempt c.val else s)

/-- LANE_FAULT (06 R219): the causes are 1 to 6; an uncorrectable word is recorded by BGD too (19 R582), at an address that the command does not give
where it lies in the scratch or the register file. -/
def execLaneFault (p : Fin 68) (cause : BitVec 4) (s : State) : Res State :=
  let c := cause.toNat
  if c = 0 ∨ 6 < c then .next s
  else if c = 5 then
    let a := (s.cx p).pc % 2 ^ 14
    .next (((s.ueRecord 0 p s.activeHalf a).raise 210 (ueDetail p a)).laneFault p 5)
  else if c ≤ 2 then
    let f := s.free
    .next ((f.2.ueRecord (3 - c) p 0 (f.1.toNat % 2048)).laneFault p c)
  else .next (s.laneFault p c)

/-- SPARE_READY (06 R222). -/
def execSpareReady (b : Fin 4) (s : State) : Res State := .next (s.spareReady b)

/-- COPY_ERR (06 R225); `half`: B. -/
def execCopyErr (b : Fin 4) (addr : BitVec 14) (half : Bool) (s : State) : Res State := .next (s.copyErr b addr.toNat (bn half))

/-- FORCEFLT (06 R240). -/
def execForceflt (ag : Agent) (b : Fin 4) (v : Word) (s : State) : Res State := .next (s.regWrite ag (Reg.BUN_FORCEFLT b) (·.forceWrite b v))

/-- HOLD_STEP (06 R230): SCN_HOLDCMD written with STEP = 1. -/
def execHoldStep (ag : Agent) (s : State) : Res State := .next (s.regWrite ag Reg.SCN_HOLDCMD (·.holdCmd 1))

/-- HOLD_CYCLE (06 R231): SCN_HOLDCMD written with CYCLE = 1. -/
def execHoldCycle (ag : Agent) (s : State) : Res State := .next (s.regWrite ag Reg.SCN_HOLDCMD (·.holdCmd 2))

/-- DBG_CORE_HALT (06 R237). -/
def execDbgCoreHalt (ag : Agent) (v : Word) (s : State) : Res State := .next (s.regWrite ag Reg.DBG_CORE_HALT (·.dbgCore ag v true))

/-- DBG_CORE_RUN (06 R237). -/
def execDbgCoreRun (ag : Agent) (v : Word) (s : State) : Res State := .next (s.regWrite ag Reg.DBG_CORE_RUN (·.dbgCore ag v false))

/-- SERVICE_LANE_FAULT (19 R582): a service lane halts and sets its SVFLT bit; the Steward (4) halts. The command does not say which memory the word
lies in, nor where: free values. -/
def execServiceLaneFault (i : Fin 5) (s : State) : Res State :=
  let f := s.free
  .next ((f.2.ueRecord (fld f.1 31 31) (68 + i.val) 0 (fld f.1 14 0)).svcStop (68 + i.val))

end Sys2Proof.Machine
end

