-- ==== Sys2Proof/Machine/Graft.lean ====
section
/-! DEFINITION. Online program exchange (09): arming and the digest, the Graft map, attempts and the swap. -/

-- one declaration at a time: many at once take a thread and its stack each
set_option Elab.async false

namespace Sys2Proof.Machine

namespace State

/-! ## Arming (09 R293–R297) -/

/-- GRF_MAPLEN. -/
def mapLen (s : State) : Nat := s.rf Reg.GRF_MAPLEN 16 0

/-- An ARM refused (09 R293): RESULT, REASON where the table gives one, event 63. -/
def armRefused (s : State) (reason : Nat) : State :=
  ((s.setRf Reg.GRF_STAT 7 4 7).setRf Reg.GRF_STAT 11 8 reason).raise 63 reason

/-- GRF_CTRL.ARM (09 R293, R294); the conditions are tested in the order of the table (DEDUCED, log 31). -/
def armGo (s : State) : State :=
  if !s.modeIn [Mode.run, Mode.stop, Mode.tracking, Mode.stnRun] then s.armRefused 1
  else if s.mapErr true ≠ 0 then s.armRefused 2
  else if 65536 < s.mapLen then s.armRefused 3
  else if s.grfState ≠ 0 ∨ s.swapPend ∨ s.copyBusy then s.armRefused 4
  else if !s.rb (Reg.PAGE_CTRL 0x04) 2 then s.armRefused 5
  else if !s.domOn (7 - s.activeHalf) then (s.setRf Reg.GRF_STAT 7 4 6).raise 63 0xF
  else s.setReg Reg.GRF_STAT 1

/-- GRF_CTRL.DISARM (09 R297). -/
def disarm (s : State) : State :=
  if s.grfState = 1 ∨ s.grfState = 2 then
    { (s.setRf Reg.GRF_STAT 2 0 0).setRf Reg.GRF_STAT 7 4 4 with grf := { s.grf with dispStop := false } }
  else s.wign 0x0C

/-- A write of GRF_CTRL. ARM and DISARM both 1 are a host error: a free value is what GRF_STAT then shows, and with it what applies (09 R316). -/
def grfCtrl (s : State) (v : Word) : State :=
  if fld v 1 0 = 3 then (let f := s.free; f.2.setReg Reg.GRF_STAT (f.1 &&& 0xFF0FF7))
  else if fld v 0 0 = 1 then s.armGo
  else if fld v 1 1 = 1 then s.disarm
  else s

/-- The 8 bytes of map entry `i`. -/
def mapEntry (s : State) (i : Nat) : List Byte := s.rdBytes (Key.map + 8 * i) 8

/-- The bytes of the package in the order in which the digest takes them (09 R294). -/
def packageBytes (s : State) : List Byte :=
  let h := 1 - s.activeHalf
  ((List.range 64).flatMap fun k =>
    let p := s.physOf k
    ((List.range 0x4000).flatMap fun w => s.rdBytes (Key.instr p h w) 3) ++ s.rdBytes (Key.const p h) 4096)
  ++ ((List.range 256).flatMap fun i => leBytes 4 (s.reg (Reg.page 0x04 + 0x500 + 4 * i)).toNat)
  ++ s.rdBytes Key.map (8 * s.mapLen) ++ leBytes 4 s.mapLen

/-! ## The map (09 R298–R305) -/

/-- OP of an entry. -/
def opOf (e : List Byte) : Nat := byteAt e 0 % 16
/-- The 24-bit fields of an entry: bytes 2–4 and 5–7. -/
def srcOf (e : List Byte) : Nat := ofLE (sub e 2 3)
def dstOf (e : List Byte) : Nat := ofLE (sub e 5 3)

/-- The clk of an entry (09 R305). -/
def entryClk (e : List Byte) : Nat :=
  4 + (match opOf e with
    | 1 | 2 => (byteAt e 1 + 8) / 8
    | 3 | 4 => 1
    | _ => 0)

/-- T_map (09 R305). -/
def tmap (s : State) : Nat := (List.range s.mapLen).foldl (fun n i => n + entryClk (s.mapEntry i)) 0

/-- Key and size of a space that an entry names: 0 Pantry, 1 output image, 2 exchange memory, 3 input image. -/
def mapSpace : Nat → Nat × Nat
  | 0 => (Key.pantry, 0x400000)
  | 1 => (Key.output, 0x4000)
  | 2 => (Key.exch, 0x2000)
  | _ => (Key.input, 0x4000)

/-- Bytes read by an entry, what their ECC errors do included (09 R300, R304). -/
def mapRd (s : State) (space off : Nat) : Nat → List Byte × State
  | 0 => ([], s)
  | n + 1 =>
    let b := s.rdT ((mapSpace space).1 + off % (mapSpace space).2)
    let r := b.2.mapRd space (off + 1) n
    (b.1 :: r.1, r.2)

/-- Byte `i` of `bs` written at its place; a word that the entry writes whole takes fresh check bits (07 R253). -/
def mapByte (s : State) (space off : Nat) (bs : List Byte) (i : Nat) : State :=
  let a := (off + i) % (mapSpace space).2
  let k := (mapSpace space).1 + a
  let s := if a % 4 ≤ i ∧ i + 4 ≤ bs.length + a % 4 then s.setEcc k 0 else s.touch k
  let s := s.wr k (bs.getD i 0)
  if space = 0 then s.dirty k false else s

/-- Bytes written by an entry: directly, to ALL but not to ND; whole Pantry lines lose their POISON mark (09 R304). -/
def mapWr (s : State) (space off : Nat) (bs : List Byte) : State :=
  let s := (List.range bs.length).foldl (fun t i => t.mapByte space off bs i) s
  if space = 0 then
    (List.range (bs.length / 64 + 1)).foldl (fun t j =>
      let i := (64 - off % 64) % 64 + 64 * j
      if i + 64 ≤ bs.length then { t with img := { t.img with poison := setMark t.img.poison ((off + i) % 0x400000 / 64) false } } else t) s
  else s

/-- A CELL entry (09 R302). -/
def mapCell (s : State) (kind : Nat) (m : Byte) (src dst : Nat) : State :=
  if kind = 0 then
    if m.toNat % 16 = s.cellMode src % 16 ∧ m.toNat % 16 < 9 then
      let base := s.cellBase src
      let v := s.rdLE (cellKey src) 6
      let st := s.cellStatus src
      (((s.wrLE (cellKey dst) 6 v).wr (cellKey dst + 6) m).setStatus dst st).setCellBase dst base
    else s.cellSetMode dst m
  else if kind = 1 then s.cellSetMode dst m
  else s.cellSetMode dst 0

/-- An EDGE entry (09 R303). -/
def mapEdge (s : State) (init sbit dbit src dst : Nat) : State :=
  let r := if init = 0 then s.mapRd (src / 2 ^ 22) (src % 2 ^ 22) 1 else ([], s)
  let b := if init = 0 then byteAt r.1 0 / 2 ^ sbit % 2 == 1 else init == 2
  let k := (mapSpace (dst / 2 ^ 22)).1 + dst % 2 ^ 22 % (mapSpace (dst / 2 ^ 22)).2
  let old := r.2.rdT k
  let m : Byte := BitVec.ofNat 8 (2 ^ dbit)
  old.2.mapWr (dst / 2 ^ 22) (dst % 2 ^ 22) [if b then old.1 ||| m else old.1 &&& ~~~m]

/-- The reserved bits of an entry are 0 and its fields name something (09 R299, R316). -/
def entryOk (e : List Byte) : Bool :=
  let b := byteAt e
  match opOf e with
  | 0 => true
  | 1 => b 0 / 16 == 0 && srcOf e / 2 ^ 22 == 0 && dstOf e / 2 ^ 22 == 0
  | 2 => b 0 / 16 == 0 && srcOf e == 0 && dstOf e / 2 ^ 22 != 3
  | 3 => decide (b 0 / 16 < 3) && b 3 / 16 == 0 && b 4 == 0 && b 6 / 16 == 0 && b 7 == 0
  | 4 => decide (b 0 / 16 < 3) && decide (b 1 < 64) && dstOf e / 2 ^ 22 != 3
  | _ => false

/-- An entry that is a host error writes free values at a free place of a space or cell that the map can reach (09 R316). -/
def mapFree (s : State) : State :=
  let f := s.free64
  let w := f.1.toNat
  let r := f.2.freeBytes (List.replicate (w / 2 ^ 32 % 256 + 1) 0)
  if w % 4 = 3 then r.2.wrBytes (cellKey (w / 4 % 4096)) (r.1.take 8)
  else r.2.mapWr (w % 4) (w / 4 % 2 ^ 22) r.1

/-- One map entry executed. -/
def mapExec (s : State) (e : List Byte) : State :=
  if !entryOk e then s.mapFree
  else match opOf e with
  | 1 => let r := s.mapRd 0 (srcOf e) (byteAt e 1 + 1); r.2.mapWr 0 (dstOf e) r.1
  | 2 => s.mapWr (dstOf e / 2 ^ 22) (dstOf e % 2 ^ 22) (List.replicate (byteAt e 1 + 1) 0)
  | 3 => s.mapCell (byteAt e 0 / 16) (BitVec.ofNat 8 (byteAt e 1)) (srcOf e % 4096) (dstOf e % 4096)
  | 4 => s.mapEdge (byteAt e 0 / 16) (byteAt e 1 % 8) (byteAt e 1 / 8 % 8) (srcOf e) (dstOf e)
  | _ => s

/-- The map ends in SAFE-HALT after the entry that brought it there (09 R304). -/
def mapHalted (s : State) : State :=
  { (s.setRf Reg.GRF_STAT 2 0 0).setRf Reg.GRF_STAT 7 4 5 with grf := { s.grf with dispStop := false } }

/-- `n` entries from entry `i` on, in index order; GRF_IDX shows how many completed (09 R300, R304). -/
def mapRun (s : State) (i : Nat) : Nat → State
  | 0 => s
  | n + 1 =>
    let was := s.mode
    let s := (s.mapExec (s.mapEntry i)).setReg Reg.GRF_IDX (BitVec.ofNat 32 (i + 1))
    if was ≠ Mode.safeHalt ∧ s.mode = Mode.safeHalt then s.mapHalted else s.mapRun (i + 1) n

/-- The swap and the whole map (09 R306 steps 4 and 5). The map's accesses take place with the swap, since no lane runs and every other access to
what it writes waits for its end (R305; log 32). -/
def grfSwap (s : State) : State :=
  let s := (s.swapHalves.swapSets.setRf Reg.GRF_STAT 2 0 3).setReg Reg.GRF_IDX 0
  let n := s.scn.lastB.elim s.nextB (· + 1)
  { s with grf := { s.grf with cyc := n, swapped := some n, dispStop := true, told := false, goDue := false } }.mapRun 0 s.mapLen

/-! ## Attempts (09 R306, R309, R311) -/

/-- What T_apply does for a Graft that is ARMED (09 R306, R309, R311): a standby makes no attempt of its own. -/
def graftApply (s : State) : State :=
  if s.grfState ≠ 2 ∨ !s.modeIn [Mode.run, Mode.stop, Mode.stnRun] then s
  else if s.scn.invalid || s.scn.heldCyc then s.postpone false
  else if s.partnerTracking && !(s.grf.partnerArmed && s.reg64 Reg.GRF_DIGEST_LO == s.reg64 Reg.GRF_PARTNER_DIGEST_LO) then s.postpone true
  else { s with grf := { s.grf with dispStop := true } }

/-- With the test point now, the map ends by the deadline t_{n+1} − SCN_SAMPLE_LEAD (09 R306). -/
def mapFits (s : State) : Bool :=
  decide (4 * s.netT + 5 * (2 + s.tmap) + 4000 * s.rf Reg.SCN_SAMPLE_LEAD 19 0 ≤ 4 * (s.scn.tn + s.periodNs))

/-- The Pantry lines that event tasks, host and firmware wrote since the freeze, then the decision, go to the standby (09 R312). -/
def grfTell (s : State) : State :=
  let nd := s.img.nd.map (·.1)
  let s := nd.foldl (fun t l => t.lineSend 0x03 (4, l)) s
  (s.twnSend 0x05 0 nd.length []).twnCmd 9 0 (s.scn.lastB.getD 0)

/-- The test point (09 R306 steps 2 to 5). -/
def testPoint (s : State) : State :=
  if !s.attempting || !s.slotsRunning.isEmpty then s
  else if s.mapFits then
    let s := if s.lead && s.partnerTracking then s.grfTell else if s.lead then s.fcRestart 3 else s
    s.grfSwap
  else s.postpone false

/-- The attempt fails once its map can no longer end in time (09 R306 step 3). -/
def attemptFail (s : State) : State := if s.attempting && !s.mapFits then s.postpone false else s

/-- A standby that has the active's decision swaps once the COMMIT before it is applied (09 R312). -/
def grfFollow (s : State) : State :=
  if s.following && s.grfState == 2 then (if s.grf.told then s.grfSwap else { s with grf := { s.grf with goDue := true } }) else s

/-- The end of the map (09 R306 step 6). -/
def grfApplied (s : State) : State :=
  if s.grfState ≠ 3 then s
  else
    let n := s.grf.cyc
    let s := ((s.setRf Reg.GRF_STAT 2 0 0).setRf Reg.GRF_STAT 7 4 1).raise 60 (n % 2 ^ 32)
    { (s.setReg64 Reg.GRF_CYCLE_LO (n % 2 ^ 48)).bump Reg.GRF_APPLIED_CNT with grf := { s.grf with dispStop := false } }

/-- The digest ends (09 R294, R305, R310). -/
def digestDone (s : State) : State :=
  if s.grfState ≠ 1 then s
  else
    let d := (crc64 s.packageBytes).toNat
    let s := (s.setReg64 Reg.GRF_DIGEST_LO d).setReg Reg.GRF_TMAP (BitVec.ofNat 32 s.tmap)
    (s.setRf Reg.GRF_STAT 2 0 2).twnCmd 8 0 d

/-! ## Access to the map memory (09 R298) -/

/-- GRF_MAPIDX. -/
def mapIdx (s : State) : Nat := s.rf Reg.GRF_MAPIDX 15 0

/-- Every agent's staging buffer loaded with the entry that GRF_MAPIDX names. -/
def mapReload (s : State) : State :=
  let lo := BitVec.ofNat 32 (s.rdLE (Key.map + 8 * s.mapIdx) 4)
  let hi := BitVec.ofNat 32 (s.rdLE (Key.map + 8 * s.mapIdx + 4) 4)
  (List.range 7).foldl (fun t n =>
    let m := Sparse.set stageReset t.stage (n * 2 ^ 32 + Reg.GRF_MAPDATA_LO) lo
    { t with stage := Sparse.set stageReset m (n * 2 ^ 32 + Reg.GRF_MAPDATA_HI) hi }) s

/-- GRF_MAPIDX set. -/
def setMapIdx (s : State) (i : Nat) : State := (s.setReg Reg.GRF_MAPIDX (BitVec.ofNat 32 (i % 65536))).mapReload

/-- A write of GRF_MAPIDX, ignored while a Graft is under way (09 R295). -/
def mapIdxWrite (s : State) (v : Word) : State := if s.grafting then s.wign 0x0C else s.setMapIdx (fld v 15 0)

/-- A write of GRF_MAPLEN (09 R295). -/
def mapLenWrite (s : State) (v : Word) : State :=
  if s.grafting then s.wign 0x0C else s.setReg Reg.GRF_MAPLEN (BitVec.ofNat 32 (fld v 16 0))

/-- A write of GRF_MAPDATA_HI by agent number `n` commits the entry and counts GRF_MAPIDX on. -/
def mapCommit (s : State) (n : Nat) (v : Word) : State :=
  if s.grafting then s.wign 0x0C
  else
    let lo := Sparse.get stageReset s.stage (n * 2 ^ 32 + Reg.GRF_MAPDATA_LO)
    ((s.wrLE (Key.map + 8 * s.mapIdx) 4 lo.toNat).wrLE (Key.map + 8 * s.mapIdx + 4) 4 v.toNat).setMapIdx (s.mapIdx + 1)

/-- A read of GRF_MAPDATA_HI by agent number `n` returns the latched high word and counts GRF_MAPIDX on. -/
def mapHiRead (s : State) (n : Nat) : DWord × State :=
  ((Sparse.get regReset s.rbuf (n * 2 ^ 32 + Reg.GRF_MAPDATA_HI)).setWidth 64, s.setMapIdx (s.mapIdx + 1))

/-- GRF_WINDOW: D − T_apply − 2 clk of the current schedule; 0 while none runs. -/
def grfWindowView (s : State) : Word :=
  if s.schedRuns then BitVec.ofNat 32 (((s.rf Reg.SCN_PERIOD 19 0 - s.rf Reg.SCN_SAMPLE_LEAD 19 0 - s.rf Reg.SCN_APPLY_OFS 19 0) * 800 - 2) % 2 ^ 30) else 0

end State

open State

/-! ## The commands -/

/-- GRF_ARM (09 R293). -/
def execGrfArm (ag : Agent) (s : State) : Res State := .next (s.regWrite ag Reg.GRF_CTRL (·.grfCtrl 1))

/-- GRAFT_DIGEST_DONE (09 R294). -/
def execGraftDigestDone (s : State) : Res State := .next s.digestDone

/-- GRF_DISARM (09 R297). -/
def execGrfDisarm (ag : Agent) (s : State) : Res State := .next (s.regWrite ag Reg.GRF_CTRL (·.grfCtrl 2))

/-- MAPIDX_WRITE (09 R298). -/
def execMapidxWrite (ag : Agent) (v : Word) (s : State) : Res State := .next (s.regWrite ag Reg.GRF_MAPIDX (·.mapIdxWrite v))

/-- MAPDATA_HI_WRITE (09 R298). -/
def execMapdataHiWrite (ag : Agent) (v : Word) (s : State) : Res State :=
  .next (s.regWrite ag Reg.GRF_MAPDATA_HI (·.mapCommit (agentNum ag) v))

/-- MAPDATA_HI_READ (09 R298). -/
def execMapdataHiRead (ag : Agent) (s : State) : Res State :=
  .next (s.guardedRd ag Reg.GRF_MAPDATA_HI (·.mapHiRead (agentNum ag)))

/-- GRAFT_TEST_POINT (09 R306). -/
def execGraftTestPoint (s : State) : Res State := .next s.testPoint

/-- GRAFT_ATTEMPT_FAIL (09 R306). -/
def execGraftAttemptFail (s : State) : Res State := .next s.attemptFail

/-- GRF_APPLIED (09 R306). -/
def execGrfApplied (s : State) : Res State := .next s.grfApplied

/-- GRAFT_LATE (09 R313): a standby whose map still runs at a boundary drops out; the map goes on to its end. -/
def execGraftLate (s : State) : Res State := .next (if s.following && s.grfState == 3 then s.diverge 9 else s)

/-- CMD_GRF_GO (09 R312). -/
def execCmdGrfGo (r : List Byte) (s : State) : Res State := .next (s.cmdRx r 9 fun _ _ s => s.grfFollow)

end Sys2Proof.Machine
end

