-- ==== Sys2Proof/Machine/Station.lean ====
section
/-! DEFINITION. Vuvas, the station's side (10 R336–R342, R344, R348–R351). -/

-- one declaration at a time: many at once take a thread and its stack each
set_option Elab.async false

namespace Sys2Proof.Machine

namespace State

/-- The device runs as a station. -/
def stnActive (s : State) : Bool := s.isStn && s.modeIn [Mode.stnRun, Mode.stnSafe]
/-- LEAD_SRC, 0 for none. -/
def leadSrc (s : State) : Nat := s.rf Reg.VUV_STN_LEAD 7 0
/-- LEAD_EPOCH. -/
def leadEpoch (s : State) : Nat := s.rf Reg.VUV_STN_STATE 31 16
/-- CONF_OK. -/
def confOk (s : State) : Bool := s.rb Reg.VUV_STN_STATE 3
/-- TIMEOUT of the CONF held. -/
def stnTimeout (s : State) : Nat := (s.rd Key.conf).toNat
/-- State code of 10 R351. -/
def stnState (s : State) : Nat := s.rf Reg.VUV_STN_STATE 2 0

/-- The lead is taken: LEAD_EPOCH and LEAD_SRC; `event`: STN_NEWLEAD is raised. -/
def takeLead (s : State) (f : VFrame) (event : Bool) : State :=
  let s := (s.setRf Reg.VUV_STN_STATE 31 16 f.epoch).setRf Reg.VUV_STN_LEAD 7 0 f.src
  if event then s.raise 85 (f.epoch + 65536 * f.src) else s

/-- The lead table (10 R336): whether the frame is accepted, and the state after it. -/
def leadCheck (s : State) (f : VFrame) : Bool × State :=
  let act := f.flags / 16 % 2 == 1
  if s.leadSrc = 0 then (act, if act then s.takeLead f false else s)
  else
    let d := (f.epoch + 65536 - s.leadEpoch) % 65536
    if d = 0 then
      if f.src = s.leadSrc ∨ !act then (true, s)
      else if f.src = 0xF1 then (true, s.takeLead f true)
      else (false, s.bump Reg.VUV_STN_CLAIMLOST)
    else if d ≤ 32767 then (act, if act then s.takeLead f true else s)
    else (false, s.bump Reg.VUV_STN_EPOCHOLD)

/-- A frame received by a station: R327, the count of RXAA to RXBB, the lead table, then `k` for an accepted frame of type `want`. -/
def stnFrame (s : State) (net : Net) (f : List Byte) (want : Nat) (k : VFrame → State → State) : State :=
  s.vuvRx net f want fun v s =>
    let s := s.bump (Reg.VUV_STN_RX ((if v.src = 0xF1 then 0 else 2) + (match net with | .a => 0 | .b => 1)))
    if !s.stnActive then s
    else
      let c := s.leadCheck v
      if c.1 then k v { c.2 with stn := { c.2.stn with gotFrame := true } } else c.2

/-- STATION-RUN is left for the safe state at once (transition row 29) with SAFECAUSE `cause`; in STATION-SAFE nothing changes. -/
def stnSafeNow (s : State) (cause : Nat) : State :=
  if s.mode = Mode.stnRun then { s with stn := { s.stn with cause := some cause } }.changeMode Mode.stnSafe 29 else s

/-- A frame's segments name this station. -/
def namesMe (s : State) (f : VFrame) : Bool × State := let c := s.stnNum; (f.segs.any (·.addr == c.1), c.2)

/-- An OUT segment for this station (10 R337); a segment that arrives less than the preparation time before its TIME is LATE: counted, and never applied (10 R338). -/
def outSeg (s : State) (f : VFrame) : State :=
  let c := s.stnNum
  let s := c.2
  match f.segs.find? (·.addr == c.1) with
  | none => s
  | some g =>
    let ok := match s.scn.lastB with
      | none => false
      | some n => n % 65536 == f.seq &&
          (let d := (f.time + 2 ^ 64 - s.applyAt n % 2 ^ 64) % 2 ^ 64; decide (d ≤ 1000) || decide (2 ^ 64 - 1000 ≤ d))
    if !ok then s.bump Reg.VUV_RX_SEQ
    else if (s.stn.seg.map fun (x : Seg) => (x.epoch.toNat, x.seq.toNat)) = some (f.epoch, f.seq) then s
    else
      let prep := max 6 (s.rf Reg.VUV_STN_PREP 7 0) * 1000
      let late := decide ((f.time + 2 ^ 64 - s.netT) % 2 ^ 64 < prep) || decide (2 ^ 63 ≤ (f.time + 2 ^ 64 - s.netT) % 2 ^ 64)
      let s := s.wrBytes Key.outSeg (g.data.take 128)
      let s := s.setRf Reg.VUV_STN_STATE 15 8 0
      let s := if late then (s.bump Reg.VUV_STN_LATE).raise 84 (f.seq % 65536) else s
      { s with stn := { s.stn with seg := some ⟨BitVec.ofNat 16 f.epoch, BitVec.ofNat 16 f.seq, BitVec.ofNat 64 f.time, late, false⟩, gotOut := true } }

/-- The schedule registers from a SCHED (10 R325, R348; 06 R197). -/
def adoptSched (s : State) (d : List Byte) : State :=
  let s := s.setReg64 Reg.SCN_ORIGIN_LO (ofBE (sub d 0 8))
  let s := ((s.setReg Reg.SCN_PERIOD (BitVec.ofNat 32 (ofBE (sub d 8 4) % 2 ^ 20))).setReg Reg.SCN_SAMPLE_LEAD
    (BitVec.ofNat 32 (ofBE (sub d 12 4) % 2 ^ 20))).setReg Reg.SCN_APPLY_OFS (BitVec.ofNat 32 (ofBE (sub d 16 4) % 2 ^ 20))
  let s := { s with scn := { s.scn with lastB := none } }
  s.raise 80 (ofBE (sub d 8 4))

/-- A SCHED accepted (10 R348, R351): taken only while TIM_STAT.UNLOCKED = 0; one that differs in STATION-RUN brings the safe state. -/
def sched (s : State) (f : VFrame) : State :=
  match f.segs with
  | [g] =>
    if s.rb Reg.TIM_STAT 0 then s
    else
      let d := g.data
      if s.stnState = 0 then
        let s := s.adoptSched d
        { s.setRf Reg.VUV_STN_STATE 2 0 (if s.confOk then 2 else 1) with stn := { s.stn with hello := 0 } }
      else if d.take 20 = s.schedData.take 20 then s
      else (s.stnSafeNow 5).adoptSched d
  | _ => s

/-- A SAFE frame accepted (10 R339, R340). -/
def safeFrame (s : State) (f : VFrame) : State :=
  let c := s.namesMe f
  if f.segs.isEmpty ∨ c.1 then
    let s := c.2
    let s := { s with stn := { s.stn with safeSeq := some (BitVec.ofNat 16 f.seq) }, sys := { s.sys with trans := s.sys.trans.filter fun t => t.row != 28 } }
    s.stnSafeNow 3
  else c.2

/-- A RELEASE accepted (10 R340): STATION-RUN from the next boundary on. -/
def release (s : State) (f : VFrame) : State :=
  let c := s.namesMe f
  let s := c.2
  if c.1 && s.confOk && s.stnState == 2 && s.mode == Mode.stnSafe && s.stn.safeSeq != some (BitVec.ofNat 16 f.seq) && !s.sys.trans.any (·.row == 28) then
    { s with sys := { s.sys with trans := s.sys.trans ++ [⟨28, Mode.stnRun, Mode.stnSafe, false, 0⟩] } }
  else s

/-- Each channel's SAFE field takes 2 where SAFEHOLD is 1, else SAFEVAL (14 R471), and the new configuration goes to the Rind. -/
def confRind (s : State) : State :=
  ((List.range 32).foldl (fun t c =>
    let bit := fun k => (t.rd (Key.conf + k + c / 8)).toNat / 2 ^ (c % 8) % 2
    t.setRf (Reg.RND_CHCFG c) 3 2 (if bit 144 = 1 then 2 else bit 16)) s).rndPushAll

/-- A CONF accepted under the lead (10 R344). -/
def conf (s : State) (f : VFrame) : State :=
  let c := s.namesMe f
  let s := c.2
  match f.segs with
  | [g] =>
    if !c.1 then s
    else if (crc64 (g.data.take 4 ++ g.data.drop 12)).toNat ≠ ofBE (sub g.data 4 8) then s.raise 87 0
    else
      let s := (s.stnSafeNow 7).wrBytes Key.conf g.data
      let s := s.setRb Reg.VUV_STN_STATE 3 true
      let s := if s.stnState = 1 then s.setRf Reg.VUV_STN_STATE 2 0 2 else s
      ((s.raise 81 (byteAt g.data 0)).stnSafeBuf).confRind
  | _ => s

/-! ## Boundaries and the station's own frames -/

/-- A boundary of the station's schedule (10 R339, R341, R342): the counts of boundaries without a segment and without an accepted frame. -/
def stnBoundary (s : State) : State :=
  let s := if s.stn.gotOut then s else s.setRf Reg.VUV_STN_STATE 15 8 (min 255 (s.rf Reg.VUV_STN_STATE 15 8 + 1))
  { s with stn := { s.stn with gotOut := false, gotFrame := false, noFrame := if s.stn.gotFrame then 0 else s.stn.noFrame + 1, hello := s.stn.hello - 1, diag := s.stn.diag + 1 } }

/-- Input blocks 1 and 2 at the station's freeze (10 R350): the IN segment sent last and the segment applied last. -/
def stnBlocks (s : State) : State := (s.copyWords Key.inSeg Key.input 128).copyWords Key.appSeg (Key.input + 128) 128

/-- The cycle that a sample at network time `t` feeds: the one whose boundary lies SCN_SAMPLE_LEAD later (10 R324). -/
def sampleCycle (s : State) : Option Nat := s.cycleAt (s.netT + s.rf Reg.SCN_SAMPLE_LEAD 19 0 * 1000)

/-- A station frame (10 R321, R324, R326): EPOCH is LEAD_EPOCH, or 0 without a lead. -/
def stnSend (s : State) (type flags seq time sflags : Nat) (data : List Byte) : State :=
  let c := s.stnNum
  c.2.vuvSend type flags (if s.leadSrc = 0 then 0 else s.leadEpoch) seq time [segBytes c.1 sflags data]

/-- SEQ of a station's HELLO and DIAG (10 R324). -/
def stnSeq (s : State) : Nat := if s.stnState = 0 then 0 else s.lastSeq

/-- A sample instant (10 R349): the IN segment is built from the last Rind report and the input buffer, and sent once a CONF is held. -/
def stnSample (s : State) : State :=
  match s.stnActive && s.stnState != 0, s.sampleCycle with
  | true, some n =>
    let o := s.rf Reg.VUV_STN_INBUF 19 7 * 128
    let data := leBytes 4 (s.reg Reg.RND_INSTATE).toNat ++ s.rdBytes (Key.sram + o + 4) 124
    if s.confOk then
      let s := s.wrBytes Key.inSeg data
      let safe := bn (s.mode == Mode.stnSafe)
      let s := s.stnSend 0x02 (2 * safe) (n % 65536) ((s.boundaryAt n - s.rf Reg.SCN_SAMPLE_LEAD 19 0 * 1000) % 2 ^ 64) (safe + 2) data
      { s with stn := { s.stn with inSeq := some (BitVec.ofNat 16 n) } }
    else s
  | _, _ => s

/-- How far network time has passed TIME, modulo 2^64. -/
def sinceTime (s : State) (time : BitVec 64) : Nat := (s.netT + 2 ^ 64 - time.toNat) % 2 ^ 64

/-- The accepted segment at its TIME (10 R338, R350): in STATION-RUN it is applied, unless it is LATE or its TIME has passed by more than one clk of the time base; in
STATION-SAFE it is not. Before its TIME nothing happens. -/
def stnApply (s : State) : State :=
  match s.stn.seg with
  | none => s
  | some g =>
    if g.applied || decide (2 ^ 63 ≤ s.sinceTime g.time) then s
    else
      let now := decide (s.sinceTime g.time < 16)
      let s := { s with stn := { s.stn with seg := some { g with applied := true } } }
      if now && !g.late && s.mode == Mode.stnRun then
        let s := s.copyMem Key.outSeg Key.appSeg 128
        let s := s.sramPut (s.rf Reg.VUV_STN_OUTBUF 19 7 * 128 + 4) (s.rdBytes (Key.outSeg + 4) 124)
        { s with stn := { s.stn with released := true } }
      else s

/-- HELLO data (10 R325): the spec gives FWVER and the numbers of points no source; FWVER is the running Pulp release (DEDUCED), the points are free values. -/
def helloData (s : State) : List Byte × State :=
  let f := s.free
  (beBytes 8 (s.reg64 Reg.FUS_UID_LO) ++ beBytes 4 (s.reg Reg.VUV_STN_PRODUCT).toNat ++ beBytes 4 (s.reg Reg.UPD_VER_PULP).toNat
    ++ (if s.confOk then s.rdBytes (Key.conf + 4) 8 else List.replicate 8 0) ++ beBytes 2 (fld f.1 15 0) ++ beBytes 2 (fld f.1 31 16) ++ beBytes 4 0, f.2)

/-- A HELLO is due (10 R342): a schedule and no CONF, at the first sample instant and every 16 cycles. -/
def helloTx (s : State) : State :=
  if s.stnActive && s.stnState == 1 && !s.confOk && s.stn.hello == 0 then
    let d := s.helloData
    let s := d.2.stnSend 0x06 0 d.2.stnSeq d.2.netT 0 d.1
    { s with stn := { s.stn with hello := 16 } }
  else s

/-- DIAG data (10 R325). -/
def diagData (s : State) : List Byte :=
  let r := fun a => beBytes 4 (s.reg a).toNat
  r (Reg.VUV_STN_RX 0) ++ r (Reg.VUV_STN_RX 1) ++ r (Reg.VUV_STN_RX 2) ++ r (Reg.VUV_STN_RX 3) ++ r Reg.VUV_STN_CRCA ++ r Reg.VUV_STN_CRCB
    ++ r Reg.VUV_STN_LATE ++ r Reg.VUV_STN_TIMEOUTS ++ r Reg.VUV_STN_EPOCHOLD ++ r Reg.VUV_STN_CLAIMLOST ++ beBytes 2 s.leadEpoch ++ beBytes 1 s.leadSrc
    ++ beBytes 1 s.stnState ++ beBytes 4 0

/-- A DIAG is due every DIAG_DIV cycles of the CONF held; 0 means none (10 R325). -/
def diagTx (s : State) : State :=
  let div := ofBE (s.rdBytes (Key.conf + 2) 2)
  if s.stnActive && s.confOk && div != 0 && decide (div ≤ s.stn.diag) then
    let s := s.stnSend 0x08 0 s.stnSeq s.netT 0 s.diagData
    { s with stn := { s.stn with diag := 0 } }
  else s

/-- TOCNT has reached TIMEOUT (10 R339). -/
def stnTimeoutNow (s : State) : State :=
  if s.stnActive && s.confOk && s.mode == Mode.stnRun && decide (s.stnTimeout ≤ s.rf Reg.VUV_STN_STATE 15 8) then
    (s.bump Reg.VUV_STN_TIMEOUTS).stnSafeNow 2
  else s

/-- No frame accepted for 4 × TIMEOUT boundaries, or for 40 without a CONF (10 R341): the safe state, then lead, schedule and CONF are given up. -/
def stnLeadLost (s : State) : State :=
  if s.stnActive && s.leadSrc != 0 && decide ((if s.confOk then 4 * s.stnTimeout else 40) ≤ s.stn.noFrame) then
    let s := s.stnSafeNow 6
    let s := ((s.setReg Reg.VUV_STN_STATE (BitVec.ofNat 32 (s.rf Reg.VUV_STN_STATE 15 8 * 256))).setRf Reg.VUV_STN_LEAD 7 0 0).raise 86 0
    { s with stn := { cause := none }, sys := { s.sys with trans := s.sys.trans.filter fun t => t.row != 28 }, scn := { s.scn with lastB := none } }
  else s

end State

open State

/-! ## The commands -/

/-- OUT_FRAME_RX (10 R337). -/
def execOutFrameRx (net : Net) (f : List Byte) (s : State) : Res State := .next (s.stnFrame net f 1 fun v s => s.outSeg v)

/-- SCHED_RX (10 R348). -/
def execSchedRx (net : Net) (f : List Byte) (s : State) : Res State := .next (s.stnFrame net f 3 fun v s => s.sched v)

/-- SAFE_FRAME_RX (10 R339). -/
def execSafeFrameRx (net : Net) (f : List Byte) (s : State) : Res State := .next (s.stnFrame net f 4 fun v s => s.safeFrame v)

/-- RELEASE_RX (10 R340). -/
def execReleaseRx (net : Net) (f : List Byte) (s : State) : Res State := .next (s.stnFrame net f 5 fun v s => s.release v)

/-- CONF_RX (10 R344). -/
def execConfRx (net : Net) (f : List Byte) (s : State) : Res State := .next (s.stnFrame net f 7 fun v s => s.conf v)

/-- TAKE_RX (10 R336): acts through the lead table only. -/
def execTakeRx (net : Net) (f : List Byte) (s : State) : Res State := .next (s.stnFrame net f 9 fun _ s => s)

/-- STATION_APPLY (10 R338). -/
def execStationApply (s : State) : Res State := .next s.stnApply

/-- STATION_SAMPLE (10 R349). -/
def execStationSample (s : State) : Res State := .next s.stnSample

/-- HELLO_TX (10 R342). -/
def execHelloTx (s : State) : Res State := .next s.helloTx

/-- DIAG_TX (10 R325). -/
def execDiagTx (s : State) : Res State := .next s.diagTx

/-- STATION_TIMEOUT (10 R339). -/
def execStationTimeout (s : State) : Res State := .next s.stnTimeoutNow

/-- STN_LEAD_LOST (10 R341). -/
def execStnLeadLost (s : State) : Res State := .next s.stnLeadLost

end Sys2Proof.Machine
end

