-- ==== Sys2Proof/Machine/Cycle.lean ====
section
/-! DEFINITION. The instants of a cycle (06 R192–R197): the boundary with its INPUT FREEZE, the end of the publish copy, the scan deadline, T_apply, and the
freeze of a standby (11 R365). -/

-- one declaration at a time: many at once take a thread and its stack each
set_option Elab.async false

namespace Sys2Proof.Machine

namespace State

/-! ## The scan deadline and T_apply (06 R193, R218) -/

/-- SOLVE of the current cycle is open and the schedule does not pause (06 R227). -/
def solving (s : State) : Bool :=
  s.pwr.coreRun && !s.scn.published && !s.scn.interrupted && s.modeIn [Mode.run, Mode.hold, Mode.tracking, Mode.stnRun, Mode.stnSafe]

/-- The solving lanes with index `lo` to `lo + 31` that have not arrived (06 R218). -/
def notArrived (s : State) (lo : Nat) : Word :=
  BitVec.ofNat 32 ((List.range 32).foldl (fun n i =>
    if s.laneRole (lo + i) = 1 ∧ !hasArrived (s.core (s.physOf (lo + i))) then n + 2 ^ i else n) 0)

/-- The scan deadline (06 R218). In STATION-SAFE, from which the transition table names no way to SAFE-HALT, the rest of the rule applies. -/
def overrun (s : State) : State :=
  if s.solving then
    let ev := s.stepNow % 16 + 16 * bn s.scn.merging + 256 * (s.scn.cyc % 2 ^ 16) + 2 ^ 31
    let s := ((s.setReg Reg.SCN_OVRN_EVID (BitVec.ofNat 32 ev)).setReg Reg.SCN_OVRN_LANES0 (s.notArrived 0)).setReg Reg.SCN_OVRN_LANES1 (s.notArrived 32)
    let s := if s.mode = Mode.stnSafe then (s.stopAllSolving 2 none).abortTasks.setPhase 0 else s.safeHalt 1 2 none
    { s with scn := { s.scn with published := true, applied := true } }.raise 19 ev
  else s

/-- The cycle's PUBLISH has sent OUT frames or a Rind refresh (06 R239, event 18). -/
def cyclePublished (s : State) : Bool :=
  s.scn.published && s.scn.outSent

/-- T_apply of the current cycle (06 R193, R239; 10 R354; 09 R306; 14 R468). While the schedule pauses there is none (06 R227). -/
def apply (s : State) : State :=
  if s.scn.applied || s.scn.interrupted || !s.pwr.coreRun then s
  else
    let s := s.publishDue
    let s := if s.rind.safeDue then { s with rind := { s.rind with safeDue := false } }.rndPush .safe else s
    let s := if s.cyclePublished then (s.raise 18 (s.scn.cyc % 2 ^ 32)).pubLate true else s
    let s := s.graftApply
    let s := if 1 ≤ s.rf Reg.SCN_STAT 14 12 ∧ s.rf Reg.SCN_STAT 14 12 ≤ 4 then s.setPhase 3 else s
    { s with scn := { s.scn with applied := true } }

/-- What the last cycle leaves due at a boundary: its deadline and its T_apply come no later (06 R198, checks 2 and 3; DEDUCED). An attempt of a Graft that
still waits for its test point fails (09 R306). -/
def cycleClose (s : State) : State :=
  let s := if s.scn.applied then s else s.overrun.apply
  if s.attempting then s.postpone false else s

/-- The end of the copy to the publish buffer (06 R193), and the digest (11 R371). -/
def publishCopied (s : State) : State :=
  let s := s.publishDue
  if s.rb Reg.IMG_STAT 1 && s.pwr.coreRun then
    ((s.copyWords Key.output Key.publish 0x4000).setRb Reg.IMG_STAT 1 false).ownDigest false false
  else s

/-! ## Sparing at a boundary (06 R223, R224) -/

/-- A spare whose copy has ended takes the scan lane of the faulty lane. -/
def spareTakes (s : State) (b : Nat) (c : Copy) : State :=
  let q := s.spareOf b
  (s.setReg (Reg.BUN_MAP b (c.scan % 16)) (BitVec.ofNat 32 q)).setRb (Reg.BUN_SPARE b) 8 true

/-- Every spare that is ready enters service; the count of held cycles ends with the last copy. -/
def sparing (s : State) : State :=
  let ready := s.scn.copies.filter (·.2.done)
  let s := ready.foldl (fun t e => t.spareTakes e.1 e.2) s
  let rest := s.scn.copies.filter (!·.2.done)
  { s with scn := { s.scn with copies := rest, heldRun := if rest.isEmpty then 0 else s.scn.heldRun } }

/-- A copy has not ended (06 R224). -/
def copyOpen (s : State) : Bool := s.scn.copies.any (!·.2.done)

/-- The held cycles allowed are used up (06 R224). -/
def spareLate (s : State) : Bool := s.copyOpen && decide (s.rf Reg.SCN_SPARE_HOLD 7 0 ≤ s.scn.heldRun)

/-! ## The start of a cycle (06 R193, R194) -/

/-- Cycle number, timestamp, t_n, and nothing solved yet (06 R134, R194). -/
def startCycle (s : State) (n cts tn : Nat) (held : Bool) : State :=
  let c := { s.scn with cyc := n % 2 ^ 48, cts := cts % 2 ^ 48, tn := tn, invalid := false, heldCyc := held, merging := false }
  let s := { s with scn := { c with mergeE := 0, mergeMax := 0, mergeMaxE := 0, published := true, pubDue := false, applied := false, interrupted := false, outSent := false } }
  let s := { s with img := { s.img with acc := [] }, grf := { s.grf with told := false, goDue := false } }
  let s := { s with rind := { s.rind with refDone := false, sent := none, errSeen := false } }
  ((s.setReg64 Reg.SCN_CYCLE_LO (n % 2 ^ 48)).setReg64 Reg.SCN_TFREEZE_LO (tn % 2 ^ 64)).raise 16 (n % 2 ^ 32)

/-- Solving lane `k` starts its segment with its context cleared (04 R131, 06 R193). -/
def startLane (s : State) (k : Nat) : State :=
  let p := s.physOf k
  let c := s.core p
  if c.faulty then s
  else
    let s := s.endStop p
    let c := { s.core p with run := .exec, cur := 0, stepNo := 0, swb := [], peak := 0, held := false, grace := 0, credit := false, solved := false }
    ((s.setCtx p 0 (startCtx (s.laneEntry k) none)).clearBufs (8 + 8 * p)).setCore p c

/-- SOLVE begins 8 clk after the freeze (06 R193). A station without a solving lane has none. -/
def solveStart (s : State) : State :=
  let ks := s.lanesWith 1
  if ks.isEmpty then s.setPhase 0
  else
    let s := ks.foldl (fun t k => t.startLane k) s
    { (s.setPhase 1).setRf Reg.SCN_STAT 19 16 0 with scn := { s.scn with published := false, solveAt := s.now + 40 } }

/-- A held cycle (06 R224, 11 R369): no lane solves, PUBLISH repeats the publish buffer. -/
def heldCycle (s : State) : State :=
  let h := s.scn.heldRun + 1
  let s := ((s.bump Reg.SCN_HELD).raise 21 (h % 256)).setPhase 4
  let s := { s with scn := { s.scn with heldRun := h } }
  (if s.mode = Mode.tracking then s else s.publishOut Key.publish true).ownDigest true false

/-- The freeze of cycle `n` (06 R193; 07 R245, R248; 08 R277; 10 R334, R350; 11 R364, R371, R383); `first`: the partner becomes a standby at this boundary. -/
def freeze (s : State) (n : Nat) (first : Bool) : State :=
  let solve := s.modeIn [Mode.run, Mode.stnRun, Mode.stnSafe, Mode.hold]
  let s := if solve && s.spareLate then s.safeHalt 3 2 none else s
  let solve := s.modeIn [Mode.run, Mode.stnRun, Mode.stnSafe, Mode.hold]
  let held := solve && s.copyOpen
  let old := s
  let tn := s.boundaryAt n
  let cts := tn / 1000 % 2 ^ 48
  let s := if s.isStn then s.freezeImage.stnBlocks else s.canFill.vuvFreeze.freezeImage.localErr.vuvFrozen
  let s := s.startCycle n cts tn held
  let s := if solve then s.updateCells cts else s.setReg64 Reg.TMC_LASTTS_LO cts
  let s := if s.lead && s.mode == Mode.run && (first || s.partnerTracking) then s.clearAll else s
  let s := s.deltaTx old held first
  let s := if first then s else s.fcBegin
  if held then s.heldCycle else if solve then s.solveStart else s.setPhase 0

/-! ## The twin at a boundary (11 R362, R376–R378, R382, R385) -/

/-- TWN_CFG.SILENCE. -/
def silence (s : State) : Nat := max 1 (s.rf Reg.TWN_CFG 15 8)

/-- The counts of boundaries without a partner's frame and without a claim, and what is kept for one cycle (11 R358, R362, R373, R376). -/
def twinCounts (s : State) : State :=
  if s.rb (Reg.PAGE_CTRL 0x0E) 0 then
    let s := s.setReg Reg.TWN_SILCNT (BitVec.ofNat 32 (if s.twn.outSeen then 0 else min 255 (s.rf Reg.TWN_SILCNT 7 0 + 1)))
    let q := if s.twn.claim then 0 else s.twn.quiet + 1
    { s with twn := { s.twn with outSeen := false, claim := false, quiet := q, linkErr := false, sent := false, free := false, part := none } }
  else s

/-- Takeover at boundary `n` (11 R378): RUN by row 21, the lead, the records. -/
def takeover (s : State) (n cause : Nat) : State :=
  let s := { s with scn := { s.scn with lastB := some n } }
  let s := (s.changeMode Mode.run 21).acquireLead true
  let s := (s.setReg Reg.TWN_TAKE_LAST (BitVec.ofNat 32 (cause + 256 * (n % 2 ^ 24)))).bump Reg.TWN_TAKEOVERS
  { s.raise 99 (cause + 65536 * s.epoch) with twn := { s.twn with takeIn := false, handover := false } }

/-- Takeover by TAKE_IN, HANDOVER or silence (11 R377). -/
def twinTakeover (s : State) (n : Nat) : State :=
  if s.mode ≠ Mode.tracking then s
  else if s.twn.takeIn then s.takeover n 1
  else if s.twn.handover then s.takeover n 3
  else if !s.rb Reg.TWN_STAT 0 && decide (s.silence ≤ s.rf Reg.TWN_SILCNT 7 0) then s.takeover n 2
  else s

/-- A planned switch-over fails. -/
def switchFail (s : State) (tries : Nat) : State :=
  { (s.setReg Reg.TWN_SWSTAT (BitVec.ofNat 32 (3 + 256 * tries))).raise 107 tries with twn := { s.twn with sw := none } }

/-- A switch-over at its boundary (11 R382): the standby takes over; the active, still without SWITCH_ACK, asks again or gives up. -/
def twinSwitch (s : State) (n : Nat) : State :=
  match s.twn.sw with
  | none => s
  | some w =>
    if n < w.b then s
    else if !w.mine then
      let s := { s with twn := { s.twn with sw := none } }
      if s.mode = Mode.tracking then (s.takeover n 4).raise 106 (w.b % 2 ^ 32) else s
    else
      let tries := s.rf Reg.TWN_SWSTAT 15 8
      if s.mode ≠ Mode.run then s.switchFail tries
      else if w.acked then s
      else if max 1 (s.rf Reg.TWN_SWMAXTRY 7 0) ≤ tries then s.switchFail tries
      else
        let s := { s.setReg Reg.TWN_SWSTAT (BitVec.ofNat 32 (1 + 256 * (tries + 1))) with twn := { s.twn with sw := some { w with b := n + 1 } } }
        s.twnCmd 1 0 (n + 1)

/-- A twin in STANDBY-SYNCING whose partner has fallen silent (11 R377). -/
def syncLost (s : State) (n : Nat) : State :=
  if s.mode = Mode.syncing ∧ s.rb (Reg.PAGE_CTRL 0x0E) 0 ∧ !s.rb Reg.TWN_STAT 0 ∧ s.silence ≤ s.rf Reg.TWN_SILCNT 7 0 then
    (s.changeMode Mode.stop 23).raise 110 (n % 2 ^ 32)
  else s

/-- A twin in STOP acquires the lead (11 R362). -/
def stopLead (s : State) : State :=
  let here := s.mode == Mode.stop || s.twn.leftStop
  let s := { s with twn := { s.twn with leftStop := false } }
  if here && !s.isStn && !s.lead && (!s.rb (Reg.PAGE_CTRL 0x0E) 0 || decide (s.silence ≤ s.twn.quiet)) then s.acquireLead false else s

/-- What a change of mode at boundary `n` means to a switch-over and to the full copy (11 R382, R385). -/
def afterRow (s : State) (n row : Nat) : State :=
  if row = 25 then
    let s := (s.setRf Reg.TWN_SWSTAT 1 0 2).raise 106 (n % 2 ^ 32)
    { s with twn := { s.twn with sw := none } }
  else if row = 20 then
    { (s.setRf Reg.TWN_STAT 10 8 0).raise 103 ((n - s.twn.fcStart) % 65536) with twn := { s.twn with closed := false } }
  else s

/-- The rows of the transition table that take effect at a boundary (03 R91). -/
def boundaryRow (r : Nat) : Bool := [12, 13, 14, 15, 16, 20, 24, 25, 26, 28].contains r

/-- The pending transitions due at boundary `n`, in the order of 03 R89. -/
def boundaryTrans (s : State) (n : Nat) : Nat → State
  | 0 => s
  | f + 1 =>
    match s.nextTrans with
    | some t => if boundaryRow t.row then ((s.changeMode t.target t.row).afterRow n t.row).boundaryTrans n f else s
    | none => s

/-! ## The boundary (06 R192, R196, R223, R228, R229; 02 R62; 03 R89) -/

/-- Boundaries that a step of network time has passed (06 R196). -/
def skipped (s : State) (n : Nat) : State :=
  match s.scn.lastB with
  | some b => if b + 1 < n then (s.count Reg.SCN_SKIPPED (n - b - 1)).raise 28 ((n - b - 1) % 2 ^ 32) else s
  | none => s

/-- The swap by GO at boundary `n` (02 R62); one written after a Graft's swap waits for the boundary after the next, in STOP too (09 R308). -/
def boundarySwap (s : State) (n : Nat) : State :=
  let late := s.grf.goHold.any fun b => decide (n ≤ b)
  let s := if s.grf.swapped.any fun b => decide (b ≤ n) then { s with grf := { s.grf with swapped := none } } else s
  if s.swapPend && !late && (s.modeIn [Mode.run, Mode.stnRun, Mode.stnSafe] || (s.mode == Mode.hold && s.scn.hold == .waiting)
      || (s.graftHold && s.modeIn [Mode.stop, Mode.safeHalt])) then
    { (s.configSwap.setRb Reg.SYS_CFGSWAP 1 false).setRb Reg.SYS_CFGSWAP 0 false with grf := { s.grf with goHold := none } }
  else s

/-- The boundary is the last one handled. -/
def setLastB (s : State) (n : Nat) : State := { s with scn := { s.scn with lastB := some n } }

/-- What comes before the freeze at boundary `n`: SAFE-HALT by 06 R224, twin triggers, station counts, requests (03 R89). -/
def beforeFreeze (s : State) (n : Nat) : State :=
  let s := if s.modeIn [Mode.run, Mode.stnRun] && s.spareLate then s.safeHalt 3 2 none else s
  let s := (s.twinCounts.twinTakeover n).deltaLate
  let s := if s.following && s.grfState == 3 then s.diverge 9 else s
  let s := s.twinSwitch n
  let s := if s.scn.interrupted then s else s.setLastB n
  let s := (s.syncLost n).stopLead
  let s := if s.isStn then s.stnBoundary else s
  (s.boundarySwap n).boundaryTrans n 3

/-- The active's full copy has closed in time: its partner becomes a standby at this boundary (11 R385). -/
def closedAt (s : State) : Bool := s.lead && s.mode == Mode.run && s.twn.closed && s.rf Reg.TWN_STAT 10 8 == 3

/-- The part of boundary `n` after the triggers: spares, the swap, then a keep-alive, a cycle, or the wait for the active's COMMIT. -/
def runBoundary (s : State) (n : Nat) (switched : Bool) : State :=
  let s := ((s.setLastB n).sparing).boundarySwap n
  let first := s.closedAt
  let s := if first then s.afterRow n 20 else s
  if s.mode = Mode.hold then
    if s.scn.hold = .waiting then
      let s := s.lanesResume.setRf Reg.SCN_HOLDSTAT 1 0 0
      { s with scn := { s.scn with hold := .running } }.freeze n first
    else s.holdKeepalive n
  else if s.mode = Mode.tracking then s
  else s.freeze n (first || switched)

/-- The boundary of cycle `n`, not taken before (06 R192). -/
def boundaryOf (s : State) (n : Nat) : State :=
  let s := ((s.skipped n).cycleClose).holdCycleEnd
  let was := s.scn.interrupted
  let sw := s.twn.sw.isSome && s.mode == Mode.tracking
  let s := s.beforeFreeze n
  if was && s.scn.lastB == some n then s.publishDue
  else s.runBoundary n (sw && s.mode == Mode.run && s.rf Reg.TWN_TAKE_LAST 2 0 == 4)

/-- A cycle boundary (06 R192): the first core clk after the time base reaches it. A boundary handled before, or none, does nothing. -/
def boundary (s : State) : State :=
  (s.cycleAt s.netT).elim s fun n => if !s.scheduled || s.scn.lastB.any (fun b => decide (n ≤ b)) then s else s.boundaryOf n

/-! ## The standby's freeze (11 R365, R366, R369, R375) -/

/-- TWN_LAG_LAST and TWN_LAG_MAX. -/
def lagPut (s : State) (tn : Nat) : State :=
  let l := min (2 ^ 20 - 1) (s.netT - tn)
  let s := s.setReg Reg.TWN_LAG_LAST (BitVec.ofNat 32 l)
  if s.rf Reg.TWN_LAG_MAX 19 0 < l then s.setReg Reg.TWN_LAG_MAX (BitVec.ofNat 32 l) else s

/-- The delta is applied and the cycle frozen; a return from HOLD that waits comes with it (03 row 31). A standby whose held cycles are used up goes to SAFE-HALT
instead (06 R224, 03 R91, R93). -/
def commitFreeze (s : State) (d : Delta) : State :=
  if s.mode = Mode.tracking ∧ s.spareLate then s.safeHalt 3 2 none
  else
  let s := if s.twn.resume && s.mode == Mode.hold then s.changeMode Mode.tracking 31 else s
  let s := { s with twn := { s.twn with resume := false, committed := some d.cyc } }
  let s := ((s.vuvFreeze).applyDelta d).freezeMarks.vuvFrozen
  let n := match s.scn.lastB with
    | some b => if b % 2 ^ 48 = d.cyc then b else d.cyc
    | none => d.cyc
  let tn := s.boundaryAt n
  let s := (s.lagPut tn).startCycle n d.cts tn d.held
  let s := s.updateCells d.cts
  let s := if s.mode = Mode.tracking then s.clearAll else s
  if d.held || s.copyOpen then s.heldCycle else s.solveStart

/-- A COMMIT (11 R365, R368; 09 R312). -/
def commit (s : State) (t : TRec) : State :=
  let d := s.twn.delta.getD ⟨0, 0, 0, false, false, [], [], 0, true⟩
  let s := { s with twn := { s.twn with delta := none } }
  if t.addr ≠ d.count ∨ (!d.grf ∧ t.seq ≠ d.seq) then s.diverge 5
  else if d.grf then
    let s := { s.applyDelta d with grf := { s.grf with told := true } }
    if s.grf.goDue then s.grfFollow else s
  else s.commitFreeze d

end State

open State

/-! ## The commands -/

/-- INPUT_FREEZE (06 R193): the boundary at which the cycle starts. -/
def execInputFreeze (s : State) : Res State := .next s.boundary

/-- HOLD_KEEPALIVE (06 R229): a boundary in HOLD. -/
def execHoldKeepalive (s : State) : Res State := .next (if s.mode = Mode.hold then s.boundary else s)

/-- PUBLISH_COPY_DONE (06 R193). -/
def execPublishCopyDone (s : State) : Res State := .next s.publishCopied

/-- OVERRUN (06 R218). -/
def execOverrun (s : State) : Res State := .next s.overrun

/-- APPLY (06 R193). -/
def execApply (s : State) : Res State := .next s.apply

/-- COMMIT_RX (11 R365): the record's ADDR is the count. -/
def execCommitRx (r : List Byte) (s : State) : Res State := .next (s.twnRx r 0x05 fun t s => if s.following then s.commit t else s)

end Sys2Proof.Machine
end

