-- ==== Sys2Proof/Machine/Arbiters.lean ====
section
/-! DEFINITION. The arbiters (07 R259–R267): one decision, and the commit of their priorities. -/

-- one declaration at a time: many at once take a thread and its stack each
set_option Elab.async false

namespace Sys2Proof.Machine

namespace State

/-- Number of requesters of the arbiter with ARB_ID `id`, 0 where there is none (07 R259). -/
def arbSize (id : Nat) : Nat :=
  if id < 4 then 18 else if 0x10 ≤ id ∧ id ≤ 0x30 then 5 else if 0x40 ≤ id ∧ id ≤ 0x42 then 8 else 0

/-- The class of an arbiter: field of ARB_WLIM and ARB_MAXWAIT (07 R271). -/
def arbClass (id : Nat) : Nat := if id < 4 then 0 else if id ≤ 0x30 then 1 else 2

/-- Wait limit of the class; 0 is taken as 1 (07 R262). -/
def arbLimit (s : State) (id : Nat) : Nat := max 1 (s.rf Reg.ARB_WLIM (8 * arbClass id + 7) (8 * arbClass id))

/-- Priority of requester `i` (07 R265, R271). -/
def arbPrio (s : State) (id i : Nat) : Nat :=
  let f := fun a n => s.rf a (4 * n + 3) (4 * n)
  if id < 4 then
    if i < 8 then f (Reg.ARB_PRIO_BA id) i else if i < 16 then f (Reg.ARB_PRIO_BB id) (i - 8) else if i = 16 then f (Reg.ARB_PRIO_BC id) 0 else 0
  else if id < 0x20 then f Reg.ARB_PRIO_IMG i
  else if id < 0x30 then f Reg.ARB_PRIO_PAN i
  else if id = 0x30 then f Reg.ARB_PRIO_TMC i
  else if id = 0x40 then f Reg.ARB_PRIO_KEEP i
  else if id = 0x41 then f Reg.ARB_PRIO_QSP i
  else f Reg.ARB_PRIO_FAB i

/-- Among `l`, the first at or after the pointer in circular index order (07 R261). -/
def firstFrom (ptr n : Nat) (l : List Nat) : Option Nat :=
  ((List.range n).map fun i => (ptr + i) % n).find? l.contains

/-- The wait counter of requester `i`. -/
def arbWait (s : State) (id i : Nat) : Nat := Sparse.get (fun _ => 0) (s.arb id).waits i

/-- The requesters at the limit that ARB_WLIM gives now (07 R262, R264), in the order in which they reached it; those that a new limit finds at it come last, lower
index first. -/
def arbAtLimit (s : State) (id : Nat) : List Nat :=
  let old := (s.arb id).limit.filter fun i => decide (s.arbLimit id ≤ s.arbWait id i)
  old ++ (List.range (arbSize id)).filter fun i => decide (s.arbLimit id ≤ s.arbWait id i) && !old.contains i

/-- The winner of a decision among the requesters present, and whether the win is forced (07 R261, R262). -/
def arbWinner (s : State) (id : Nat) (present : List Nat) : Option (Nat × Bool) :=
  let a := s.arb id
  match (s.arbAtLimit id).find? present.contains with
  | some i => some (i, true)
  | none =>
    let best := present.foldl (fun m i => max m (s.arbPrio id i)) 0
    (firstFrom a.ptr (arbSize id) (present.filter fun i => s.arbPrio id i == best)).map (·, false)

/-- The arbiter after `w` has won among `present` (07 R261, R262): the pointer moves past the winner, the winner's counter and those of requesters
that have dropped their request return to 0, every loser's rises to the limit at most and stays where it is at or above it. -/
def arbAfter (s : State) (id : Nat) (present : List Nat) (w : Nat) : Arb :=
  let a := s.arb id
  let lim := s.arbLimit id
  let cnt := fun i => Sparse.get (fun _ => 0) a.waits i
  let losers := (List.range (arbSize id)).filter fun i => present.contains i && i != w
  let waits := losers.map fun i => (i, if lim ≤ cnt i then cnt i else cnt i + 1)
  let keep := (s.arbAtLimit id).filter losers.contains
  let new := losers.filter fun i => decide (lim ≤ cnt i + 1) && !keep.contains i
  { a with ptr := (w + 1) % arbSize id, waits := waits, limit := keep ++ new }

/-- ARB_MAXWAIT keeps the highest wait counter per class (07 R271). -/
def arbMax (s : State) (id : Nat) : State :=
  let m := (s.arb id).waits.foldl (fun m e => max m e.2) 0
  let lo := 8 * arbClass id
  if s.rf Reg.ARB_MAXWAIT (lo + 7) lo < m then s.setRf Reg.ARB_MAXWAIT (lo + 7) lo m else s

/-- A forced win is counted, and the first of a cycle raises FORCE_WIN (07 R271). -/
def forceWin (s : State) (id w : Nat) : State :=
  let s := s.bump Reg.ARB_FWCNT
  if s.img.forceWin then s else { s.raise 53 (id + 256 * w) with img := { s.img with forceWin := true } }

/-- One decision of arbiter `id` among the requesters present (07 R261). In a transfer or a locked sequence, and while its banks serve a merge, the publish copy or the
update of the timer cells, it makes none (07 R252, R266; 08 R286); an arbiter that does not exist decides nothing. -/
def decideArb (s : State) (id : Nat) (reqs : List Nat) : State :=
  let present := (List.range (arbSize id)).filter reqs.contains
  if (s.arb id).owner.isSome ∨ s.bankBusy id ∨ arbSize id = 0 ∨ !s.pwr.coreRun then s
  else match s.arbWinner id present with
  | none => s.setArb id { s.arb id with waits := [], limit := [] }
  | some (w, forced) =>
    let s := (s.setArb id (s.arbAfter id present w)).arbMax id
    if forced then s.forceWin id w else s

/-- ARB_COMMIT.GO: the ARB shadow set copied to the active window in one clk (07 R264). -/
def arbCommitGo (s : State) : State :=
  let s := (rsOffs 0x0A).foldl (fun t o => t.setReg (Reg.page 0x0A + o) (t.reg (Reg.page 0x0A + o + 0x400))) s
  let s := (s.setRb (Reg.PAGE_STAT 0x0A) 2 false).bump Reg.ARB_COMMITSEQ
  s.raise 54 (s.reg Reg.ARB_COMMITSEQ).toNat

/-- A write of ARB_COMMIT: GO commits; a reserved bit set is a host error that leaves it to a free value whether the commit happens
(07 R272). -/
def arbCommitWrite (s : State) (v : Word) : State :=
  if 2 ≤ v.toNat then let f := s.free; if fld f.1 0 0 = 1 then f.2.arbCommitGo else f.2
  else if fld v 0 0 = 1 then s.arbCommitGo else s

end State

open State

/-- ARBITER_DECISION (07 R261, R262): with `dead`, the clk of the decision is a dead cycle, in which the requester granted before has
withdrawn (07 R267). -/
def execArbiterDecision (id : Nat) (reqs : List Nat) (dead : Bool) (s : State) : Res State :=
  .next ((if dead ∧ arbSize id ≠ 0 then s.bump Reg.ARB_WDCNT else s).decideArb id reqs)

/-- ARB_COMMIT (07 R264). -/
def execArbCommit (ag : Agent) (v : Word) (s : State) : Res State := .next (s.regWrite ag Reg.ARB_COMMIT (·.arbCommitWrite v))

end Sys2Proof.Machine
end

