-- ==== Sys2Proof/Machine/Rind.lean ====
section
/-! DEFINITION. The Rind link and its channels: requests, frames, samples and reports (14 R453–R478). -/

-- one declaration at a time: many at once take a thread and its stack each
set_option Elab.async false

namespace Sys2Proof.Machine

namespace State

/-! ## Requests (14 R454, R455) -/

/-- A request for channel `c` (14 R455, 00 R15). -/
def chanReq (s : State) (c : Nat) (on : Bool) : State :=
  let f := s.fn (fnChan c)
  let s := s.setRb Reg.RND_CHEN c on
  if f.toward.isSome ∨ !f.held.isEmpty then (s.holdReq (fnChan c) (bn on)).setRb Reg.RND_CHBUSY c true
  else if getB s.rind.chOn c = on then s
  else
    let s := if on then s else s.chanDown c
    (s.setFn (fnChan c) { f with toward := some (bn on), held := [] }).syncBusy 0x15

/-- A write of RND_CHEN: every bit that changes is a request. -/
def chenWrite (s : State) (v : Word) : State :=
  (List.range 32).foldl (fun t c => if getB v c = getB (t.reg Reg.RND_CHEN) c then t else t.chanReq c (getB v c)) s

/-- An enable request for channel `c` is held. -/
def chanHeldOn (s : State) (c : Nat) : Bool := (s.fn (fnChan c)).held.contains 1

/-- A write of RND_CHCFGc (14 R453, R454): DIR and TYPE stay, with WIGN, while the channel is enabled. A reserved bit written 1 is a host error: the
configuration is free (14 R478). -/
def chcfgWrite (s : State) (c : Nat) (v : Word) : State :=
  let f := if fld v 31 16 = 0 ∧ fld v 7 5 = 0 then (v, s) else s.free
  let s := f.2
  let old := s.reg (Reg.RND_CHCFG c)
  let v := f.1 &&& 0xFF1F
  let lock := getB (s.reg Reg.RND_CHEN) c || s.chanHeldOn c
  let bad := lock && fld v 1 0 != fld old 1 0
  let v := if lock then setFld v 1 0 (fld old 1 0) else v
  let s := if bad then s.wign 0x15 else s
  if v = old then s else (s.setReg (Reg.RND_CHCFG c) v).rndPush (.config (c / 4))

/-- RND_CMD (14 R468–R470); a reserved bit written 1 makes the command free (14 R478). -/
def rndCmd (s : State) (v : Word) : State :=
  let f := if fld v 31 2 = 0 then (v, s) else s.free
  let s := f.2
  if getB f.1 1 then s.rndPush .safe
  else if getB f.1 0 then
    if s.rndEn && (s.modeIn [Mode.run, Mode.stnRun] || (s.mode == Mode.hold && !s.rb Reg.SCN_HOLDCFG 0)) then s.rndPush .release else s.wign 0x15
  else s

/-- RND_DOUT takes a value; a change queues one DIRECT frame (14 R462). -/
def doutSet (s : State) (v : Word) : State :=
  if v = s.reg Reg.RND_DOUT then s else (s.setReg Reg.RND_DOUT v).rndPush .direct

/-- The end of a transition of the Rind (121) or of channel `c` (200 + c) (14 R455); one towards OFF waits for the demagnetisation. -/
def enableDone (s : State) (id : Nat) : State :=
  match (s.fn id).toward with
  | none => s
  | some t =>
    if id = fnPage 0x15 then
      if t = 1 then
        let s := s.enDone 0x15
        let s := if s.domOn 14 then
            { s with rind := { s.rind with cfg := (List.range 32).foldl (fun l c => Sparse.set (fun _ => 0) l c (s.reg (Reg.RND_CHCFG c))) [] } }.rindStart
          else s
        s.raise 165 0x13F
      else if s.rind.demag ≠ 0 then s
      else (s.enDone 0x15).raise 165 0x3F
    else if 200 ≤ id ∧ id < 232 then
      let c := id - 200
      let fin := fun (s : State) => (s.setFn id { s.fn id with toward := none }).syncBusy 0x15
      if t = 1 then
        let s := { s with
          rind := { s.rind with
            chOn := putB s.rind.chOn c true, ch := putB s.rind.ch c (s.domOn 14), runs := Sparse.erase s.rind.runs c, inst := putB s.rind.inst c false } }
        let s := if s.rind.on && s.rind.safe then s.rindSafeAll else s
        (fin s).raise 165 (c + 256)
      else if getB s.rind.demag c then s
      else
        let s := { s with rind := { s.rind with chOn := putB s.rind.chOn c false, inst := putB s.rind.inst c false } }
        (fin (s.setRb Reg.RND_INSTATE c false)).raise 165 c
    else s

/-! ## Frames to the Rind (14 R456–R461, R466, R469) -/

/-- The modes in which REFRESH and APPLY go out (03 R82, 06 R229), while the core clock runs. -/
def rndActive (s : State) : Bool :=
  s.rndEn && s.pwr.coreRun && (s.modeIn [Mode.run, Mode.stnRun] || (s.mode == Mode.hold && !s.rb Reg.SCN_HOLDCFG 0))

/-- A CONFIG frame or a calibration request, which shares its place on the link (DEDUCED, log 40). -/
def isConfig : RindFrame → Bool
  | .config _ | .cal _ => true
  | _ => false

/-- Frame `f` is the one that goes next (14 R457): SAFE, RELEASE, DIRECT, CONFIG, where DIRECT and CONFIG alternate while both wait. -/
def rndTurn (s : State) (f : RindFrame) : Bool :=
  match f with
  | .safe => true
  | .release => !s.rndQ.contains .safe
  | .direct => !s.rndQ.contains .safe && !s.rndQ.contains .release && !(s.rind.direct && s.rndQ.any isConfig)
  | _ => !s.rndQ.contains .safe && !s.rndQ.contains .release && (s.rind.direct || !s.rndQ.contains .direct)

/-- How long frame `f` takes, in ns (14 R456). -/
def rndTime : RindFrame → Nat
  | .safe | .release => 1000
  | .direct => 3000
  | _ => 4000

/-- A frame other than SAFE that started now would end after T_apply − 5.2 µs while the cycle's REFRESH waits, or after the start of an APPLY that waits
(14 R457). -/
def rndWait (s : State) (f : RindFrame) : Bool :=
  let ta := s.applyAt s.scn.cyc
  f != .safe && decide (s.netT < ta) &&
    ((s.rind.sent.isSome && decide (ta < s.netT + rndTime f + 1125)) || (s.rndActive && !s.rind.refDone && decide (ta < s.netT + rndTime f + 5200)))

/-- A frame that waits and whose turn it is is sent: it leaves the queue, and `k` is what the Rind does with it when its CRC passes. Otherwise nothing is sent. -/
def rndFrame (s : State) (f : RindFrame) (crcOk : Bool) (k : State → State) : State :=
  if s.rndQ.contains f && s.rndTurn f && !s.rndWait f && s.pwr.coreRun then
    let s := { s with rndQ := s.rndQ.erase f, rind := { s.rind with direct := f == .direct } }
    if crcOk && s.rind.on then k s else s
  else s

/-- The 32 values of a REFRESH (14 R461, 10 R350). A station's are those of the segment that this T_apply applies and, for the LMASK bits, of output block 1; without a
segment the bits keep their values, and after the safe state every output keeps its safe value until the first segment applied in STATION-RUN (10 R340). A controller without IMG_RINDBLK has no block to take them from: a free value. -/
def rindVals (s : State) : Word × State :=
  let s := s.touchBlocks Key.publish (if s.isStn then [1] else [s.rf Reg.IMG_RINDBLK 7 0])
  let direct := (List.range 32).foldl (fun (w : Word) c => putB w c (s.rb (Reg.RND_CHCFG c) 4)) 0
  let mix := fun (w : Word) => (w &&& ~~~direct) ||| (s.reg Reg.RND_DOUT &&& direct)
  if s.isStn then
    let lm := s.reg Reg.VUV_STN_LMASK
    let loc := BitVec.ofNat 32 (s.rdLE Key.publish 4)
    let hold := BitVec.ofNat 32 (s.rdLE (Key.conf + 144) 4)
    let kept := s.reg Reg.RND_OUTAPP
    if s.stn.seg.any fun g => !g.applied && !g.late then (mix ((loc &&& lm) ||| (BitVec.ofNat 32 (s.rdLE Key.outSeg 4) &&& ~~~lm)), s)
    else if s.stn.released then (mix ((loc &&& lm) ||| (kept &&& ~~~lm)), s)
    else (mix ((kept &&& hold) ||| (BitVec.ofNat 32 (s.rdLE (Key.conf + 16) 4) &&& ~~~hold)), s)
  else
    let b := s.rf Reg.IMG_RINDBLK 7 0
    if 1 ≤ b ∧ b ≤ 128 then (mix (BitVec.ofNat 32 (s.rdLE (Key.publish + (b - 1) * 128) 4)), s)
    else let f := s.free; (mix f.1, f.2)

/-- The publish buffer holds what this cycle's REFRESH carries: published and copied, or a keep-alive of HOLD (06 R193, R229). -/
def rndDue (s : State) : Bool :=
  ((s.scn.published && !s.scn.pubDue) || (s.mode == Mode.hold && s.scn.hold != HoldCmd.running)) && !s.rb Reg.IMG_STAT 1 && !s.rind.refDone

/-- The REFRESH of the cycle (14 R458, 01 R33); its tag is the logic die's own choice, a free value. In the safe state it has no effect (14 R467). -/
def rindRefresh (s : State) (crcOk : Bool) : State :=
  if s.rndActive && s.rndDue && !s.rndQ.contains .safe && !s.rndQ.contains .release then
    let v := s.rindVals
    let f := v.2.free
    let tag : BitVec 4 := f.1.setWidth 4
    let s := f.2
    { s with scn := { s.scn with outSent := true }, rind := { s.rind with refDone := true, direct := false, sent := some tag, refr := if crcOk && s.rind.on then some (v.1, tag) else none, refSafe := s.rind.safe } }
  else s

/-- Started outputs that `sel` selects take their bits of `vals`; RND_OUTAPP shows them (14 R461). -/
def rindTake (s : State) (vals : Word) (sel : Nat → Bool) : State :=
  let s := (List.range 32).foldl (fun t c =>
    if t.rindIsOut c && sel c then
      let t := t.rindDrive c (getB vals c)
      { t with rind := { t.rind with app := putB t.rind.app c (getB vals c) } }
    else t) s
  s.setReg Reg.RND_OUTAPP s.rind.app

/-- The APPLY of the cycle (14 R458, R461, R467, R469). -/
def rindApply (s : State) (crcOk : Bool) : State :=
  match s.rind.sent with
  | none => s
  | some tag =>
    let r := s.rind
    let s := { s with rind := { r with sent := none, refr := none } }
    match r.refr with
    | some (vals, t) =>
      if crcOk && r.on && t == tag then
        let s := { s with rind := { s.rind with tag := tag, wait := s.rind.wait && r.safe } }
        if r.safe || r.refSafe then s else s.rindTake vals fun _ => true
      else s
    | none => s

/-- Calibration of a channel (19 R583): the trim found is free; so is whether the offset lies outside the trim range. -/
def rindCal (s : State) (c : Nat) : State :=
  let f := s.free
  let last := fun (s : State) => s.setReg Reg.BGD_RCAL_LAST (BitVec.ofNat 32 (c + 256 * (Sparse.get (fun _ => 0#8) s.rind.trim c).toNat))
  if fld f.1 0 0 = 1 then (last (f.2.bump Reg.BGD_RCAL_ERR)).raise 213 c
  else last { f.2 with rind := { f.2.rind with trim := Sparse.set (fun _ => 0) f.2.rind.trim c (Config.rcalTrim s.freeCtr) } }

/-- The oldest CONFIG frame that waits is sent (14 R454, R456, 19 R583). -/
def rindConfig (s : State) (crcOk : Bool) : State :=
  match s.rndQ.find? isConfig with
  | some (.config k) =>
    s.rndFrame (.config k) crcOk fun s =>
      if k < 8 then
        let s := { s with rind := { s.rind with cfg := (List.range 4).foldl (fun l i => Sparse.set (fun _ => 0) l (4 * k + i) (s.reg (Reg.RND_CHCFG (4 * k + i)))) s.rind.cfg } }
        if s.rind.safe then s.rindSafeAll else s
      else s
  | some (.cal c) => s.rndFrame (.cal c) crcOk (·.rindCal c)
  | _ => s

/-! ## Samples and reports (14 R463–R465, R473) -/

/-- One sample of channel `c` (14 R464, R465). -/
def rindSampleCh (s : State) (c : Nat) (level : Bool) : State :=
  if getB s.rind.ch c then
    let old := Sparse.get (fun _ => (false, 0)) s.rind.runs c
    let n := if old.1 = level then min 255 (old.2 + 1) else 1
    let s := { s with rind := { s.rind with runs := Sparse.set (fun _ => (false, 0)) s.rind.runs c (level, n) } }
    if s.rindIsOut c ∨ max 1 (fld (s.rindCfg c) 15 8) ≤ n then { s with rind := { s.rind with inst := putB s.rind.inst c level } } else s
  else s

/-- FLT (14 R474). -/
def rindFlt (s : State) : Bool := s.rind.limit != 0 || s.rind.therm != 0

/-- The link counts as up again after two valid reports in a row (14 R473). -/
def rndLinkUp (s : State) : State :=
  let s := { s with rind := { s.rind with flt := s.rindFlt, good := min 2 (s.rind.good + 1) } }
  if s.rind.good == 2 && !s.rb Reg.RND_STAT 1 then
    { s.setRb Reg.RND_STAT 1 true with rind := { s.rind with lost := false } }.raiseFree 164
  else s

/-- The states of a report go into the block that IMG_RINDBLK names (07 R249); the report does not name its other bytes. `lands`: the block write ends before the
next freeze (R250). A value above 128 is a host error: free bytes reach a free block (R272). -/
def rndBlock (s : State) (st : Nat) (lands : Bool) : State :=
  let b := s.rf Reg.IMG_RINDBLK 7 0
  if s.isStn || b == 0 || !s.domOn 8 then s
  else if 128 < b then (let f := s.free; let r := f.2.freeBytes (List.replicate 128 0); r.2.recvBlock (fld f.1 6 0 + 1) r.1)
  else if lands then s.recvBlock b (leBytes 4 st ++ s.rdBytes (Key.recv + (b - 1) * 128 + 4) 124)
  else s.recvLate b

/-- A valid report (14 R465, R469, R473): states, tag, arrival time, link. -/
def rindReportOk (s : State) (lands : Bool) : State :=
  let st := s.rind.inst
  let left := s.rb Reg.RND_STAT 2 && !s.rind.safe
  let s := ((s.setReg Reg.RND_INSTATE st).setRb Reg.RND_STAT 2 s.rind.safe).setRf Reg.RND_STAT 11 8 s.rind.tag.toNat
  let s := (s.setReg64 Reg.RND_RPT_T_LO s.netT).bump Reg.RND_RPT_CNT
  let s := if left then s.raise 162 s.rind.tag.toNat else s
  (s.rndLinkUp.rndBlock st.toNat lands).rndFault

/-- A report arrives (14 R456, R465, R477). -/
def rindReport (s : State) (crcOk lands : Bool) : State :=
  if !s.rind.on then s
  else if crcOk then s.rindReportOk lands
  else
    let s := { s.bump Reg.RND_RPT_ERR with rind := { s.rind with good := 0 } }
    if s.rind.errSeen then s else { s with rind := { s.rind with errSeen := true } }.raiseFree 166

/-- No valid report for 4 × RND_SAMPLE + 8 µs (14 R473). -/
def rindLost (s : State) : State :=
  if !s.rndEn || s.rind.lost then s
  else ({ s.setRb Reg.RND_STAT 1 false with rind := { s.rind with lost := true, good := 0 } }.raiseFree 163).rndFault

/-- VFLD undervoltage (14 R472): the Rind stops, PD14 is OFF; a request for ON is held until VFLD returns (03 R121). -/
def vfldLost (s : State) : State :=
  if !s.pwr.vfldOk then s
  else
    let want := s.rf (Reg.PWR_REQ 14) 1 0 == 2
    let held := (s.fn 14).held
    let s := { (s.rindDrop.domForce 14 0) with pwr := { s.pwr with vfldOk := false } }
    let s := (s.setFn 14 { held := if want && held.isEmpty then [2] else held }).syncHeld 14
    (s.raiseFree 14).rndFault

/-- VFLD is back (14 R472): a held request for PD14 ON starts. -/
def vfldBack (s : State) : State :=
  if s.pwr.vfldOk then s else heldStart ({ s with pwr := { s.pwr with vfldOk := true } }.raiseFree 15) 14

end State

open State

/-! ## The commands -/

/-- HELD_REQUEST_START (00 R15). -/
def execHeldRequestStart (fn : Nat) (s : State) : Res State := .next (heldStart s fn)

/-- RND_ENABLE (14 R455). -/
def execRndEnable (ag : Agent) (en : Bool) (s : State) : Res State := .next (s.regWrite ag (Reg.PAGE_CTRL 0x15) (·.enRequest 0x15 en))

/-- RND_CHEN (14 R455). -/
def execRndChen (ag : Agent) (v : Word) (s : State) : Res State := .next (s.regWrite ag Reg.RND_CHEN (·.chenWrite v))

/-- ENABLE_DONE (14 R455). -/
def execEnableDone (fn : Nat) (s : State) : Res State := .next (s.enableDone fn)

/-- RIND_REFRESH (14 R458). -/
def execRindRefresh (crcOk : Bool) (s : State) : Res State := .next (s.rindRefresh crcOk)

/-- RIND_APPLY (14 R458). -/
def execRindApply (crcOk : Bool) (s : State) : Res State := .next (s.rindApply crcOk)

/-- RIND_REFRESH_SKIP (01 R34): PUBLISH has not produced the cycle's outputs in time, its copy included, so neither frame is sent in it. -/
def execRindRefreshSkip (s : State) : Res State :=
  .next (if s.rndActive && !s.rndDue && !s.scn.interrupted && !s.rind.refDone then { s.bump Reg.RND_SKIP_CNT with rind := { s.rind with refDone := true, sent := none } } else s)

/-- RIND_SAFE_FRAME (14 R466). -/
def execRindSafeFrame (crcOk : Bool) (s : State) : Res State :=
  .next (s.rndFrame .safe crcOk fun s => if s.rind.safe then s else s.rindEnter 1)

/-- RIND_RELEASE_FRAME (14 R469): outputs keep their safe values until the first valid APPLY. -/
def execRindReleaseFrame (crcOk : Bool) (s : State) : Res State :=
  .next (s.rndFrame .release crcOk fun s => if s.rind.safe then { s with rind := { s.rind with safe := false, wait := true } } else s)

/-- RIND_DIRECT_FRAME (14 R461, R467). -/
def execRindDirectFrame (crcOk : Bool) (s : State) : Res State :=
  .next (s.rndFrame .direct crcOk fun s =>
    if s.rind.safe || s.rind.wait then s else s.rindTake (s.reg Reg.RND_DOUT) fun c => getB (s.rindCfg c) 4)

/-- RIND_CONFIG_FRAME (14 R454). -/
def execRindConfigFrame (crcOk : Bool) (s : State) : Res State := .next (s.rindConfig crcOk)

/-- RIND_SAMPLE (14 R463): `levels` are the levels at the terminals against the thresholds of 21 R623. -/
def execRindSample (levels : Word) (s : State) : Res State :=
  .next (if s.rind.on then (List.range 32).foldl (fun t c => t.rindSampleCh c (getB levels c)) s else s)

/-- RIND_REPORT (14 R465). -/
def execRindReport (rx : ReportRx) (s : State) : Res State := .next (s.rindReport rx.crcOk rx.lands)

/-- RIND_TIMEOUT (14 R466). -/
def execRindTimeout (s : State) : Res State := .next (if s.rind.on && !s.rind.safe then s.rindEnter 2 else s)

/-- DEMAG_END (14 R460): a deferred on command takes effect. -/
def execDemagEnd (c : Fin 32) (s : State) : Res State :=
  let r := s.rind
  .next (if getB r.demag c then
    { s with rind := { r with demag := putB r.demag c false, defer := putB r.defer c false, out := putB r.out c (getB r.defer c) } } else s)

/-- THERMAL_SHUTDOWN (14 R459): an output that is on shuts down, and restarts after cooling (`on = false`). -/
def execThermalShutdown (c : Fin 32) (on : Bool) (s : State) : Res State :=
  .next { s with rind := { s.rind with therm := putB s.rind.therm c (on && (getB s.rind.out c || getB s.rind.therm c)) } }

/-- CURRENT_LIMIT (14 R474): an output that is on has been in current limit for more than 2 ms, or leaves it (`on = false`). -/
def execCurrentLimit (c : Fin 32) (on : Bool) (s : State) : Res State :=
  .next { s with rind := { s.rind with limit := putB s.rind.limit c (on && getB s.rind.out c) } }

/-- RND_CMD_SAFE (14 R468). -/
def execRndCmdSafe (ag : Agent) (s : State) : Res State := .next (s.regWrite ag Reg.RND_CMD (·.rndCmd 2))

/-- RND_CMD_RELEASE (14 R469). -/
def execRndCmdRelease (ag : Agent) (s : State) : Res State := .next (s.regWrite ag Reg.RND_CMD (·.rndCmd 1))

/-- RIND_LINK_LOST (14 R473). -/
def execRindLinkLost (s : State) : Res State := .next s.rindLost

/-- RIND_FAULT_CLEAR (14 R474). -/
def execRindFaultClear (ag : Agent) (s : State) : Res State :=
  .next (s.regWrite ag Reg.RND_STAT fun s => if s.rndCause then s else s.setRb Reg.RND_STAT 0 false)

/-- VFLD_LOST (14 R472). -/
def execVfldLost (s : State) : Res State := .next s.vfldLost

/-- VFLD_BACK (14 R472). -/
def execVfldBack (s : State) : Res State := .next s.vfldBack

end Sys2Proof.Machine
end

