-- ==== Sys2Proof/Machine/Keep.lean ====
section
/-! DEFINITION. The Keep non-volatile store (16 R496–R523). -/

-- one declaration at a time: many at once take a thread and its stack each
set_option Elab.async false

namespace Sys2Proof.Machine

namespace State

/-! ## The array (16 R496–R500) -/

/-- A page of Keep. -/
abbrev keepPage (p : Nat) : Nat := Key.keep + 64 * p
abbrev kreg (bank a : Nat) : Nat := a + bankKey bank

/-- An access that the regions refuse is counted; DENIED is raised for the first and then at most once per ms (16 R500). -/
def keepDeny (s : State) (page cls : Nat) : State :=
  let s := s.bump Reg.KEEP_DENY_CNT
  let ok := match s.keep.denyAt with | none => true | some t => decide (t + 4000000 ≤ s.now)
  if ok then { s with keep := { s.keep with denyAt := some s.now } }.raise 181 (page + 65536 * cls) else s

/-- What the window allows agent class `cls` to read (16 R500). -/
def keepReadable (page cls : Nat) : Bool := if 2048 ≤ page then true else decide (80 ≤ page) && decide (page < 1240) && cls == 2
/-- What agent class `cls` may write by command. -/
def keepWritable (page cls : Nat) : Bool := keepReadable page cls

/-- The read password does not stand open for bank `b` (16 R516). -/
def rdLocked (s : State) (b : Nat) : Bool := s.keep.rdPw != [] && !s.keep.rdOpen.contains b
def wrLocked (s : State) (b : Nat) : Bool := s.keep.wrPw != [] && !s.keep.wrOpen.contains b

/-- The pages that BP protects (16 R519), acting only while no write password is set. -/
def bpBlocks (s : State) (page : Nat) : Bool :=
  s.keep.wrPw == [] &&
    (match s.keep.bp with | 0 => false | 1 => decide (24576 ≤ page) | 2 => decide (16384 ≤ page) | _ => decide (2048 ≤ page))

/-- A group of the array is read (16 R509): a corrected one is counted and its page waits to be rewritten; an uncorrectable one reads 0 and marks the page BAD. -/
def keepGroup (s : State) (page g : Nat) : List Byte × State :=
  let k := keepPage page + 4 * g
  match Sparse.get (fun _ => 0) s.ecc k with
  | 0 => (s.rdBytes k 4, s)
  | 1 =>
    let s := (s.bump Reg.KEEP_CE_CNT).raise 179 (page + 65536 * g)
    let rw := if s.keep.rewrite.contains page then s.keep.rewrite else s.keep.rewrite ++ [page]
    (s.rdBytes k 4, { s with keep := { s.keep with rewrite := rw } })
  | _ =>
    let s := (s.bump Reg.KEEP_UE_CNT).ueRecord 6 0x7F 0 k
    let s := if s.keep.bad.contains page then s
      else (({ s with keep := { s.keep with bad := s.keep.bad ++ [page] } }).setReg Reg.KEEP_UE_PAGE (BitVec.ofNat 32 (page + 2 ^ 31))).raise 180 page
    (List.replicate 4 0, s)

/-- A whole page read, group by group. -/
def keepRead (s : State) (page : Nat) : List Byte × State :=
  (List.range 16).foldl (fun (a : List Byte × State) g => let r := a.2.keepGroup page g; (a.1 ++ r.1, r.2)) ([], s)

/-- A page as programmed: contents with fresh check bits. -/
def keepStore (s : State) (page : Nat) (bs : List Byte) : State :=
  { s.wrBytes (keepPage page) bs with ecc := Sparse.clear s.ecc (keepPage page) (keepPage page + 64) }

/-- A WEAR of spares is raised when they fall to 16 (16 R510). -/
def keepSpare (s : State) (page : Nat) : State :=
  let n := s.keep.spares - 1
  let s := { s with keep := { s.keep with spares := n, bad := s.keep.bad.filter (· != page), progs := Sparse.set (fun _ => 0) s.keep.progs page 1 } }
  if n = 16 then s.raise 183 (page + 65536) else s

/-- A write through the journal (16 R507, R510), the next slot in rotation. `vf`: 1 the verify of step 1 fails, which moves it to the slot after; 2 that of step 4,
which needs a spare, as do a BAD page and a worn one. Answers whether the page was written. -/
def keepJournal (s : State) (page : Nat) (bs : List Byte) (vf : Nat) : Bool × State :=
  let s := { s with keep := { s.keep with slot := (s.keep.slot + if vf = 1 then 2 else 1) % 32, seq := s.keep.seq + 1 } }
  let n := Sparse.get (fun _ => 0) s.keep.progs page
  if vf = 2 || s.keep.bad.contains page || decide (1000000 ≤ n) then
    if s.keep.spares = 0 then (false, s) else (true, ((s.keepStore page bs).keepSpare page).bump Reg.KEEP_COMMIT_CNT)
  else
    let s := (s.keepStore page bs).bump Reg.KEEP_COMMIT_CNT
    let s := { s with keep := { s.keep with progs := Sparse.set (fun _ => 0) s.keep.progs page (n + 1) } }
    (true, if n + 1 = 1000000 then s.raise 183 page else s)

/-! ## Pip counters (16 R512–R514) -/

/-- A pip cell: index, generation, value. -/
structure Pip where
  i : Nat
  gen : Nat
  val : Nat
  deriving DecidableEq, Repr

/-- Cell `a` is newer than cell `b` (16 R512). -/
def pipNewer (a b : Pip) : Bool :=
  let d := (a.gen + 256 - b.gen) % 256
  (decide (1 ≤ d) && decide (d ≤ 127)) || (a.gen == b.gen && (decide (b.val < a.val) || (a.val == b.val && decide (b.i < a.i))))

/-- The newest cell of a page that decodes. -/
def pipNewest (s : State) (page : Nat) : Option Pip :=
  (List.range 16).foldl (fun (o : Option Pip) i =>
    let k := keepPage page + 4 * i
    if Sparse.get (fun _ => 0) s.ecc k = 2 then o
    else
      let c : Pip := ⟨i, s.rdLE (k + 3) 1, s.rdLE k 3⟩
      match o with
      | none => some c
      | some b => if pipNewer c b then some c else o) none

/-- One cell programmed. -/
def pipPut (s : State) (page i gen val : Nat) : State :=
  let k := keepPage page + 4 * i
  { s.wrLE k 4 (val % 2 ^ 24 + 2 ^ 24 * (gen % 256)) with ecc := Sparse.erase s.ecc k }

/-- Cells 0 to `n` − 1 programmed (16 R514). -/
def pipFill (s : State) (page n gen val : Nat) : State := (List.range n).foldl (fun t i => t.pipPut page i gen val) s

/-- The newest cell, a free one where none decodes. -/
def pipBase (s : State) (page : Nat) : Pip × State :=
  match s.pipNewest page with
  | some c => (c, s)
  | none => let f := s.free; (⟨f.1.toNat % 16, f.1.toNat / 16 % 256, f.1.toNat / 2 ^ 12⟩, f.2)

/-! ## Issue of commands (16 R503, R504, R516–R520) -/

/-- KEEP_CMDSTAT of a bank: STATE, REASON, PAGE. -/
def keepStat (s : State) (b st reason page : Nat) : State :=
  let s := s.setReg (kreg b Reg.KEEP_CMDSTAT) (BitVec.ofNat 32 (st + 256 * reason + 65536 * page))
  if b = 1 ∧ 3 ≤ st then { s with keep := { s.keep with user := none } } else s

/-- A write of a banked register by a service lane (16 R502). Two of them that use the bank at the same time are a host error (16 R523): its buffer, its argument and
password and the data of its commands become free. -/
def keepUse (s : State) (ag : Agent) : State :=
  if bankOf ag ≠ 1 then s
  else
    let old := s.keep.user
    let s := { s with keep := { s.keep with user := some (agentNum ag) } }
    if old.isNone ∨ old = some (agentNum ag) then s
    else
      let s := ((List.range 16).map Reg.KEEP_PBUF ++ Reg.KEEP_ARG :: (List.range 4).map Reg.KEEP_PWIN).foldl (fun t a => let f := t.free; f.2.setReg (kreg 1 a) f.1) s
      let d := s.freeBytes (List.replicate 64 0)
      let mix := fun (c : KCmd) => if c.bank = 1 then { c with data := d.1 } else c
      { d.2 with keep := { d.2.keep with queue := d.2.keep.queue.map mix, exec := d.2.keep.exec.map mix } }

/-- A command fails (16 R504). -/
def keepFail (s : State) (c : KCmd) (reason : Nat) : State :=
  let s := if reason = 1 then s.keepDeny c.page c.bank else s
  (s.keepStat c.bank 4 reason c.page).raise 177 (c.op + 256 * reason + 65536 * c.bank)

/-- The reason for which a command is refused at its issue, 0 for none: region, then password, then block protection. -/
def keepRefusal (s : State) (c : KCmd) : Nat :=
  let opn := decide (2048 ≤ c.page)
  let pip := decide (2048 ≤ c.page) && decide (c.page < 4096)
  if c.op = 1 then (if !keepReadable c.page c.bank then 1 else if opn && s.rdLocked c.bank then 2 else 0)
  else if c.op = 4 then (if !pip then 1 else if s.rdLocked c.bank then 2 else 0)
  else if c.op = 2 then
    (if !keepWritable c.page c.bank then 1 else if opn && s.wrLocked c.bank then 3 else if s.bpBlocks c.page then 4 else 0)
  else if c.op = 3 ∨ c.op = 5 then (if !pip then 1 else if s.wrLocked c.bank then 3 else if s.bpBlocks c.page then 4 else 0)
  else if c.op = 9 ∨ c.op = 10 then (if c.bank = 2 then 0 else 1)
  else if c.op = 11 then (if s.wrLocked c.bank then 3 else 0)
  else 0

/-- The password that KEEP_PWIN and KEEP_ARG spell (16 R504); a length above 16 is a host error: its length is free (16 R523). -/
def keepPw (s : State) (c : KCmd) : List Byte × State :=
  let n := c.arg % 32
  if n ≤ 16 then (c.pwin.take n, s) else let f := s.free; (c.pwin.take (f.1.toNat % 17), f.2)

/-- The count of failed unlocks of the read (or write) lock (16 R517). -/
def keepFails (s : State) (w : Bool) (n : Nat) : State :=
  { s with keep := if w then { s.keep with wrFails := n } else { s.keep with rdFails := n } }

/-- The bank for which the lock now stands open. -/
def keepOpen (s : State) (w : Bool) (b : Nat) : State :=
  { s with keep := if w then { s.keep with wrOpen := (b :: s.keep.wrOpen).eraseDups } else { s.keep with rdOpen := (b :: s.keep.rdOpen).eraseDups } }

/-- UNLOCK of the read (false) or write (true) password (16 R517), ended in the clk after its issue. -/
def keepUnlock (s : State) (c : KCmd) (w : Bool) : State :=
  let fails := if w then s.keep.wrFails else s.keep.rdFails
  if 8 ≤ fails then s.keepFail c 6
  else
    let p := s.keepPw c
    if p.1 = (if w then p.2.keep.wrPw else p.2.keep.rdPw) then ((p.2.keepFails w 0).keepOpen w c.bank).keepStat c.bank 3 0 c.page
    else
      let s := (p.2.keepFails w (fails + 1)).keepFail c 5
      if fails + 1 = 8 then s.raise 182 (bn w) else s

/-- LOCK (16 R518). -/
def keepLock (s : State) (c : KCmd) : State :=
  { s with keep := { s.keep with rdOpen := s.keep.rdOpen.filter (· != c.bank), wrOpen := s.keep.wrOpen.filter (· != c.bank) } }.keepStat c.bank 3 0 c.page

/-- A bank whose command is QUEUED or BUSY (16 R503). -/
def keepBusy (s : State) (b : Nat) : Bool := let st := s.rf (kreg b Reg.KEEP_CMDSTAT) 2 0; st == 1 || st == 2

/-- A command of OP `op` is issued from bank `b` (16 R503, R504). OP 12–15 is a host error: the bank's status is free (16 R523). -/
def keepIssue (s : State) (b op page : Nat) : State :=
  if s.keepBusy b then s.wign 0x17
  else if op = 0 then s
  else if 12 ≤ op then let f := s.free; f.2.setReg (kreg b Reg.KEEP_CMDSTAT) (f.1 &&& 0x7FFF0F07)
  else
    let words := fun (a n : Nat) => ((List.range n).map fun i => leBytes 4 (s.reg (kreg b a + 4 * i)).toNat).flatten
    let c : KCmd := ⟨b, op, page, words (Reg.KEEP_PBUF 0) 16, (s.reg (kreg b Reg.KEEP_ARG)).toNat, words (Reg.KEEP_PWIN 0) 4⟩
    let r := s.keepRefusal c
    if r ≠ 0 then s.keepFail c r
    else if op = 6 then s.keepUnlock c false
    else if op = 7 then s.keepUnlock c true
    else if op = 8 then s.keepLock c
    else { s with keep := { s.keep with queue := s.keep.queue ++ [c] } }.keepStat b 1 0 page

/-- A write of KEEP_CMD (16 R503); a reserved bit written 1 makes the command that it governs free (16 R523). -/
def keepCmdWrite (s : State) (ag : Agent) (v : Word) : State :=
  let f := if v &&& 0x8000FFF0 = 0 then (v, s) else s.free
  f.2.keepIssue (bankOf ag) (fld f.1 3 0) (fld f.1 30 16)

/-! ## Execution (16 R505–R507, R511) -/

/-- The array's domain PD13 is ON and the core clock runs (01 R36, 03 R124): otherwise no command executes. -/
def keepOn (s : State) : Bool := s.domOn 13 && s.pwr.coreRun

/-- The oldest queued command starts on the array (16 R505). -/
def keepStart (s : State) : State :=
  if !s.keepOn then s
  else match s.keep.exec, s.keep.queue with
  | none, c :: t => { s with keep := { s.keep with exec := some c, queue := t } }.keepStat c.bank 2 0 c.page
  | _, _ => s

/-- The end of a journal write of a command (16 R506), or its failure without a spare (16 R510). -/
def keepWritten (c : KCmd) (r : Bool × State) (k : State → State) : State :=
  if r.1 then ((k r.2).keepStat c.bank 3 0 c.page).raise 176 (c.page + 65536 * c.bank) else r.2.keepFail c 7

/-- The protection store's page (16 R500); the spec gives its layout no place, so its fields stand in the state by name. -/
def protPage : Nat := 64

/-- A SETPW or SETBP is written: a journal write to the protection store. -/
def keepProt (s : State) (c : KCmd) (vf : Nat) (k : State → State) : State :=
  keepWritten c (s.keepJournal protPage (s.rdBytes (keepPage protPage) 64) vf) k

/-- The effect of an executing command as it completes (16 R504, R506, R512–R514, R518). A pip command reads the groups of its page (16 R509, R512). -/
def keepFinish (s : State) (c : KCmd) (vf : Nat) : State :=
  let done := fun (s : State) => s.keepStat c.bank 3 0 c.page
  if c.op = 1 then
    let r := s.keepRead c.page
    done ((List.range 16).foldl (fun t i => t.setReg (kreg c.bank (Reg.KEEP_PBUF i)) (BitVec.ofNat 32 (ofLE (sub r.1 (4 * i) 4)))) r.2)
  else if c.op = 2 then keepWritten c (s.keepJournal c.page c.data vf) id
  else if c.op = 3 then
    let b := (s.keepRead c.page).2.pipBase c.page
    if b.1.val = 0xFFFFFF then b.2.keepFail c 8 else done (b.2.pipPut c.page ((b.1.i + 1) % 16) b.1.gen (b.1.val + 1))
  else if c.op = 4 then
    let r := (s.keepRead c.page).2
    match s.pipNewest c.page with
    | some p => done (r.setReg (kreg c.bank Reg.KEEP_PIPVAL) (BitVec.ofNat 32 (p.val + 2 ^ 24 * p.i + 2 ^ 31)))
    | none => done (r.setReg (kreg c.bank Reg.KEEP_PIPVAL) 0)
  else if c.op = 5 then
    let b := (s.keepRead c.page).2.pipBase c.page
    done (b.2.pipFill c.page 16 (b.1.gen + 1) (c.arg % 2 ^ 24))
  else if c.op = 9 then
    let p := s.keepPw c
    p.2.keepProt c vf fun s => { s with keep := { s.keep with rdPw := p.1, rdOpen := [] } }
  else if c.op = 10 then
    let p := s.keepPw c
    p.2.keepProt c vf fun s => { s with keep := { s.keep with wrPw := p.1, wrOpen := [] } }
  else s.keepProt c vf fun s => { s with keep := { s.keep with bp := c.arg % 4 } }

/-- The executing command completes. -/
def keepComplete (s : State) (vf : Nat) : State :=
  if !s.keepOn then s
  else match s.keep.exec with
  | none => s
  | some c => { s with keep := { s.keep with exec := none } }.keepFinish c vf

/-- A background write (16 R509, R511): a page that waits is written again with what it reads corrected. -/
def keepRewrite (s : State) (page vf : Nat) : State :=
  if s.keepOn && s.keep.exec.isNone && s.keep.queue.isEmpty && s.keep.rewrite.contains page then
    let s := { s with keep := { s.keep with rewrite := s.keep.rewrite.filter (· != page) } }
    (s.keepJournal page (s.rdBytes (keepPage page) 64) vf).2
  else s

/-! ## Boot step 4 (16 R508) -/

/-- What a reset leaves of a write in progress: a free value says in which step it fell. Answers RECOVERED: 0 none, 1 new, 2 old. -/
def keepTorn (s : State) (c : KCmd) : Nat × State :=
  let f := s.free
  let s := f.2
  let n := f.1.toNat
  if [2, 9, 10, 11].contains c.op then
    let r := n % 3
    (r, if r = 1 then { (s.keepFinish c 0) with regs := s.regs, evt := s.evt } else s)
  else if c.op = 3 then
    let b := s.pipBase c.page
    let i := (b.1.i + 1) % 16
    (0, if b.1.val = 0xFFFFFF ∨ n % 3 = 0 then b.2 else if n % 3 = 1 then b.2.pipPut c.page i b.1.gen (b.1.val + 1)
      else { b.2 with ecc := Sparse.set (fun _ => 0) b.2.ecc (keepPage c.page + 4 * i) 2 })
  else if c.op = 5 then
    let b := s.pipBase c.page
    let k := n % 17
    let s := b.2.pipFill c.page k (b.1.gen + 1) (c.arg % 2 ^ 24)
    (0, if k < 16 ∧ n / 17 % 2 = 1 then { s with ecc := Sparse.set (fun _ => 0) s.ecc (keepPage c.page + 4 * k) 2 } else s)
  else (0, s)

/-- The journal is examined (16 R508): KEEP_STAT.RECOVERED and KEEP_RECPAGE. -/
def keepRecover (s : State) : State :=
  match s.keep.torn with
  | none => s
  | some c =>
    let r := s.keepTorn c
    let s := { r.2 with keep := { r.2.keep with torn := none } }
    if r.1 = 0 then s
    else (s.setRf Reg.KEEP_STAT 1 0 r.1).setReg Reg.KEEP_RECPAGE (BitVec.ofNat 32 ((if c.op = 2 then c.page else protPage) + 2 ^ 31))

/-- Keep as a reset leaves it (16 R508, R517): the array stays, what executed is torn, all else is gone. -/
def keepReset (k : Keep) : Keep :=
  { k with
    queue := [], exec := none, torn := (match k.exec with | some c => some c | none => k.torn), rdOpen := [], wrOpen := [], rdFails := 0, wrFails := 0,
    denyAt := none, rewrite := [], user := none }

/-! ## Views (16 R521) -/

def keepStatView (s : State) : Word :=
  BitVec.ofNat 32 (s.rf Reg.KEEP_STAT 1 0 + 4 * bn s.keep.exec.isSome + 16 * s.keep.bp)
def keepPwView (s : State) (b : Nat) : Word :=
  let k := s.keep
  BitVec.ofNat 32 (bn (k.rdPw != []) + 2 * bn (k.wrPw != []) + 4 * bn (k.rdOpen.contains b) + 8 * bn (k.wrOpen.contains b)
    + 16 * min k.rdFails 15 + 256 * min k.wrFails 15 + 4096 * bn (decide (8 ≤ k.rdFails)) + 8192 * bn (decide (8 ≤ k.wrFails)))

/-- One 4-byte group of the window as agent class `cls` with bank `b` reads it (16 R500, R509, R516). -/
def keepWindow (s : State) (a cls b : Nat) : List Byte × State :=
  let page := (a - Key.keep) / 64
  if !keepReadable page cls then (List.replicate 4 0, s.keepDeny page cls)
  else if decide (2048 ≤ page) && s.rdLocked b then (List.replicate 4 0, s)
  else s.keepGroup page ((a - Key.keep) % 64 / 4)

end State

open State

/-! ## The commands -/

/-- A Keep command written to KEEP_CMD (16 R503). -/
def keepOp (ag : Agent) (op page : Nat) (s : State) : Res State :=
  .next (s.regWrite ag Reg.KEEP_CMD fun s => (s.keepUse ag).keepIssue (bankOf ag) op page)

/-- KEEP_LOAD (16 R504). -/
def execKeepLoad (ag : Agent) (page : BitVec 15) (s : State) : Res State := keepOp ag 1 page.toNat s
/-- KEEP_COMMIT (16 R507). -/
def execKeepCommit (ag : Agent) (page : BitVec 15) (s : State) : Res State := keepOp ag 2 page.toNat s
/-- PIPINC (16 R513). -/
def execPipinc (ag : Agent) (page : BitVec 15) (s : State) : Res State := keepOp ag 3 page.toNat s
/-- PIPREAD (16 R512). -/
def execPipread (ag : Agent) (page : BitVec 15) (s : State) : Res State := keepOp ag 4 page.toNat s
/-- PIPINIT (16 R514). -/
def execPipinit (ag : Agent) (page : BitVec 15) (s : State) : Res State := keepOp ag 5 page.toNat s
/-- UNLOCK_RD (16 R517). -/
def execUnlockRd (ag : Agent) (s : State) : Res State := keepOp ag 6 0 s
/-- UNLOCK_WR (16 R517). -/
def execUnlockWr (ag : Agent) (s : State) : Res State := keepOp ag 7 0 s
/-- KEEP_LOCK (16 R518). -/
def execKeepLock (ag : Agent) (s : State) : Res State := keepOp ag 8 0 s
/-- SETPW_RD (16 R518). -/
def execSetpwRd (ag : Agent) (s : State) : Res State := keepOp ag 9 0 s
/-- SETPW_WR (16 R518). -/
def execSetpwWr (ag : Agent) (s : State) : Res State := keepOp ag 10 0 s
/-- SETBP (16 R519). -/
def execSetbp (ag : Agent) (s : State) : Res State := keepOp ag 11 0 s

/-- KEEP_CMD_EXECUTE (16 R505). -/
def execKeepCmdExecute (s : State) : Res State := .next s.keepStart

/-- COMMIT_DONE (16 R506). -/
def execCommitDone (vf : Fin 3) (s : State) : Res State := .next (s.keepComplete vf.val)

/-- KEEP_BACKGROUND_WRITE (16 R511). -/
def execKeepBackgroundWrite (page : BitVec 15) (vf : Fin 3) (s : State) : Res State := .next (s.keepRewrite page.toNat vf.val)

end Sys2Proof.Machine
end

