-- ==== Sys2Proof/Machine/Rtc.lean ====
section
/-! DEFINITION. The real-time clock and calendar (17). -/

-- one declaration at a time: many at once take a thread and its stack each
set_option Elab.async false

namespace Sys2Proof.Machine

/-- The calendar as numbers (17 R524). -/
structure Cal where
  sec : Nat
  min : Nat
  hour : Nat
  dow : Nat
  date : Nat
  month : Nat
  year : Nat
  cent : Nat
  deriving DecidableEq, Repr

/-- Two packed BCD digits as a number. -/
def unBcd (v : Nat) : Nat := v / 16 * 10 + v % 16
/-- A number below 100 as two packed BCD digits. -/
def toBcd (n : Nat) : Nat := n / 10 % 10 * 16 + n % 10
/-- Both digits are decimal. -/
def bcdOk (v : Nat) : Bool := decide (v / 16 % 16 < 10) && decide (v % 16 < 10)

/-- The fields of a time word and a calendar word as they stand (17 R524). -/
def rtcFields (t c : Word) : List Nat :=
  [fld t 6 0, fld t 14 8, fld t 21 16, fld t 26 24, fld c 5 0, fld c 12 8, fld c 23 16, fld c 29 24]

/-- The calendar of the two words. -/
def calOf (t c : Word) : Cal :=
  ⟨unBcd (fld t 6 0), unBcd (fld t 14 8), unBcd (fld t 21 16), fld t 26 24, unBcd (fld c 5 0), unBcd (fld c 12 8), unBcd (fld c 23 16), unBcd (fld c 29 24)⟩

/-- RTC_TIME of a calendar. -/
def calTime (k : Cal) : Word := BitVec.ofNat 32 (toBcd k.sec + 256 * toBcd k.min + 65536 * toBcd k.hour + 2 ^ 24 * (k.dow % 8))
/-- RTC_CAL of a calendar. -/
def calDate (k : Cal) : Word := BitVec.ofNat 32 (toBcd k.date + 256 * toBcd k.month + 65536 * toBcd k.year + 2 ^ 24 * toBcd k.cent)

/-- A leap year (17 R525). -/
def leapYear (year cent : Nat) : Bool := year % 4 == 0 && (year != 0 || cent == 20)

/-- Days of a month. -/
def monthDays (month year cent : Nat) : Nat :=
  if month = 2 then (if leapYear year cent then 29 else 28) else if [4, 6, 9, 11].contains month then 30 else 31

/-- The first day of the next month, and whether the calendar wraps from 2399 to 2000 (17 R526). -/
def nextMonth (k : Cal) : Cal × Bool :=
  if k.month < 12 then ({ k with date := 1, month := k.month + 1 }, false)
  else if k.year < 99 then ({ k with date := 1, month := 1, year := k.year + 1 }, false)
  else if k.cent < 23 then ({ k with date := 1, month := 1, year := 0, cent := k.cent + 1 }, false)
  else ({ k with date := 1, month := 1, year := 0, cent := 20 }, true)

/-- Midnight (17 R526, R532): an impossible date, and DATE 00, go to day 1 of the next month; DOW advances but for the wrap. -/
def midnight (k : Cal) : Cal × Bool :=
  let dow := if 7 ≤ k.dow then 1 else k.dow + 1
  if k.date = 0 ∨ monthDays k.month k.year k.cent ≤ k.date then
    let r := nextMonth k
    (if r.2 then r.1 else { r.1 with dow := dow }, r.2)
  else ({ k with date := k.date + 1, dow := dow }, false)

/-- One hour later (17 R531). -/
def addHour (k : Cal) : Cal × Bool := if k.hour < 23 then ({ k with hour := k.hour + 1 }, false) else midnight { k with hour := 0 }

/-- One hour earlier (17 R531): from 00 hours on DATE 01 or 00 to the last day of the previous month; from 1 January 2000 to 31 December 2399. The wrap leaves
DOW as the wrap of R526 does (DEDUCED). -/
def subHour (k : Cal) : Cal × Bool :=
  if 0 < k.hour then ({ k with hour := k.hour - 1 }, false)
  else
    let dow := if k.dow ≤ 1 then 7 else k.dow - 1
    if 1 < k.date then ({ k with hour := 23, date := k.date - 1, dow := dow }, false)
    else if 1 < k.month then
      ({ k with hour := 23, month := k.month - 1, date := monthDays (k.month - 1) k.year k.cent, dow := dow }, false)
    else if 0 < k.year then ({ k with hour := 23, month := 12, date := 31, year := k.year - 1, dow := dow }, false)
    else if 20 < k.cent then ({ k with hour := 23, month := 12, date := 31, year := 99, cent := k.cent - 1, dow := dow }, false)
    else ({ k with hour := 23, month := 12, date := 31, year := 99, cent := 23 }, true)

/-- One second later (17 R526). -/
def addSecond (k : Cal) : Cal × Bool :=
  if k.sec < 59 then ({ k with sec := k.sec + 1 }, false)
  else if k.min < 59 then ({ k with sec := 0, min := k.min + 1 }, false)
  else addHour { k with sec := 0, min := 0 }

/-- Days from 1 January 1970 to 1 January of 2000 + `d`. -/
def daysTo (d : Nat) : Nat := 10957 + 365 * d + (d + 3) / 4 - (d + 99) / 100 + (d + 399) / 400

/-- Days of the months before `month`. -/
def daysBefore (month year cent : Nat) : Nat := ((List.range (month - 1)).map fun i => monthDays (i + 1) year cent).sum

/-- A calendar as seconds since 1970-01-01 (12 R400); an impossible date counts from day 1 of its month (17 R533). -/
def calSeconds (k : Cal) : Nat :=
  ((daysTo ((k.cent - 20) * 100 + k.year) + daysBefore k.month k.year k.cent + k.date) - 1) * 86400 + k.hour * 3600 + k.min * 60 + k.sec

/-- Seconds since 1970-01-01 as a calendar, none outside 2000–2399 (12 R420). -/
def calOfSeconds (t : Int) : Option Cal :=
  if t < 0 then none
  else
    let days := t.toNat / 86400
    let r := t.toNat % 86400
    match (List.range 400).find? fun d => decide (daysTo d ≤ days) && decide (days < daysTo (d + 1)) with
    | none => none
    | some d =>
      let year := d % 100
      let cent := 20 + d / 100
      let n := days - daysTo d
      let month := ((List.range 12).filter fun m => decide (daysBefore (m + 1) year cent ≤ n)).length
      some ⟨r % 60, r / 60 % 60, r / 3600, (days + 3) % 7 + 1, n - daysBefore month year cent + 1, month, year, cent⟩

namespace State

/-- The calendar. -/
def cal (s : State) : Cal := calOf (s.reg Reg.RTC_TIME) (s.reg Reg.RTC_CAL)
def setCal (s : State) (k : Cal) : State := (s.setReg Reg.RTC_TIME (calTime k)).setReg Reg.RTC_CAL (calDate k)

/-- An event of the RTC; in BACKUP none is raised (17 R535; 01 R36, the event router is off). -/
def rtcRaise (s : State) (e d : Nat) : State := if s.mode = Mode.backup then s else s.raise e d

/-- The calendar has wrapped (17 R526, R531). -/
def rtcWrap (s : State) (b : Bool) : State := if b then (s.setRb Reg.RTC_STAT 6 true).rtcRaise 189 0 else s

/-- Alarm `n` matches (17 R534); a digit that is not decimal in an unmasked field leaves the match to a free value (17 R543). -/
def alarmMatch (s : State) (n : Nat) : Bool × State :=
  let at' := s.reg (if n = 0 then Reg.RTC_ALM0_TIME else Reg.RTC_ALM1_TIME)
  let ac := s.reg (if n = 0 then Reg.RTC_ALM0_CAL else Reg.RTC_ALM1_CAL)
  let bytes := [fld at' 7 0, fld at' 15 8, fld at' 23 16, fld at' 31 24, fld ac 7 0, fld ac 15 8]
  let now := (rtcFields (s.reg Reg.RTC_TIME) (s.reg Reg.RTC_CAL)).take 6
  let used := (bytes.zip now).filter fun x => decide (x.1 < 128)
  if used.any fun x => !bcdOk x.1 then (let f := s.free; (fld f.1 0 0 == 1, f.2))
  else (used.all fun x => x.1 == x.2, s)

/-- The comparison of both alarms (17 R534, R535). -/
def rtcAlarms (s : State) : State :=
  (List.range 2).foldl (fun t n =>
    if t.rb Reg.RTC_ALMCTRL n then
      let m := t.alarmMatch n
      if m.1 then (m.2.setRb Reg.RTC_STAT (1 + n) true).rtcRaise (186 + n) (m.2.reg Reg.RTC_TIME).toNat else m.2
    else t) s

/-- At the end of a boot the event of each alarm flag that is 1 is raised (17 R535). -/
def rtcBootAlarms (s : State) : State :=
  (List.range 2).foldl (fun t n => if t.rb Reg.RTC_STAT (1 + n) then t.raise (186 + n) (t.reg Reg.RTC_TIME).toNat else t) s

/-- The sub-second divider is 0 now. -/
def rtcZero (s : State) : State := { s with rtc := { s.rtc with since := s.now, sub := 0 } }

/-- RTC_SUBSEC (17 R528): ticks of 32.768 kHz since the divider was 0; a crystal that stands still gives none (R527). -/
def rtcSubsec (s : State) : Nat := if s.rtc.xtal then min 32767 ((s.now - s.rtc.since) * 32768 / 4000000000) else s.rtc.sub

/-- The crystal runs, or has given no edge for 1 ms (17 R527; 03 R124). -/
def setXtal (s : State) (b : Bool) : State := { s with rtc := { s.rtc with xtal := b, sub := s.rtcSubsec } }

/-- A command ends (17 R529). -/
def rtcDone (s : State) (cmd : Nat) : State :=
  { s.setRb Reg.RTC_STAT 0 false with rtc := { s.rtc with cmd := 0 } }.rtcRaise 184 cmd

/-- A second tick (17 R526, R531, R534): the calendar first, then the hour change that waits, then the alarms. -/
def rtcTick (s : State) : State :=
  let a := addSecond s.cal
  let s := (s.rtcZero.setCal a.1).rtcWrap a.2
  let s :=
    if s.rtc.cmd = 1 then (let h := addHour s.cal; ((s.setCal h.1).rtcWrap h.2).rtcDone 1)
    else if s.rtc.cmd = 2 then (let h := subHour s.cal; ((s.setCal h.1).rtcWrap h.2).rtcDone 2)
    else s
  s.rtcAlarms

/-- The first field of the set buffer that R530 refuses. -/
def setErr (t c : Word) : Option Nat :=
  let k := calOf t c
  [decide (k.sec ≤ 59), decide (k.min ≤ 59), decide (k.hour ≤ 23), decide (1 ≤ k.dow) && decide (k.dow ≤ 7), decide (k.date ≤ 31),
    decide (1 ≤ k.month) && decide (k.month ≤ 12), true, decide (20 ≤ k.cent) && decide (k.cent ≤ 23)].findIdx? (fun ok => !ok)

/-- SET (17 R530); a digit that is not decimal leaves the calendar to free values (17 R543). -/
def rtcSet (s : State) : State :=
  let t := s.reg Reg.RTC_SETTIME
  let c := s.reg Reg.RTC_SETCAL
  if ((rtcFields t c).any fun v => !bcdOk v) then
    let f := s.free
    let g := f.2.free
    let s := ((g.2.setReg Reg.RTC_TIME (f.1 &&& 0x073F7F7F)).setReg Reg.RTC_CAL (g.1 &&& 0x3FFF1F3F)).rtcZero
    ((s.setRb Reg.RTC_STAT 3 false).rtcAlarms).rtcDone 0
  else match setErr t c with
  | some n => (s.setReg Reg.RTC_SETERR (BitVec.ofNat 32 n)).rtcRaise 185 n
  | none =>
    let s := ((s.setReg Reg.RTC_TIME t).setReg Reg.RTC_CAL c).rtcZero
    ((s.setRb Reg.RTC_STAT 3 false).rtcAlarms).rtcDone 0

/-- A write of RTC_CMD (17 R529; 12 R420): refused with several commands, while BUSY, with OSCSTOP but for SET, and FROMNET while UNLOCKED. A write without a
command does nothing. -/
def rtcCmdWrite (s : State) (v : Word) : State :=
  let c := fld v 3 0
  let hold := fun (n : Nat) => { s.voidTrim.setRb Reg.RTC_STAT 0 true with rtc := { s.rtc with cmd := n } }
  if c = 0 then s
  else if !([1, 2, 4, 8].contains c) || s.rb Reg.RTC_STAT 0 || (s.rb Reg.RTC_STAT 3 && c != 1) || (c == 8 && s.rb Reg.TIM_STAT 0) then s.wign 0x18
  else if c = 1 then s.voidTrim.rtcSet
  else if c = 2 then hold 1
  else if c = 4 then hold 2
  else hold 3

/-- The signed value of a 16-bit field. -/
def signed16 (n : Nat) : Int := if 32768 ≤ n then (n : Int) - 65536 else n

/-- N for a temperature in quarter degrees (17 R536). -/
def compN (s : State) (t : Int) : Int :=
  let t := max (-160) (min 480 t)
  let i := min 31 ((t + 160) / 20).toNat
  let c := fun j => signed16 (s.rf (Reg.RTC_CURVE j) 15 0)
  let num := 20 * c i + (c (i + 1) - c i) * (t - (20 * (i : Int) - 160)) + 20 * signed16 (s.rf Reg.RTC_COMPCFG 31 16)
  let n := (num.natAbs * 2097152 * 2 + 2000000000) / 4000000000
  let n := min 255 n
  if num < 0 then -(n : Int) else n

/-- A 64-second window begins (17 R536, R537); with EN = 0, N is 0. -/
def compWindow (s : State) (temp : BitVec 10) : State :=
  if s.rb Reg.RTC_COMPCFG 0 then
    let s := s.setReg Reg.RTC_TEMP (temp.setWidth 32)
    s.setReg Reg.RTC_COMPN ((BitVec.ofInt 9 (s.compN temp.toInt)).setWidth 32)
  else s.setReg Reg.RTC_COMPN 0

end State

open State

/-! ## The commands -/

/-- RTC_SECOND_TICK (17 R526). -/
def execRtcSecondTick (s : State) : Res State := .next (s.setXtal true).rtcTick

/-- COMP_WINDOW (17 R536). -/
def execCompWindow (temp : BitVec 10) (s : State) : Res State := .next (s.compWindow temp)

/-- OSC_STOP (17 R527). -/
def execOscStop (s : State) : Res State := .next (((s.setXtal false).setRb Reg.RTC_STAT 3 true).rtcRaise 190 0)

/-- The registers in PD0 at their power-up values (03 R101; 17 R527, R541). -/
def pd0Fresh (regs : List (Nat × Word)) : List (Nat × Word) :=
  regs.filter fun e => match target ((e.1 % 2 ^ 32 - 0x01000000) / 0x1000) (e.1 % 0x1000) with
    | some t => !t.row.kept
    | none => true

/-- PD0_POWER_UP (17 R527): every register kept in PD0 takes its power-up value, OSCSTOP among them; the divider starts at 0. -/
def execPd0PowerUp (s : State) : Res State := .next ({ s with regs := pd0Fresh s.regs, rtc := {} }.rtcZero)

/-- VBAT_CHANGEOVER (17 R539). -/
def execVbatChangeover (toVbat : Bool) (s : State) : Res State :=
  let s := { s with pwr := { s.pwr with onVbat := toVbat } }
  .next (if toVbat then s.setRb Reg.RTC_STAT 4 true else s)

/-- RTC_SET (17 R530). -/
def execRtcSet (ag : Agent) (s : State) : Res State := .next (s.regWrite ag Reg.RTC_CMD (·.rtcCmdWrite 1))

/-- ADDH (17 R531). -/
def execAddh (ag : Agent) (s : State) : Res State := .next (s.regWrite ag Reg.RTC_CMD (·.rtcCmdWrite 2))

/-- SUBH (17 R531). -/
def execSubh (ag : Agent) (s : State) : Res State := .next (s.regWrite ag Reg.RTC_CMD (·.rtcCmdWrite 4))

/-- FROMNET (12 R420). -/
def execFromnet (ag : Agent) (s : State) : Res State := .next (s.regWrite ag Reg.RTC_CMD (·.rtcCmdWrite 8))

end Sys2Proof.Machine
end

