-- ==== Sys2Proof/Machine/Bgd.lean ====
section
/-! DEFINITION. Background work and telemetry (19): scrubbers, calibration, the RTC's trim, temperatures and supplies. -/

-- one declaration at a time: many at once take a thread and its stack each
set_option Elab.async false

namespace Sys2Proof.Machine

/-- Key of the register file of context `x` of core `c`, for the scrubber's findings alone (19 R578). -/
abbrev regFileKey (c x : Nat) : Nat := 0x3_00000000 + c * 0x1000 + 0x20 * x

/-- What a scrubber's key names (19 R578): an instruction word (core, half, word), a scratch word (core, word), a register file (core), a word of
Pantry or an image bank, a timer cell's word, a Keep page. -/
inductive ScrubAt where
  | instr (c h w : Nat)
  | scratch (c w : Nat)
  | regs (c : Nat)
  | shared
  | cell
  | keep (page : Nat)
  deriving DecidableEq, Repr

/-- The word of scrubber `i` that key `k` names, none where the scrubber does not cover it. -/
def scrubAt (i k : Nat) : Option ScrubAt :=
  if i = 0 ∧ Key.instr 0 0 0 ≤ k ∧ k < Key.instr 73 0 0 then
    let c := (k - Key.instr 0 0 0) / 0x20000
    let o := (k - Key.instr 0 0 0) % 0x20000
    some (if c < 68 then .instr c (o / 0x10000) (o % 0x10000 / 4) else .instr c 0 (o / 4))
  else if i = 1 ∧ Key.scratch 0 ≤ k ∧ k < Key.scratch 73 then some (.scratch ((k - Key.scratch 0) / 0x2000) ((k - Key.scratch 0) % 0x2000 / 4))
  else if i = 1 ∧ regFileKey 0 0 ≤ k ∧ k < regFileKey 73 0 then some (.regs ((k - regFileKey 0 0) / 0x1000))
  else if i = 2 ∧ State.inPantry k = true then some .shared
  else if i = 3 ∧ ((Key.input ≤ k ∧ k < Key.status + 0x400) ∨ (Key.exch ≤ k ∧ k < Key.exch + 0x2000) ∨ (Key.recv ≤ k ∧ k < Key.recv + 0x4000)
      ∨ (Key.publish ≤ k ∧ k < Key.publish + 0x4000)) then some .shared
  else if i = 4 ∧ Key.cells ≤ k ∧ k < Key.cells + 0x8000 then some .cell
  else if i = 5 ∧ Key.keep ≤ k ∧ k < Key.keep + 0x200000 then some (.keep ((k - Key.keep) / 64))
  else none
/-- The power domain of a scrubbed word (01 R36); a domain that is not ON allows no access. -/
def ScrubAt.dom : ScrubAt → Nat
  | .instr c h _ => if c < 68 then 6 + h else 1
  | .scratch c _ | .regs c => if c < 68 then 2 + c / 17 else 1
  | .shared | .cell => 8
  | .keep _ => 13

/-- The word with which a pass of scrubber `i` ends: the last of its last memory instance (DESIGN CHOICE, log 30: the spec gives no order). -/
def scrubLast (i k : Nat) : Bool :=
  let w := k / 4 * 4
  match i with
  | 0 => w == Key.instr 72 0 0x7FFF
  | 1 => w == regFileKey 72 0
  | 2 => w == Key.pantry + 0x3FFFFC
  | 3 => w == Key.publish + 0x3FFC
  | 4 => w == Key.cells + 0x7FFC
  | _ => k / 64 == (Key.keep + 0x1FFFC0) / 64

namespace State

/-! ## Scrubbing (19 R578–R582, R588) -/

/-- Scrubber `i` runs: its bit of BGD_CTRL, in every mode but BACKUP and BOOT (19 R578). -/
def scrubRuns (s : State) (i : Nat) : Bool := s.rb Reg.BGD_CTRL i && !s.modeIn [Mode.backup, Mode.boot]

/-- BGD_STAT. -/
def bgdStatView (s : State) : Word := BitVec.ofNat 32 ((List.range 6).foldl (fun n i => if s.scrubRuns i then n + 2 ^ i else n) 0)

/-- BGD_UE_CNT with its hidden count, to see whether it has changed. -/
def ueCount (s : State) : Word := s.reg Reg.BGD_UE_CNT + Sparse.get (fun _ => 0) s.hidden Reg.BGD_UE_CNT

/-- A correction found by a scrub read (19 R581): counted; INSTR_CE and CELL_CE name the word. The word keeps its error until it is written back. -/
def scrubCe (s : State) (k : Nat) (a : ScrubAt) : State :=
  let s := s.bump Reg.BGD_CE_CNT
  match a with
  | .instr c _ w => (s.setEcc k 1).raise 209 (ueDetail c w)
  | .scratch _ _ | .regs _ => s.setEcc k 1
  | .cell => (s.setEcc k 1).raise 211 (ueDetail 0x7F (k / 4 * 4))
  | .shared => s.ceWord k
  | .keep _ => s

/-- An uncorrectable word found by a scrub read (19 R582). -/
def scrubUe (s : State) (k : Nat) (a : ScrubAt) : State :=
  match a with
  | .instr c h w =>
    let s := (s.setEcc k 2).ueRecord 0 c h w
    if c < 68 then s.raise 210 (ueDetail c w) else s.svcStop c
  | .scratch c w =>
    let s := (s.setEcc k 2).ueRecord 1 c 0 w
    if c < 68 then s.laneFault c 2 else s.svcStop c
  | .regs c =>
    let s := s.ueRecord 2 c 0 (k % 0x1000)
    if c < 68 then s.laneFault c 1 else s.svcStop c
  | .cell => (((s.setEcc k 0).wrLE (k / 4 * 4) 4 0).ueRecord 5 0x7F 0 (k / 4 * 4)).raise 212 (ueDetail 0x7F (k / 4 * 4))
  | .shared => s.ueWord k
  | .keep _ => s

/-- A scrubbed Keep page (16 R509, R511): every group is read; corrections are counted here too (19 R581). -/
def scrubKeep (s : State) (page : Nat) : State :=
  let n := (s.ecc.filter fun e => decide (keepPage page ≤ e.1) && decide (e.1 < keepPage page + 64) && e.2 == 1).length
  (s.keepRead page).2.count Reg.BGD_CE_CNT n

/-- The highest program count of any page and its page, as the last pass of scrubber K found them (16 R523). -/
def keepWear (s : State) : State :=
  let m := s.keep.progs.foldl (fun (b : Nat × Nat) e => if b.1 < e.2 then (e.2, e.1) else b) (0, 0)
  (s.setReg Reg.KEEP_WEAR_MAX (BitVec.ofNat 32 (m.1 % 2 ^ 21))).setReg Reg.KEEP_WEAR_PAGE (BitVec.ofNat 32 m.2)

/-- The end of a pass (19 R588): counted; PASS_DONE when BGD_UE_CNT has changed in it. -/
def passEnd (s : State) (i : Nat) : State :=
  let s := s.bump (Reg.BGD_PASS_I i)
  let s := if i = 5 then s.keepWear else s
  let n := s.ueCount
  let s := if Sparse.get (fun _ => 0) s.bgd.ue i = n then s else s.raise 208 (i + 256 * ((s.reg (Reg.BGD_PASS_I i)).toNat % 2 ^ 24))
  { s with bgd := { s.bgd with ue := Sparse.set (fun _ => 0) s.bgd.ue i n } }

/-- A merge, the publish copy or the update of the cells uses the banks of scrubber `i`: its read is discarded and repeated later (19 R579). -/
def scrubTaken (s : State) (i : Nat) : Bool := (i == 3 && s.bankBusy 0x10) || (i == 4 && s.bankBusy 0x30)

/-- Scrubber `i` reads the word of key `k`; `ue`, `ce`: an error of that kind has arisen in it (for Keep, in the group of the key). -/
def scrubRead (s : State) (i k : Nat) (ue ce : Bool) : State :=
  match scrubAt i k with
  | none => s
  | some a =>
    if !s.scrubRuns i || !s.domOn a.dom || !s.pwr.coreRun || s.scrubTaken i then s
    else
      let old := s.eccMark k
      let m := if ue then 2 else if ce then max 1 old else old
      let s := match a with
        | .keep page => (s.setEcc k m).scrubKeep page
        | _ => if m = 2 then s.scrubUe k a else if m = 1 then s.scrubCe k a else s
      if scrubLast i k then s.passEnd i else s

/-- The corrected word is written back, unless a requester has written it before (19 R581): its mark is then gone already. A domain that is not ON takes no
write. -/
def scrubBack (s : State) (k : Nat) : State :=
  match (List.range 6).findSome? fun i => scrubAt i k with
  | some a => if s.eccMark k = 1 && s.domOn a.dom then s.setEcc k 0 else s
  | none => s

/-! ## Calibration (19 R583–R585) -/

/-- A calibration request names the next enabled channel (19 R583). -/
def rcalRequest (s : State) : State :=
  if s.rndEn && s.rb Reg.BGD_CTRL 6 then
    match ((List.range 32).map fun i => (s.bgd.cal + i) % 32).find? fun c => s.rb Reg.RND_CHEN c with
    | some c => { s.rndPush (.cal c) with bgd := { s.bgd with cal := (c + 1) % 32 } }
    | none => s
  else s

/-- A window of the RTC's measurement ends (19 R584): e, limited to ±500, is added to TRIM; a window in which UNLOCKED became 1, or a SET, STEP, RTC command or
write of TRIM fell, is discarded, as one that `discarded` says so of (RTCTRIM set within it): it changes nothing. -/
def rtcTrim (s : State) (e : Half) (discarded : Bool) : State :=
  let void := discarded || s.bgd.voided
  let s := { s with bgd := { s.bgd with voided := false } }
  if s.rb Reg.BGD_CTRL 7 && !s.rb Reg.TIM_STAT 0 && !void then
    let d : Int := max (-500) (min 500 e.toInt)
    let s := s.setReg Reg.BGD_RTC_ERR (e.setWidth 32)
    let t := (BitVec.ofInt 16 (signed16 (s.rf Reg.RTC_COMPCFG 31 16) + d)).toNat
    (s.setRf Reg.RTC_COMPCFG 31 16 t).raise 214 e.toNat
  else s

/-! ## Telemetry (19 R586, R587) -/

/-- A reading of 10 bits as a signed number of quarter degrees (19 R589). -/
def temp10 (n : Nat) : Int := if 512 ≤ n % 1024 then (n % 1024 : Nat) - 1024 else (n % 1024 : Nat)

/-- A temperature sensor's sample (19 R586). TCRIT below TWARN is a host error: whether the events are raised is free (19 R590). -/
def tempSample (s : State) (i v : Nat) : State :=
  let s := s.setReg (Reg.TLM_TEMP i) (BitVec.ofNat 32 (v % 1024))
  let s := if temp10 (s.rf Reg.TLM_TEMPMAX 9 0) < temp10 v then s.setReg Reg.TLM_TEMPMAX (BitVec.ofNat 32 (v % 1024)) else s
  let w := temp10 (s.rf Reg.TLM_TWARN 9 0)
  let c := temp10 (s.rf Reg.TLM_TCRIT 9 0)
  let f := s.free
  let s := if c < w then f.2 else s
  let s := if (if c < w then fld f.1 0 0 = 1 else w ≤ temp10 v) then (let t := s.raise 216 i; { t with bgd := { t.bgd with warm := true } }) else s
  if (if c < w then fld f.1 1 1 = 1 else c ≤ temp10 v) then s.raise 217 i else s

/-- Nominal mV of the supplies in TLM's order (21 R606). -/
def nominal : Nat → Nat
  | 0 => 800
  | 1 => 3300
  | 2 => 1800
  | 3 => 900
  | 4 => 3300
  | _ => 3000

/-- A supply monitor's sample (19 R586): out of its window, and back. -/
def voltSample (s : State) (i v : Nat) : State :=
  let s := s.setReg (Reg.TLM_V i) (BitVec.ofNat 32 (v % 65536))
  let n := nominal i
  let bad := decide (v * 100 + n * s.rf Reg.TLM_VWIN 7 0 < n * 100) || decide (n * (100 + s.rf Reg.TLM_VWIN 15 8) < v * 100)
  if bad && !s.bgd.out.contains i then { s.raise 219 i with bgd := { s.bgd with out := s.bgd.out ++ [i] } }
  else if !bad && s.bgd.out.contains i then { s.raise 220 i with bgd := { s.bgd with out := s.bgd.out.filter (· != i) } }
  else s

/-- One round of samples (19 R586): TEMP_OK once all four sensors read below TWARN − 5 °C after a warning. -/
def telemetry (s : State) (temps volts : List Half) : State :=
  let s := (List.range 4).foldl (fun t i => match temps[i]? with | some v => t.tempSample i v.toNat | none => t) s
  let s := if s.bgd.warm && (List.range 4).all (fun i => decide (temp10 (s.rf (Reg.TLM_TEMP i) 9 0) < temp10 (s.rf Reg.TLM_TWARN 9 0) - 20)) then
      { s.raiseFree 218 with bgd := { s.bgd with warm := false } } else s
  (List.range 6).foldl (fun t i => match volts[i]? with | some v => t.voltSample i v.toNat | none => t) s

/-- TLM_LCLR (19 R587, R589). -/
def lclrWrite (s : State) (v : Word) : State :=
  if fld v 0 0 = 1 then
    let s := { s with cores := Sparse.insertAll (fun _ => {}) (s.cores.map fun e => (e.1, { e.2 with lsMin := 0x3FFFFFFF, lsMax := 0 })) [] }
    (List.range 4).foldl (fun t b => t.setRf (Reg.TLM_BUNUTIL b) 25 16 0) s
  else s

/-- The lane that TLM_LSEL selects; above 63 is a host error (19 R590). -/
def lselCore (s : State) : CoreSt := s.core (s.physOf (s.rf Reg.TLM_LSEL 5 0))

end State

open State

/-! ## The commands -/

/-- SCRUB_READ (19 R578). -/
def execScrubRead (i : Fin 6) (key : Nat) (ue ce : Bool) (s : State) : Res State := .next (s.scrubRead i key ue ce)

/-- SCRUB_WRITEBACK (19 R581). -/
def execScrubWriteback (key : Nat) (s : State) : Res State := .next (s.scrubBack key)

/-- RCAL_REQUEST (19 R583). -/
def execRcalRequest (s : State) : Res State := .next s.rcalRequest

/-- RTC_TRIM_WINDOW (19 R584). -/
def execRtcTrimWindow (e : Half) (discarded : Bool) (s : State) : Res State := .next (s.rtcTrim e discarded)

/-- RATE_AVERAGE (19 R585). -/
def execRateAverage (mean : Word) (s : State) : Res State := .next (if s.rb Reg.TIM_STAT 0 then s else s.setReg Reg.BGD_RATEAVG mean)

/-- TELEMETRY_SAMPLE (19 R586). -/
def execTelemetrySample (temps volts : List Half) (s : State) : Res State := .next (s.telemetry temps volts)

/-- LCLR (19 R587): TLM_LCLR written with 1. -/
def execLclr (ag : Agent) (s : State) : Res State := .next (s.regWrite ag Reg.TLM_LCLR (·.lclrWrite 1))

end Sys2Proof.Machine
end

