-- ==== Sys2Proof/Machine/Time.lean ====
section
/-! DEFINITION. The time base, its lock, capture inputs and pulse outputs (12 R391–R425). -/

-- one declaration at a time: many at once take a thread and its stack each
set_option Elab.async false

namespace Sys2Proof.Machine

namespace State

/-! ## The time base (12 R391–R400) -/

/-- T in 2^-32 ns. -/
def timFine (s : State) : Nat := (s.tim.sec * 1000000000 + s.tim.ns) * 2 ^ 32 + s.tim.frac

/-- The time base at a value in 2^-32 ns, SEC wrapping at 2^48. -/
def setTimFine (s : State) (x : Int) : State :=
  let m : Int := 2 ^ 48 * 1000000000 * 2 ^ 32
  let y := (x % m).toNat
  let ns := y / 2 ^ 32
  { s with tim := { s.tim with sec := ns / 1000000000, ns := ns % 1000000000, frac := y % 2 ^ 32 } }

/-- TIM_RATE with its limits (12 R394). -/
def timRate (s : State) : Int := max (-34359738) (min 34359738 (s.reg Reg.TIM_RATE).toInt)

/-- One time-base clk of 8 ns (12 R394), while PD9 is ON. -/
def timTick (s : State) : State := if s.domOn 9 then s.setTimFine (s.timFine + 8 * 2 ^ 32 + s.timRate) else s

/-- UNLOCKED is set by a cause (12 R398). -/
def timUnlock (s : State) (cause : Nat) : State :=
  if s.rb Reg.TIM_STAT 0 then s
  else (((s.voidTrim.setRb Reg.TIM_STAT 0 true).setRf Reg.TIM_STAT 15 8 0).bump Reg.TIM_UNLOCK_CNT).raise 113 cause

/-- A write of TIM_OFSMEAS (12 R397, R398). -/
def ofsMeas (s : State) (v : Word) : State :=
  let m := v.toInt.natAbs
  let s := s.setReg Reg.TIM_OFS_LAST v
  let run := if m ≤ s.rf Reg.TIM_LOCKTHR 15 0 then min 255 (s.rf Reg.TIM_STAT 15 8 + 1) else 0
  let s := s.setRf Reg.TIM_STAT 15 8 run
  let s := if s.rb Reg.TIM_STAT 0 && decide (max 1 (s.rf Reg.TIM_LOCKCNT 7 0) ≤ run) && decide (m ≤ s.rf Reg.TIM_LOCKTHR 15 0) then
      (s.setRb Reg.TIM_STAT 0 false).raise 112 v.toNat
    else s
  if s.rf Reg.TIM_UNLOCKTHR 15 0 < m then s.timUnlock 1 else s

/-- TIM_CMD.SET (12 R395); TIM_SET_NS of 10^9 or above leaves network time to free values (12 R430). -/
def timSetValue (s : State) : State :=
  let ns := s.rf Reg.TIM_SET_NS 29 0
  let sec := (s.reg Reg.TIM_SET_SECLO).toNat + 2 ^ 32 * s.rf Reg.TIM_SET_SECHI 15 0
  if ns < 1000000000 then { s with tim := { s.tim with sec := sec, ns := ns, frac := 0 } }
  else
    let f := s.free64
    { f.2 with tim := { s.tim with sec := f.1.toNat / 2 ^ 16, ns := f.1.toNat % 1000000000, frac := 0 } }

/-- TIM_CMD.STEP (12 R395). -/
def timAddStep (s : State) : State :=
  let d : Int := (BitVec.ofNat 64 (s.reg64 Reg.TIM_STEP_LO)).toInt
  s.setTimFine (s.timFine + d * 2 ^ 32)

/-- A write of TIM_CMD (12 R395, R400): SET before STEP, one STEPPED event and one count for both. -/
def timCmdWrite (s : State) (v : Word) : State :=
  let old := s.netT
  let s := if fld v 0 0 = 1 then s.timSetValue else s
  let s := if fld v 1 1 = 1 then s.timAddStep else s
  let s := if fld v 1 0 ≠ 0 then
      ((s.voidTrim.setRb Reg.TIM_STAT 1 false).bump Reg.TIM_STEP_CNT).raise 114 ((s.netT + 2 ^ 64 - old) % 2 ^ 32)
    else s
  if fld v 2 2 = 1 then s.timFresh else s

/-- The load from the RTC (12 R400): SEC from the calendar and TIM_RTCOFS, NS the crossing latency, whose value up to 31 µs the spec leaves open; digits that are
not decimal leave network time free (12 R430). -/
def rtcLoad (s : State) : State :=
  if !s.tim.loadPend || !s.domOn 9 then s
  else
    let bad := (rtcFields (s.reg Reg.RTC_TIME) (s.reg Reg.RTC_CAL)).any fun v => !bcdOk v
    let f := s.free64
    let s := f.2
    let sec : Int := if bad then f.1.toNat / 2 ^ 16 else (calSeconds s.cal : Int) + (s.reg Reg.TIM_RTCOFS).toInt
    let s := { s with tim := ⟨(sec % 2 ^ 48).toNat, f.1.toNat % 31001, 0, false⟩ }
    (s.timUnlock 3).setRb Reg.TIM_STAT 1 true

/-- The transfer to the RTC at a network second boundary (12 R420). -/
def rtcXfer (s : State) : State :=
  if s.rtc.cmd = 3 then
    match calOfSeconds ((s.tim.sec : Int) - (s.reg Reg.TIM_RTCOFS).toInt) with
    | some k => (((s.setCal k).rtcZero.rtcAlarms).raise 115 (s.tim.sec % 2 ^ 32)).rtcDone 3
    | none => (s.raise 115 0).rtcDone 3
  else s

/-! ## Capture inputs (12 R411–R413) -/

def tciFifo (s : State) (n : Nat) : List Capt := Sparse.get (fun _ => []) s.tci n
/-- The FIFO of TCIn and the number of its entries in TCI_STAT. -/
def setTciFifo (s : State) (n : Nat) (l : List Capt) : State :=
  { s with tci := Sparse.set (fun _ => []) s.tci n l }.setRf Reg.TCI_STAT (4 * n + 6) (4 * n + 4) l.length

/-- A filtered edge on TCIn (12 R411–R413). One that EDGE selects, within 16 ns of the previous counted edge of its pin, leaves no trace (21 R621); the 16 ns are
counted in time elapsed, which no SET or STEP of network time moves. -/
def tciEdge (s : State) (n : Nat) (rising : Bool) : State :=
  if !s.domOn 9 || !s.rb (Reg.TCI_CFG n) (if rising then 0 else 1) || decide (s.now < Sparse.get (fun _ => 0) s.tciNext n) then s
  else
    let s := { s with tciNext := Sparse.set (fun _ => 0) s.tciNext n (s.now + 64) }
    let fifo := s.rb (Reg.TCI_CFG n) 2
    let l := s.tciFifo n
    let drop := fifo && decide (4 ≤ l.length)
    let s := if drop then (s.setRb Reg.TCI_STAT n true).bump (Reg.TCI_DROP n)
      else if fifo then s.setTciFifo n (l ++ [⟨s.tim.sec, s.tim.ns, rising⟩]) else s
    s.raise (116 + n) (s.tim.ns + 2 ^ 30 * bn rising + 2 ^ 31 * bn drop)

/-- The four words of TCIn_TS as a read latches them; the oldest entry leaves the FIFO (12 R412). -/
def tciPop (s : State) (n : Nat) : List Word × State :=
  match s.tciFifo n with
  | [] => ([0, 0, 0, 0], s)
  | e :: t =>
    ([BitVec.ofNat 32 (e.ns + 2 ^ 30 * bn e.rising + 2 ^ 31), BitVec.ofNat 32 e.sec, BitVec.ofNat 32 (e.sec / 2 ^ 32 % 65536), 0], s.setTciFifo n t)

/-! ## Pulse outputs (12 R414–R419) -/

def tpoOf (s : State) (n : Nat) : Tpo := Sparse.get (fun _ => {}) s.tpo n

/-- P and W as they count (12 R414). -/
def tpoP (t : Tpo) : Nat := if t.p = 0 then 2 ^ 32 else t.p
def tpoW (t : Tpo) : Nat := if 1 ≤ t.w ∧ t.w ≤ 3 then 4 else t.w

/-- The level before INV at network time `now` in ns (12 R415). -/
def tpoLevel (t : Tpo) (now : Nat) : Bool :=
  if !t.armed || decide (now < t.start) then false
  else
    let d := now - t.start
    let k := if t.c = 0 then d / tpoP t else min (d / tpoP t) (t.c - 1)
    decide (d < k * tpoP t + tpoW t)

/-- Network time in ns without the wrap of T. -/
def nowNs (s : State) : Nat := s.tim.sec * 1000000000 + s.tim.ns

/-- Output `n` takes a new active set; an edge at the ball is driven, a rising one counted and, with EVT_EACH, raised (12 R415, R417). -/
def tpoPut (s : State) (n : Nat) (t : Tpo) : State :=
  let s := { s with tpo := Sparse.set (fun _ => {}) s.tpo n t }.setRb (Reg.TPO_STAT n) 0 t.armed
  let ball := xor t.level t.inv
  if ball = s.rb (Reg.TPO_STAT n) 1 then s
  else
    let s := (s.setRb (Reg.TPO_STAT n) 1 ball).send (.tpo n ball)
    if ball then
      let s := s.setReg (Reg.TPO_PULSES n) (s.reg (Reg.TPO_PULSES n) + 1)
      if t.each then s.raise (120 + n) (256 * (s.rf (Reg.TPO_PULSES n) 23 0)) else s
    else s

/-- An arm of output `n` with START, C, INV and EVT_EACH given, P and W from the pending set (12 R414, R418). A START NS of 10^9 or above, and a pending set that two
agents have written since the last arm, leave the train free (12 R430), as does a reserved bit (`resv`). -/
def tpoArmWith (s : State) (n ns sec c : Nat) (inv each : Bool) (resv : Bool := false) : State :=
  let old := s.tpoOf n
  let bad := resv || decide (1000000000 ≤ ns) || decide (1 < old.writers.length)
  let f := if bad then s.free64 else (0, s)
  let s := f.2.setReg (Reg.TPO_PULSES n) 0
  let s := s.setRb (Reg.TPO_STAT n) 2 false
  let start := if bad then f.1.toNat else sec * 1000000000 + ns
  let t : Tpo := { armed := true, start := start, p := (s.reg (Reg.TPO_PERIOD n)).toNat, w := (s.reg (Reg.TPO_WIDTH n)).toNat, c := c, inv := inv, each := each }
  s.tpoPut n { t with level := tpoLevel t s.nowNs }

/-- A write of TPOn_CTRL (12 R414, R416). -/
def tpoCtrlWrite (s : State) (n : Nat) (v : Word) : State :=
  let s := s.setReg (Reg.TPO_CTRL n) (v &&& 7)
  if fld v 0 0 = 1 then
    s.tpoArmWith n (s.rf (Reg.TPO_START_NS n) 29 0) ((s.reg (Reg.TPO_START_SECLO n)).toNat + 2 ^ 32 * s.rf (Reg.TPO_START_SECHI n) 15 0)
      (s.reg (Reg.TPO_COUNT n)).toNat (fld v 1 1 == 1) (fld v 2 2 == 1)
  else
    let t := s.tpoOf n
    if t.armed && t.level then s.tpoPut n { t with ending := true }
    else s.tpoPut n { t with armed := false, inv := fld v 1 1 == 1 }

/-- An edge instant of output `n` (12 R415, R416): the level follows network time; an unarming that waits takes place at the end of the pulse. -/
def tpoEdge (s : State) (n : Nat) : State :=
  let t := s.tpoOf n
  if !t.armed || !s.rb (Reg.PAGE_CTRL 0x10) 0 || !s.domOn 9 then s
  else
    let l := tpoLevel t s.nowNs
    if t.ending && !l then s.tpoPut n { t with armed := false, ending := false, level := false, inv := s.rb (Reg.TPO_CTRL n) 1 }
    else s.tpoPut n { t with level := l }

/-- The end of a finite train (12 R416, R417). -/
def tpoDone (s : State) (n : Nat) : State :=
  let t := s.tpoOf n
  if t.armed && t.c != 0 && decide (t.start + (t.c - 1) * tpoP t + tpoW t ≤ s.nowNs) && s.rb (Reg.PAGE_CTRL 0x10) 0 && s.domOn 9 then
    let s := (s.tpoPut n { t with armed := false, level := false, ending := false }).setRb (Reg.TPO_STAT n) 2 true
    s.raise (120 + n) (1 + 256 * s.rf (Reg.TPO_PULSES n) 23 0)
  else s

/-- SOFT_RST of TPO unarms every output at once (12 R424). -/
def tpoReset (s : State) : State := { s with tpo := [] }

end State

open State

/-! ## The commands -/

/-- TIM_SET (12 R395). -/
def execTimSet (ag : Agent) (s : State) : Res State := .next (s.regWrite ag Reg.TIM_CMD (·.timCmdWrite 1))

/-- TIM_STEP (12 R395). -/
def execTimStep (ag : Agent) (s : State) : Res State := .next (s.regWrite ag Reg.TIM_CMD (·.timCmdWrite 2))

/-- LOADRTC (12 R400). -/
def execLoadrtc (ag : Agent) (s : State) : Res State := .next (s.regWrite ag Reg.TIM_CMD (·.timCmdWrite 4))

/-- RTC_LOAD (12 R400). -/
def execRtcLoad (s : State) : Res State := .next s.rtcLoad

/-- OFFSET_MEASUREMENT (12 R397). -/
def execOffsetMeasurement (ag : Agent) (v : Word) (s : State) : Res State := .next (s.regWrite ag Reg.TIM_OFSMEAS (·.ofsMeas v))

/-- HOLDOVER_EXPIRY (12 R398). -/
def execHoldoverExpiry (s : State) : Res State := .next (if s.domOn 9 then s.timUnlock 2 else s)

/-- RTC_XFER (12 R420). -/
def execRtcXfer (s : State) : Res State := .next s.rtcXfer

/-- TCI_EDGE (12 R411). -/
def execTciEdge (n : Fin 4) (rising : Bool) (s : State) : Res State := .next (s.tciEdge n rising)

/-- TCI_TS_READ (12 R412). -/
def execTciTsRead (ag : Agent) (n : Fin 4) (s : State) : Res State :=
  .next (s.guardedRd ag (Reg.TCI_TS n) fun s =>
    let r := s.tciPop n
    ((r.1.headD 0).setWidth 64, r.2.latchWords (agentNum ag) (Reg.TCI_TS n) r.1))

/-- TPO_ARM (12 R414): a write of TPOn_CTRL with ARM = 1. -/
def execTpoArm (ag : Agent) (n : Fin 8) (v : Word) (s : State) : Res State :=
  .next (s.regWrite ag (Reg.TPO_CTRL n) (·.tpoCtrlWrite n (v ||| 1)))

/-- TPO_UNARM (12 R416): a write of TPOn_CTRL with ARM = 0. -/
def execTpoUnarm (ag : Agent) (n : Fin 8) (v : Word) (s : State) : Res State :=
  .next (s.regWrite ag (Reg.TPO_CTRL n) (·.tpoCtrlWrite n (v &&& 0xFFFFFFFE)))

/-- TPO_EDGE (12 R417). -/
def execTpoEdge (n : Fin 8) (s : State) : Res State := .next (s.tpoEdge n)

/-- TPO_DONE (12 R416). -/
def execTpoDone (n : Fin 8) (s : State) : Res State := .next (s.tpoDone n)

end Sys2Proof.Machine
end

