-- ==== Sys2Proof/Machine/Eth.lean ====
section
/-! DEFINITION. The Ethernet ports: rings, timestamps, MDIO (12 R401–R410, R426–R429). -/

-- one declaration at a time: many at once take a thread and its stack each
set_option Elab.async false

namespace Sys2Proof.Machine

/-- A time with a fraction of 2^-16 ns (12 R404). -/
structure Stamp where
  sec : Nat
  ns : Nat
  frac : Nat
  deriving DecidableEq, Repr

/-- The bytes with those from offset `o` on replaced. -/
def putBytes (f : List Byte) (o : Nat) (bs : List Byte) : List Byte := f.take o ++ bs ++ f.drop (o + bs.length)

namespace State

/-- The capture of the time base now, moved by a signed latency of 2^-16 ns (12 R403, R404). -/
def stampAt (s : State) (lat : Int) : Stamp :=
  let x : Int := ((s.tim.sec * 1000000000 + s.tim.ns) * 65536 + s.tim.frac / 65536 : Nat) + lat
  let y := (x % (2 ^ 48 * 1000000000 * 65536)).toNat
  ⟨y / 65536 / 1000000000, y / 65536 % 1000000000, y % 65536⟩

/-! ## Transmit timestamps (12 R408–R410) -/

def txQueue (s : State) (n : Nat) : List TxTs := Sparse.get (fun _ => []) s.txts n
/-- The queue and its length in ETH_TSSTAT. -/
def setTxQueue (s : State) (n : Nat) (l : List TxTs) : State :=
  { s with txts := Sparse.set (fun _ => []) s.txts n l }.setRf (Reg.ETH_TSSTAT n) 3 0 l.length

/-- A capture for a frame with TS_REQ = 1. -/
def txCapture (s : State) (n : Nat) (tsid : Nat) (t : Stamp) : State :=
  let q := s.txQueue n
  if 8 ≤ q.length then
    (((s.setRb (Reg.ETH_TSSTAT n) 8 true).setReg (Reg.ETH_TXTS_DROP n) (s.reg (Reg.ETH_TXTS_DROP n) + 1))).raise (225 + 4 * n) tsid
  else
    let s := s.setTxQueue n (q ++ [⟨BitVec.ofNat 16 tsid, t.sec, t.ns, t.frac⟩])
    (s.setReg (Reg.ETH_TXTS_CNT n) (s.reg (Reg.ETH_TXTS_CNT n) + 1)).raise (224 + 4 * n) tsid

/-- The four words of ETH_TXTS as a read latches them; the oldest entry leaves the queue. -/
def txPop (s : State) (n : Nat) : List Word × State :=
  match s.txQueue n with
  | [] => ([0, 0, 0, 0], s)
  | e :: t =>
    ([BitVec.ofNat 32 (e.tsid.toNat + 2 ^ 31), BitVec.ofNat 32 e.ns, BitVec.ofNat 32 e.sec, BitVec.ofNat 32 (e.sec / 2 ^ 32 % 65536 + 65536 * e.frac)], s.setTxQueue n t)

/-! ## Areas of service RAM in use (12 R430) -/

/-- Two areas, each an offset and a length, share a byte. -/
def overlap (a b : Nat × Nat) : Bool := decide (max a.1 b.1 < min (a.1 + a.2) (b.1 + b.2))

/-- Some two areas of a list share a byte. -/
def anyOverlap : List (Nat × Nat) → Bool
  | [] => false
  | a :: t => t.any (overlap a) || anyOverlap t

/-- The entries of a ring from index `i` up to, but not including, `j`. -/
def ringSpan (len i j : Nat) : List Nat := (List.range len).filter fun k => if i ≤ j then decide (i ≤ k) && decide (k < j) else decide (i ≤ k) || decide (k < j)

/-- The areas that port `n` uses: its rings, the frames that wait to be sent, the buffers that are free to receive one. -/
def ethAreas (s : State) (n : Nat) : List (Nat × Nat) :=
  let tl := s.rf (Reg.ETH_TXR_LEN n) 8 0
  let rl := s.rf (Reg.ETH_RXR_LEN n) 8 0
  let tb := s.rf (Reg.ETH_TXR_BASE n) 19 4 * 16
  let rb := s.rf (Reg.ETH_RXR_BASE n) 19 5 * 32
  let area := fun (e : Nat) => let ent := s.sramRd e 6; (ofLE (sub ent 0 4) % 2 ^ 20, ofLE (sub ent 4 2) % 2 ^ 14)
  [(tb, 16 * tl), (rb, 32 * rl)]
    ++ (ringSpan tl (s.rf (Reg.ETH_TXR_CONS n) 7 0) (s.rf (Reg.ETH_TXR_PROD n) 7 0)).map (fun i => area (tb + 16 * i))
    ++ ((List.range rl).filter fun i => !(ringSpan rl (s.rf (Reg.ETH_RXR_CONS n) 7 0) (s.rf (Reg.ETH_RXR_PROD n) 7 0)).contains i).map (fun i => area (rb + 32 * i))

/-- An area of port `n` overlaps another one of its own or one of another port that is on: a host error, after which the port's frames and the bytes they reach are
free. -/
def ethClash (s : State) (n : Nat) : Bool :=
  let own := s.ethAreas n
  let oth := ((List.range 4).filter fun m => m != n && s.ethOn m).flatMap s.ethAreas
  anyOverlap own || own.any fun a => oth.any (overlap a)

/-- A reserved bit of a ring entry is 1 (12 R427): of a transmit entry's 16 bytes, or of what software writes of a receive entry. -/
def entryResv (e : List Byte) : Bool :=
  decide (2 ^ 20 ≤ ofLE (sub e 0 4)) || decide (2 ^ 14 ≤ ofLE (sub e 4 2)) || (e.length == 16 && (decide (2 ≤ byteAt e 6) || byteAt e 7 != 0 || ofLE (sub e 12 4) != 0))
    || (e.length == 32 && ((sub e 9 7).any (· != 0) || ofLE (sub e 28 4) != 0))

/-- The bytes as they are, or free where port `n` has overlapping areas or the ring entry `e` a reserved bit at 1 (12 R430). -/
def ethFrame (s : State) (n : Nat) (e f : List Byte) : List Byte × State := if s.ethClash n || entryResv e then s.freeBytes f else (f, s)

/-! ## Transmit (12 R406, R407, R427) -/

/-- One-step insertion (12 R407). A frame that is no PTP Sync, or whose PTPOFS does not fit, is a host error: the bytes inserted are free (12 R430). -/
def oneStep (s : State) (f : List Byte) (ofs : Nat) (udp : Bool) (t : Stamp) : List Byte × State :=
  if byteAt f ofs % 16 = 0 ∧ ofs + 44 ≤ f.length then
    let f := putBytes f (ofs + 34) (beBytes 6 t.sec ++ beBytes 4 t.ns)
    let f := putBytes f (ofs + 8) (beBytes 8 (ofBE (sub f (ofs + 8) 8) + t.frac))
    (if udp then putBytes f (ofs - 2) [0, 0] else f, s)
  else
    let v := s.free64
    ((putBytes (putBytes f (ofs + 34) (beBytes 10 v.1.toNat)) (ofs + 8) (beBytes 8 v.1.toNat)).take f.length, v.2)

/-- The next entry of the transmit ring is sent (12 R427). An index not below LEN is a host error: a free value says whether a frame goes (12 R430). -/
def ethTx (s : State) (n : Nat) : State :=
  let len := s.rf (Reg.ETH_TXR_LEN n) 8 0
  let cons := s.rf (Reg.ETH_TXR_CONS n) 7 0
  let prod := s.rf (Reg.ETH_TXR_PROD n) 7 0
  if !s.ethOn n || cons == prod then s
  else
    let c := if len ≤ prod then s.free else (1, s)
    let s := c.2
    if fld c.1 0 0 = 0 then s
    else
      let e := s.rf (Reg.ETH_TXR_BASE n) 19 4 * 16 + 16 * cons
      let ent := s.sramRd e 16
      let f := s.sramRd (ofLE (sub ent 0 4) % 2 ^ 20) (ofLE (sub ent 4 2) % 2 ^ 14)
      let g := s.ethFrame n ent (f ++ List.replicate (60 - f.length) 0)
      let f := g.1
      let s := g.2
      let w := ofLE (sub ent 8 4)
      let req := w / 2 ^ 16 % 2 == 1
      let one := w / 2 ^ 17 % 2 == 1
      let t := s.stampAt (s.reg (Reg.ETH_TXLAT n)).toInt
      let r := if one then s.oneStep f (w / 2 ^ 24) (w / 2 ^ 18 % 2 == 1) t else (f, s)
      let s := (r.2.send (.eth n r.1)).bump (Reg.TLM_ETH_TX n)
      let s := if req then s.txCapture n (w % 65536) t else s
      let s := s.sramWr (e + 6) [BitVec.ofNat 8 (byteAt ent 6 / 2 * 2 + 1)]
      s.setReg (Reg.ETH_TXR_CONS n) (BitVec.ofNat 32 (if len ≤ cons + 1 then 0 else cons + 1))

/-! ## Receive (12 R402, R406, R427) -/

/-- A received frame, destination address to FCS; `ok`: no FCS or symbol error (12 R427). A Vuvas port discards a frame that is neither Vuvas nor PTP, counted in
VUV_RX_OTHER (10 R319, 12 R402). -/
def ethRx (s : State) (n : Nat) (f : List Byte) (ok : Bool) : State :=
  if !s.ethOn n then s
  else if !ok || decide (s.rf (Reg.ETH_MAXLEN n) 13 0 < f.length) then s.bump (Reg.TLM_ETH_RXERR n)
  else
    if !s.portTakes n f then s
    else if s.vuvPort n && !s.isPtp n f && (s.vuvPart f).isNone then (s.bump (Reg.TLM_ETH_RX n)).bump Reg.VUV_RX_OTHER
    else
      let s := s.bump (Reg.TLM_ETH_RX n)
      let len := s.rf (Reg.ETH_RXR_LEN n) 8 0
      let prod := s.rf (Reg.ETH_RXR_PROD n) 7 0
      let cons := s.rf (Reg.ETH_RXR_CONS n) 7 0
      let next := if len ≤ prod + 1 then 0 else prod + 1
      let c := if len ≤ cons then s.free else (0, s)
      let s := c.2
      if next = cons ∨ fld c.1 0 0 = 1 then (s.bump (Reg.TLM_ETH_RXDROP n)).raise (227 + 4 * n) 0
      else
        let e := s.rf (Reg.ETH_RXR_BASE n) 19 5 * 32 + 32 * prod
        let ent := s.sramRd e 32
        if ofLE (sub ent 4 2) % 2 ^ 14 < f.length then s.bump (Reg.TLM_ETH_RXDROP n)
        else
          let t := s.stampAt (-(s.reg (Reg.ETH_RXLAT n)).toInt)
          let g := s.ethFrame n ent f
          let s := g.2.sramWr (ofLE (sub ent 0 4) % 2 ^ 20) g.1
          let fl := bn (ofBE (sub f 12 2) == 0x8100) + 2 * bn (s.isPtp n f) + 4 * (byteAt f 0 % 2)
          let s := (s.sramWr (e + 6) (leBytes 2 f.length ++ leBytes 1 fl)).sramWr (e + 16) (leBytes 4 t.ns ++ leBytes 6 t.sec ++ leBytes 2 t.frac)
          s.setReg (Reg.ETH_RXR_PROD n) (BitVec.ofNat 32 next)

/-! ## MDIO and the link (12 R426, R429) -/

/-- A write of ETH_MDIO (12 R426). -/
def mdioWrite (s : State) (n : Nat) (v : Word) : State :=
  if s.rb (Reg.ETH_MDIO n) 12 then s.wign (ethPage n)
  else
    let s := s.setReg (Reg.ETH_MDIO n) (v &&& 0xFFFF07FF)
    if fld v 11 11 = 1 then (s.setRb (Reg.ETH_MDIO n) 12 true).send (.mdio n (v &&& 0xFFFF07FF)) else s

end State

open State

/-! ## The commands -/

/-- ETH_ENABLE (12 R426). -/
def execEthEnable (ag : Agent) (n : Fin 4) (en : Bool) (s : State) : Res State :=
  .next (s.regWrite ag (Reg.PAGE_CTRL (ethPage n)) (·.enRequest (ethPage n) en))

/-- ETH_TRANSITION_DONE (12 R426). -/
def execEthTransitionDone (n : Fin 4) (s : State) : Res State := .next (s.enDone (ethPage n))

/-- MDIO_GO (12 R426). -/
def execMdioGo (ag : Agent) (n : Fin 4) (v : Word) (s : State) : Res State :=
  .next (s.regWrite ag (Reg.ETH_MDIO n) (·.mdioWrite n (v ||| 0x800)))

/-- MDIO_DONE (12 R426): DATA takes what a read returned. -/
def execMdioDone (n : Fin 4) (data : Half) (s : State) : Res State :=
  if s.rb (Reg.ETH_MDIO n) 12 then
    let s := s.setRb (Reg.ETH_MDIO n) 12 false
    .next (if s.rb (Reg.ETH_MDIO n) 10 then s else s.setRf (Reg.ETH_MDIO n) 31 16 data.toNat)
  else .next s

/-- ETH_TX_FRAME (12 R427). -/
def execEthTxFrame (n : Fin 4) (s : State) : Res State := .next (s.ethTx n)

/-- TXTS_READ (12 R410). -/
def execTxtsRead (ag : Agent) (n : Fin 4) (s : State) : Res State :=
  .next (s.guardedRd ag (Reg.ETH_TXTS n) fun s =>
    let r := s.txPop n
    ((r.1.headD 0).setWidth 64, r.2.latchWords (agentNum ag) (Reg.ETH_TXTS n) r.1))

/-- ETH_RX_FRAME (12 R427). -/
def execEthRxFrame (n : Fin 4) (f : List Byte) (ok : Bool) (s : State) : Res State := .next (s.ethRx n f ok)

/-- LINK_CHANGE (12 R429). -/
def execLinkChange (n : Fin 4) (up : Bool) (speed : BitVec 2) (s : State) : Res State :=
  .next ((((s.setRb (Reg.ETH_STAT n) 0 up).setRf (Reg.ETH_STAT n) 2 1 speed.toNat).setRb (Reg.ETH_STAT n) 3 (up && s.rb (Reg.ETH_MODE n) 6)).raise (226 + 4 * n) (bn up))

end Sys2Proof.Machine
end

