-- ==== Sys2Proof/Machine/Can.lean ====
section
/-! DEFINITION. The CAN FD controllers (13 R431–R452). -/

-- one declaration at a time: many at once take a thread and its stack each
set_option Elab.async false

namespace Sys2Proof.Machine

/-- Bytes of a data field (13 R436). -/
def canLen (fdf : Bool) (dlc : Nat) : Nat :=
  if !fdf then min dlc 8 else [0, 1, 2, 3, 4, 5, 6, 7, 8, 12, 16, 20, 24, 32, 48, 64].getD dlc 64

/-- A frame as its key of bus arbitration (13 R442): base identifier, extended, the lower identifier bits, remote. -/
def canKey (id : Nat) (ide rtr : Bool) : Nat :=
  ((id / 2 ^ 18 * 2 + bn ide) * 2 ^ 18 + (if ide then id % 2 ^ 18 else 0)) * 2 + bn rtr

namespace State

/-! ## Controllers -/

abbrev canPage (n : Nat) : Nat := 0x11 + n
def cn (s : State) (n : Nat) : Can := Sparse.get (fun _ => {}) s.can n
def setCn (s : State) (n : Nat) (c : Can) : State := { s with can := Sparse.set (fun _ => {}) s.can n c }

/-- The controller is on: after its transition to ON and until the one to OFF ends (13 R433). -/
def canOn (s : State) (n : Nat) : Bool :=
  s.domOn 11 && (s.rb (Reg.PAGE_STAT (canPage n)) 0 || (s.fn (fnPage (canPage n))).toward == some 0)
/-- OFF with no transition (13 R434). -/
def canOff (s : State) (n : Nat) : Bool := !s.rb (Reg.PAGE_STAT (canPage n)) 0 && !s.rb (Reg.PAGE_STAT (canPage n)) 1

def canTec (s : State) (n : Nat) : Nat := s.rf (Reg.CAN_ERRCNT n) 8 0
def canRec (s : State) (n : Nat) : Nat := s.rf (Reg.CAN_ERRCNT n) 23 16
def canWarn (s : State) (n : Nat) : Bool := decide (96 ≤ s.canTec n) || decide (96 ≤ s.canRec n)
def canPassive (s : State) (n : Nat) : Bool := decide (128 ≤ s.canTec n) || decide (128 ≤ s.canRec n)

/-- CANn_STAT.STATE (13 R450). -/
def canState (s : State) (n : Nat) : Nat :=
  if s.canOn n then (if (s.cn n).off then 4 else if s.canPassive n then 3 else 2)
  else if (s.fn (fnPage (canPage n))).toward = some 1 then 1 else 0

/-- A bit of an object bitmap whose first register is `k`. -/
def objBit (s : State) (k j : Nat) : Bool := s.rb (k + 4 * (j / 32)) (j % 32)
def setObjBit (s : State) (k j : Nat) (b : Bool) : State := s.setRb (k + 4 * (j / 32)) (j % 32) b

def isTxObj (s : State) (n j : Nat) : Bool := s.objBit (Reg.CAN_OBJCFG n 0) j
def isReady (s : State) (n j : Nat) : Bool := s.objBit (Reg.CAN_TXRDY n 0) j
def isFull (s : State) (n j : Nat) : Bool := s.objBit (Reg.CAN_RXFULL n 0) j
/-- Object `j` of CANn in its message memory (13 R434). -/
abbrev objKey (n j : Nat) : Nat := Key.can n + 80 * j

/-- CANn_STAT as a read shows it. RXING has no command that shows a frame's start: a free value where reception may run. -/
def canStatView (s : State) (n : Nat) : Word × State :=
  let st := s.canState n
  let c := s.cn n
  let r := if (st = 2 ∨ st = 3) ∧ c.sel.isNone then s.free else (0, s)
  (BitVec.ofNat 32 (st + 8 * bn (s.canWarn n) + 16 * bn c.sel.isSome + 32 * fld r.1 0 0 + 64 * bn (c.off && c.recov) + 256 * c.sel.getD (s.rf (Reg.CAN_STAT n) 14 8)
    + 65536 * s.rf (Reg.CAN_STAT n) 18 16), r.2)

/-- CANn_ERRCNT as a read shows it: occurrences counted during recovery are a free value below 128 (no command shows one). -/
def canErrView (s : State) (n : Nat) : Word × State :=
  let c := s.cn n
  if c.off && c.recov then (let f := s.free; (setFld (s.reg (Reg.CAN_ERRCNT n)) 31 24 (f.1.toNat % 128), f.2)) else (s.reg (Reg.CAN_ERRCNT n), s)

/-- CANn_RXNEXT (13 R440): the full object whose arrival lies furthest back. -/
def canRxNext (s : State) (n : Nat) : Word :=
  let age := fun j => (s.rf (Reg.CAN_RXSEQ n) 15 0 + 65536 - s.rdLE (objKey n j + 6) 2 - 1) % 65536
  match (List.range 128).foldl (fun (o : Option Nat) j =>
      if s.isFull n j then (match o with | some i => if age i < age j then some j else some i | none => some j) else o) none with
  | some j => BitVec.ofNat 32 (j + 2 ^ 31)
  | none => 0

/-- Message memory that software may not write now: a receive object, or a READY one (13 R440, R441). -/
def canObjHeld (s : State) (n o : Nat) : Bool := !s.isTxObj n (o / 80) || s.isReady n (o / 80)

/-! ## Error states (13 R445–R447) -/

/-- TEC and REC take new values; the changes of state raise their events; above 255 the controller enters bus-off. `obj`: the object in
transmission. -/
def canErr (s : State) (n tec rc obj : Nat) : State :=
  let warn := s.canWarn n
  let pass := s.canPassive n
  let s := (s.setRf (Reg.CAN_ERRCNT n) 8 0 (min tec 511)).setRf (Reg.CAN_ERRCNT n) 23 16 (min rc 255)
  let d := s.canTec n + 65536 * s.canRec n
  let e := 128 + 8 * n
  let s := if s.canWarn n && !warn then s.raise (e + 4) d else s
  let s := if s.canPassive n && !pass then s.raise (e + 5) d else s
  if 255 < tec ∧ !(s.cn n).off then
    let s := s.setRf (Reg.CAN_ERRCNT n) 31 24 0
    ((s.setCn n { s.cn n with off := true, recov := s.rb (Reg.CAN_CTRL n) 2 }).bump (Reg.CAN_BUSOFF_CNT n)).raise (e + 6) obj
  else s

/-! ## Host errors (13 R452) -/

/-- Bit timing outside the limits of the standard the table names, or MON with LBACK: every frame of the controller is unpredictable. -/
def canTimingErr (s : State) (n : Nat) : Bool :=
  let q := fun (k b t1 t2 : Nat) => (k, b, t1, t2)
  let nb := q (s.rf (Reg.CAN_NBT n) 30 24) (s.rf (Reg.CAN_NBT n) 7 0) (s.rf (Reg.CAN_NBT n) 15 8) (s.rf (Reg.CAN_NBT n) 22 16)
  let db := q (s.rf (Reg.CAN_DBT n) 27 24) (s.rf (Reg.CAN_DBT n) 4 0) (s.rf (Reg.CAN_DBT n) 12 8) (s.rf (Reg.CAN_DBT n) 19 16)
  let bad := fun (x : Nat × Nat × Nat × Nat) (min : Nat) => decide (x.2.2.2 < x.1) || x.2.2.2 == 0 || decide ((x.2.1 + 1) * (x.2.2.1 + x.2.2.2 + 3) < min)
  bad nb 80 || bad db 10 || (s.rb (Reg.CAN_CTRL n) 4 && s.rb (Reg.CAN_CTRL n) 5)

/-- A frame whose content is free: a host error governs it. -/
def canScramble (s : State) (f : CanFrame) : CanFrame × State :=
  let i := s.free
  let d := i.2.freeBytes f.data
  let b := d.2.free
  ({ f with id := i.1.setWidth 29, brs := fld b.1 0 0 == 1, fdf := fld b.1 1 1 == 1, data := d.1 }, b.2)

/-- The frame of transmit object `j` (13 R435, R436), and whether a host error governs it (13 R452). -/
def canObjFrame (s : State) (n j : Nat) : CanFrame × Bool :=
  let k := objKey n j
  let w := s.rdLE k 4
  let b4 := s.rdLE (k + 4) 1
  let fdf := b4 / 16 % 2 == 1
  let brs := fdf && b4 / 32 % 2 == 1
  let ide := w / 2 ^ 29 % 2 == 1
  let f : CanFrame :=
    { ide := ide, id := BitVec.ofNat 29 w, rtr := !fdf && w / 2 ^ 30 % 2 == 1, fdf := fdf, brs := brs, esi := fdf && s.canPassive n,
      dlc := BitVec.ofNat 4 b4, data := if !fdf && w / 2 ^ 30 % 2 == 1 then [] else s.rdBytes (k + 16) (canLen fdf (b4 % 16)) }
  let bad := (fdf && !s.rb (Reg.CAN_CTRL n) 0) || (brs && !s.rb (Reg.CAN_CTRL n) 1) || (!ide && w % 2 ^ 18 != 0) || decide (2 ^ 31 ≤ w)
    || decide (64 ≤ b4) || s.rdLE (k + 5) 1 != 0 || s.rdLE (k + 6) 2 != 0
  (f, bad || s.canTimingErr n)

/-! ## Reception (13 R437–R440) -/

/-- A frame is stored in the first receive object that is free, searching from the object after the one filled last, or discarded.
`t`: network time at its start of frame. -/
def canStore (s : State) (n : Nat) (f : CanFrame) (self : Bool) (t : Nat) : State :=
  let p := (s.cn n).next
  let e := 128 + 8 * n
  match ((List.range 128).map fun i => (p + i) % 128).find? fun j => !s.isTxObj n j && !s.isFull n j with
  | none => (s.bump (Reg.CAN_RXDROP n)).raise (e + 1) (f.id.toNat + 2 ^ 29 * bn f.ide)
  | some j =>
    let q := s.rf (Reg.CAN_RXSEQ n) 15 0
    let rtr := f.rtr && !f.fdf
    let data := if rtr then [] else f.data.take (canLen f.fdf f.dlc.toNat)
    let s := s.wrBytes (objKey n j)
      (leBytes 4 (f.id.toNat + 2 ^ 29 * bn f.ide + 2 ^ 30 * bn rtr) ++ leBytes 1 (f.dlc.toNat + 16 * bn f.fdf + 32 * bn f.brs + 64 * bn f.esi)
        ++ leBytes 1 (bn self) ++ leBytes 2 q ++ leBytes 8 t ++ data ++ List.replicate (64 - data.length) 0)
    let s := (s.setObjBit (Reg.CAN_RXFULL n 0) j true).setRf (Reg.CAN_RXSEQ n) 15 0 (q + 1)
    let s := s.setCn n { s.cn n with next := (j + 1) % 128 }
    (s.bump (Reg.CAN_RXCNT n)).raise e (j + 65536 * q)

/-- The identifier of a base frame stands in [28:18], with zeros below (13 R435). -/
def canNorm (f : CanFrame) : CanFrame := if f.ide then f else { f with id := f.id &&& 0x1FFC0000 }

/-- A frame received without error while the controller takes part in the bus (13 R437, R438, R446). The content of one received under a host error is free
(13 R452); under LBACK the spec does not say whether a frame of another node is received, so a free value does. An FD frame is valid only with FDOE (13 R450). -/
def canRx (s : State) (n : Nat) (f : CanFrame) (age : Nat) : State :=
  if !s.canOn n || (s.cn n).off || (f.fdf && !s.rb (Reg.CAN_CTRL n) 0) then s
  else
    let g := if s.rb (Reg.CAN_CTRL n) 5 then s.free else (1, s)
    let s := g.2
    if fld g.1 0 0 = 0 then s
    else
      let r := s.canRec n
      let v := if 127 < r then s.free else (0, s)
      let s := v.2.canErr n (v.2.canTec n) (if 127 < r then 119 + v.1.toNat % 9 else r - 1) 0
      let x := if s.canTimingErr n then s.canScramble (canNorm f) else (canNorm f, s)
      x.2.canStore n x.1 false ((x.2.netT + 2 ^ 64 - age % 2 ^ 64) % 2 ^ 64)

/-! ## Transmission (13 R441–R444) -/

/-- Bits written 1 to CANn_TXRDYm make transmit objects READY (13 R441). -/
def canTxrdy (s : State) (n m : Nat) (v : Word) : State :=
  let rx := v &&& ~~~ s.reg (Reg.CAN_OBJCFG n m)
  let s := s.setReg (Reg.CAN_TXRDY n m) (s.reg (Reg.CAN_TXRDY n m) ||| (v &&& s.reg (Reg.CAN_OBJCFG n m)))
  if rx = 0 then s else s.wign (canPage n)

/-- READY of object `j` clears and TX_CANCELLED is raised (13 R444). -/
def canCancelled (s : State) (n j : Nat) : State :=
  ((s.setObjBit (Reg.CAN_TXRDY n 0) j false).setObjBit (Reg.CAN_TXCAN n 0) j false).raise (131 + 8 * n) j

/-- Bits written 1 to CANn_TXCANm (13 R444). -/
def canTxcan (s : State) (n m : Nat) (v : Word) : State :=
  (List.range 32).foldl (fun t i =>
    let j := 32 * m + i
    if fld v i i = 1 ∧ t.isReady n j then
      (if (t.cn n).sel = some j then t.setObjBit (Reg.CAN_TXCAN n 0) j true else t.canCancelled n j)
    else t) s

/-- The READY object that would win the bus (13 R442). -/
def canWinner (s : State) (n : Nat) : Option Nat :=
  let key := fun j => let f := (s.canObjFrame n j).1; canKey f.id.toNat f.ide f.rtr
  (List.range 128).foldl (fun (o : Option Nat) j =>
    if s.isReady n j then (match o with | some i => if key j < key i then some j else some i | none => some j) else o) none

/-- The next frame is selected (13 R443); under MON READY objects wait (13 R431). -/
def canSelect (s : State) (n : Nat) : State :=
  let c := s.cn n
  if !s.canOn n || c.off || c.sel.isSome || s.rb (Reg.CAN_CTRL n) 4 && !s.rb (Reg.CAN_CTRL n) 5 then s
  else match s.canWinner n with
  | none => s
  | some j => s.setCn n { c with sel := some j }

/-- An object not sent stays READY, unless a cancel waits (13 R444). -/
def canUnsent (s : State) (n j : Nat) : State :=
  if s.objBit (Reg.CAN_TXCAN n 0) j then s.canCancelled n j else s

/-- The selected frame ends (13 R444). `age`: ns since the sample point of its start-of-frame bit. Under a host error the frame on the bus is free (13 R452).
TEC falls by 1 after a success and rises by 8 after an error (ISO 11898-1). -/
def canTxEnd (s : State) (n : Nat) (r : CanEnd) (age : Nat) : State :=
  match (s.cn n).sel with
  | none => s
  | some j =>
    let s := (s.setCn n { s.cn n with sel := none }).setRf (Reg.CAN_STAT n) 14 8 j
    match r with
    | .sent =>
      let o := s.canObjFrame n j
      let x := if o.2 then s.canScramble o.1 else (o.1, s)
      let s := x.2
      let t := (s.netT + 2 ^ 64 - age % 2 ^ 64) % 2 ^ 64
      let s := s.wrLE (objKey n j + 8) 8 t
      let s := ((s.setObjBit (Reg.CAN_TXRDY n 0) j false).setObjBit (Reg.CAN_TXCAN n 0) j false).setObjBit (Reg.CAN_TXDONE n 0) j true
      let s := (s.bump (Reg.CAN_TXCNT n)).raise (130 + 8 * n) j
      let s := s.canErr n (s.canTec n - 1) (s.canRec n) j
      let s := if s.rb (Reg.CAN_CTRL n) 5 then s else s.send (.can n x.1)
      if s.rb (Reg.CAN_CTRL n) 3 || s.rb (Reg.CAN_CTRL n) 5 then s.canStore n x.1 true t else s
    | .arbLost => (s.bump (Reg.CAN_ARBLOST n)).canUnsent n j
    | .error lec exempt =>
      let s := (s.setRf (Reg.CAN_STAT n) 18 16 lec.toNat).bump (Reg.CAN_ERRFRM n)
      (s.canErr n (s.canTec n + if exempt then 0 else 8) (s.canRec n) j).canUnsent n j

/-- An error while receiving (13 R445, ISO 11898-1): REC rises by 8 where `big`, else by 1, to 255 at most. -/
def canRxErr (s : State) (n : Nat) (lec : Nat) (big : Bool) : State :=
  if !s.canOn n || (s.cn n).off then s
  else
    let s := (s.setRf (Reg.CAN_STAT n) 18 16 lec).bump (Reg.CAN_ERRFRM n)
    s.canErr n (s.canTec n) (s.canRec n + if big then 8 else 1) 0

/-- CANn_CMD.RECOVER (13 R447). -/
def canRecover (s : State) (n : Nat) : State :=
  let c := s.cn n
  if c.off && !c.recov then s.setCn n { c with recov := true } else s.wign (canPage n)

/-- A write of CANn_CMD; a reserved bit written 1 makes the status it governs unpredictable: a free value says whether RECOVER acts (13 R452). -/
def canCmdWrite (s : State) (n : Nat) (v : Word) : State :=
  let f := if fld v 31 1 = 0 then (v, s) else s.free
  if fld f.1 0 0 = 1 then f.2.canRecover n else f.2

/-- The end of a soft reset (13 R447): READY, RXFULL and TXDONE bits, waiting cancels and the status area clear; TEC, RECOV and bus-off stay during
bus-off. -/
def canSoft (s : State) (n : Nat) (err : Word) : State :=
  let c := s.cn n
  let s := (List.range 4).foldl (fun t m => (t.setReg (Reg.CAN_TXRDY n m) 0).setReg (Reg.CAN_TXCAN n m) 0) s
  let s := if c.off then s.setReg (Reg.CAN_ERRCNT n) (setFld err 23 16 0) else s
  s.setCn n { off := c.off, recov := c.recov }

end State

open State

/-! ## The commands -/

/-- CAN_ENABLE (13 R433). -/
def execCanEnable (ag : Agent) (n : Fin 4) (en : Bool) (s : State) : Res State :=
  .next (s.regWrite ag (Reg.PAGE_CTRL (canPage n)) (·.enRequest (canPage n) en))

/-- CAN_TRANSITION_DONE (13 R433): towards OFF it waits for the end of the frame in progress. -/
def execCanTransitionDone (n : Fin 4) (s : State) : Res State :=
  .next (if (s.cn n).sel.isSome then s else s.enDone (canPage n))

/-- CAN_RX_FRAME (13 R438). -/
def execCanRxFrame (n : Fin 4) (f : CanFrame) (age : Word) (s : State) : Res State := .next (s.canRx n f age.toNat)

/-- RXFULL_ACK (13 R440). -/
def execRxfullAck (ag : Agent) (n m : Fin 4) (v : Word) (s : State) : Res State :=
  .next (s.regWrite ag (Reg.CAN_RXFULL n m) fun s => s.setReg (Reg.CAN_RXFULL n m) (s.reg (Reg.CAN_RXFULL n m) &&& ~~~ v))

/-- TXRDY (13 R441). -/
def execTxrdy (ag : Agent) (n m : Fin 4) (v : Word) (s : State) : Res State := .next (s.regWrite ag (Reg.CAN_TXRDY n m) (·.canTxrdy n m v))

/-- TXCAN (13 R444). -/
def execTxcan (ag : Agent) (n m : Fin 4) (v : Word) (s : State) : Res State := .next (s.regWrite ag (Reg.CAN_TXCAN n m) (·.canTxcan n m v))

/-- CAN_TX_SELECT (13 R443). -/
def execCanTxSelect (n : Fin 4) (s : State) : Res State := .next (s.canSelect n)

/-- CAN_TX_END (13 R444). -/
def execCanTxEnd (n : Fin 4) (r : CanEnd) (age : Word) (s : State) : Res State := .next (s.canTxEnd n r age.toNat)

/-- CAN_RECOVER (13 R447). -/
def execCanRecover (ag : Agent) (n : Fin 4) (s : State) : Res State := .next (s.regWrite ag (Reg.CAN_CMD n) (·.canRecover n))

/-- CAN_RECOVERED (13 R447): the 128th occurrence of 11 recessive bits. -/
def execCanRecovered (n : Fin 4) (s : State) : Res State :=
  let c := s.cn n
  if c.off && c.recov && s.canOn n then
    .next (((s.setReg (Reg.CAN_ERRCNT n) 0).setCn n { c with off := false, recov := false }).raiseFree (135 + 8 * n))
  else .next s

/-- CAN_RX_ERROR (13 R445). -/
def execCanRxError (n : Fin 4) (lec : BitVec 3) (big : Bool) (s : State) : Res State := .next (s.canRxErr n lec.toNat big)

end Sys2Proof.Machine
end

