-- ==== Sys2Proof/Machine/Reset.lean ====
section
/-! DEFINITION. Resets: causes, what survives (03 R95–R102), the loss and return of the main supplies (03 rows 1, 2; 21 R607). -/

-- one declaration at a time: many at once take a thread and its stack each
set_option Elab.async false

namespace Sys2Proof.Machine

namespace State

/-- A register that survives a reset (03 R101): in PD0, a fuse, PD14's state, which VFLD feeds; on a warm reset the straps and the PLL locks. -/
def keptReg (cold : Bool) (k : Nat) : Bool :=
  let a := k % 2 ^ 32
  let p := (a - 0x01000000) / 0x1000
  (match target p (a % 0x1000) with | some t => t.row.kept | none => false) || (p == 0x23 && decide (0x900 ≤ a % 0x1000)) || a == Reg.PWR_STAT 14
    || (!cold && (a == Reg.SYS_STRAPS || a == Reg.CLK_LOCK))

/-- A byte of memory that survives a reset (03 R101): Keep and the flash; on a warm reset Pantry and the timer cells. -/
def keptMem (cold : Bool) (k : Nat) : Bool :=
  decide (Key.flash ≤ k) || (decide (Key.keep ≤ k) && decide (k < Key.keep + 0x200000)) ||
    (!cold && ((decide (Key.pantry ≤ k) && decide (k < Key.pantry + 0x400000)) || (decide (Key.cells ≤ k) && decide (k < Key.cells + 0x8000))))

/-- The staging buffers after a reset (00 R12): of a register that survives, its value; of every other one its reset value, which is what an unlisted one holds. -/
def keptStage (l : List (Nat × Word)) : List (Nat × Word) :=
  l.foldl (fun m e =>
    match target ((e.1 - 0x01000000) / 0x1000) (e.1 % 0x1000) with
    | some t => (List.range 7).foldl (fun m n => Sparse.set stageReset m (n * 2 ^ 32 + e.1) (e.2 &&& BitVec.ofNat 32 t.row.rw)) m
    | none => m) []

/-- The state that a reset leaves before the ROM starts (03 R101). On a warm one uncorrectable words stay marked for the scan of boot step 3 (R631). A transition of PD14, which VFLD feeds, goes on;
the requests held for it give way to the ON of R630 (log 21). -/
def afterReset (s : State) (cold : Bool) : State :=
  let f := s.fn 14
  let t : State :=
  { pending := s.pending
    rdata := s.rdata
    freeCtr := s.freeCtr
    now := s.now
    wire := s.wire
    rtc := s.rtc
    regs := s.regs.filter fun e => keptReg cold e.1
    stage := keptStage (s.regs.filter fun e => keptReg cold e.1)
    mem := s.mem.filter fun e => keptMem cold e.1
    ecc := s.ecc.filter fun e => keptMem cold e.1 || (!cold && e.2 == 2)
    pwr := { s.pwr with coreRun := true }
    sys := { inReset := true }
    img := if cold then {} else { poison := s.img.poison, all := s.img.all, nd := s.img.nd, ndPrev := s.img.ndPrev }
    tmc := if cold then {} else { base := s.tmc.base }
    rind := { s.rind with sent := none, refDone := false, good := 0, lost := false, flt := false, errSeen := false, chOn := 0, direct := false, safeDue := false }
    keep := keepReset s.keep
    wdt := { pulse := s.wdt.pulse } }
  (t.setFn 14 { f with held := [] }).syncHeld 14

/-- A reset source asserts (03 R95, R99, R100): `bit` is its bit of SYS_RESETCAUSE. A second source before the ROM starts adds its bit, and restarts a warm sequence
as cold where it is cold. Row 2 of 03 R91 is a mode change like another: MODE_CHANGE is raised where the mode was another one, but after BACKUP, whose code appears in
FROM_BACKUP alone (R82, R90). -/
def beginReset (s : State) (cold : Bool) (bit : Nat) : State :=
  if s.sys.inReset then
    let was := s.rb Reg.SYS_RESETCAUSE 7
    let s := s.setRb Reg.SYS_RESETCAUSE bit true
    if cold && !was then (s.afterReset true).setRb Reg.SYS_RESETCAUSE 7 true else s
  else
    let old := s.reg Reg.SYS_RESETCAUSE
    let gen := s.reg Reg.SYS_GEN
    let m := s.mode
    let s := s.afterReset cold
    let s := if m = Mode.backup ∨ m = Mode.boot then s else s.raise 0 (m + 256 * Mode.boot + 65536 * 2)
    (s.setReg Reg.SYS_RESETCAUSE (BitVec.ofNat 32 (2 ^ bit + 128 * bn cold + 256 * fld old 4 0 + 32768 * fld old 7 7))).setReg Reg.SYS_GEN (gen + 1)

/-- SYS_RESET (03 R95, R98); a reserved bit written 1 leaves open whether a reset occurs and of which kind (03 R125). -/
def sysReset (s : State) (v : Word) : State :=
  if fld v 31 9 ≠ 0 then
    let f := s.free
    if fld f.1 0 0 = 1 then f.2.beginReset (fld f.1 1 1 == 1) 3 else f.2
  else if fld v 7 0 = 0xD7 then s.beginReset (fld v 8 8 == 1) 3
  else s.wign 0

end State

open State

/-! ## The commands -/

/-- MAIN_SUPPLY_FAIL (21 R607, 03 row 1): with VBAT the device is in BACKUP and only PD0 stays powered; without it everything is off, PD0 included. The Rind, fed
from VFLD, goes on by itself (01 R20). What the other domains hold is lost. -/
def execMainSupplyFail (vbat : Bool) (s : State) : Res State :=
  let s := (List.range 13).foldl (fun t i => t.domForce (i + 1) 0) s
  let s := { s with
    pwr := { s.pwr with mainOk := false, vbat := vbat, coreRun := false, onVbat := vbat }
    sys := { s.sys with trans := [] } }
  let s := s.setReg Reg.SYS_MODE 0
  .next (if vbat then s.setRb Reg.RTC_STAT 4 true else s)

/-- POWER_ON (03 R95): all supplies become valid again. With PD0 kept on VBAT it follows a stay in BACKUP, else PD0 returns with its reset values (03 R101). While the
supplies are valid it cannot happen. -/
def execPowerOn (vbatKept : Bool) (s : State) : Res State :=
  if s.pwr.mainOk then .next s
  else
    let kept := vbatKept && s.pwr.vbat
    let s := { s with pwr := { s.pwr with mainOk := true, onVbat := false }, sys := { s.sys with inReset := false } }
    if kept then .next ((s.beginReset true 0).setRb Reg.SYS_RESETCAUSE 17 true)
    else
      let s := s.afterReset true
      .next ({ s with regs := pd0Fresh s.regs, rtc := {} }.rtcZero)

/-- RST_N_LOW (03 R96): a low level of `ns` nanoseconds at the pin; between 480 ns and 1 µs a free value says whether it counts. -/
def execRstNLow (ns : Nat) (s : State) : Res State :=
  if !s.pwr.mainOk ∨ ns < 480 then .next s
  else if 1000 ≤ ns then .next (s.beginReset true 1)
  else
    let f := s.free
    .next (if fld f.1 0 0 = 1 then f.2.beginReset true 1 else f.2)

/-- SYS_RESET (03 R95, R98). -/
def execSysReset (ag : Agent) (v : Word) (s : State) : Res State := .next (s.regWrite ag Reg.SYS_RESET (·.sysReset v))

/-- CMD_RESET (03 R97, 11 R380): a reset commanded by the partner, honoured in the two standby modes, else RESET_IGNORED. -/
def execCmdReset (r : List Byte) (s : State) : Res State :=
  .next (s.cmdRx r 3 fun _ _ s => if s.modeIn [Mode.syncing, Mode.tracking] then s.beginReset false 4 else s.raise 108 s.mode)

end Sys2Proof.Machine
end

