-- ==== Sys2Proof/Machine/Wdt.lean ====
section
/-! DEFINITION. The watchdog (15 R479–R495). -/

-- one declaration at a time: many at once take a thread and its stack each
set_option Elab.async false

namespace Sys2Proof.Machine

namespace State

/-- WDT_STAT.RUN. -/
def wdtRun (s : State) : Bool := s.rb Reg.WDT_STAT 0
/-- The watchdog counts: it runs, the core clock runs, and the debug port does not hold the Steward (15 R479, R489). -/
def wdtCounts (s : State) : Bool := s.wdtRun && s.pwr.coreRun && !(s.core 72).dbgHalt
/-- Registered tasks that have not checked in (15 R486). -/
def wdtMissing (s : State) : Word := s.reg Reg.WDT_TASKS_ACT &&& ~~~ s.reg Reg.WDT_CHECKIN
/-- P as the period is taken (15 R483). -/
def wdtClamp (v : Nat) : Nat := min 10000000 (max 10 v)
/-- Network time as the evidence takes it: 0 while PD9 is not ON (15 R492). -/
def wdtT (s : State) : Nat := if s.domOn 9 then s.netT else 0

/-- The staged values take effect (15 R482). -/
def wdtTake (s : State) : State :=
  (((s.setReg Reg.WDT_PERIOD_ACT (BitVec.ofNat 32 (wdtClamp (s.rf Reg.WDT_PERIOD 23 0)))).setReg Reg.WDT_TASKS_ACT (s.reg Reg.WDT_TASKS)).setReg
    Reg.WDT_WARN_ACT (s.reg Reg.WDT_WARN)).setRb Reg.WDT_STAT 2 false

/-- An accepted service (15 R480, R482, R483, R485, R486): a new period, check-ins cleared, staged values taken. -/
def wdtAccept (s : State) : State :=
  let s := (if s.rb Reg.WDT_STAT 2 then s.wdtTake else s).bump Reg.WDT_SVC_CNT
  { s.setReg Reg.WDT_CHECKIN 0 with wdt := { s.wdt with elapsed := 0, window := s.rf Reg.FUS_WDT 1 0 == 0, warned := false, tsvc := s.wdtT } }

/-- Expiry (15 R490, R492): WDPULSE, the evidence, a warm reset. Causes: 1 TIMEOUT, 2 EARLY, 3 BADKEY. -/
def wdtExpire (s : State) (cause : Nat) : State :=
  let pc := fun c => (s.cx c).pc % 32768
  let s := if s.wdt.pulse then s else { s.send (.wdpulse true) with wdt := { s.wdt with pulse := true } }
  let s := s.setReg Reg.WDT_EVID_INFO (BitVec.ofNat 32 (cause + 256 * s.wdtMissing.toNat + 2 ^ 31))
  let s := ((s.setReg Reg.WDT_EVID_PCSTW (BitVec.ofNat 32 (pc 72))).setReg Reg.WDT_EVID_PCS01 (BitVec.ofNat 32 (pc 68 + 65536 * pc 69))).setReg
    Reg.WDT_EVID_PCS23 (BitVec.ofNat 32 (pc 70 + 65536 * pc 71))
  let s := (s.setReg64 Reg.WDT_EVID_TSVC_LO (if s.domOn 9 then s.wdt.tsvc else 0)).setReg64 Reg.WDT_EVID_TEXP_LO s.wdtT
  (s.setReg Reg.WDT_EXP_CNT (s.reg Reg.WDT_EXP_CNT + 1)).beginReset false 2

/-- A commit to WDT_PERIOD (15 R480, R482). A reserved bit written 1 leaves the period open (15 R495). -/
def wdtPeriodWrite (s : State) (v : Word) : State :=
  let f := if fld v 31 24 = 0 then (v, s) else s.free
  let s := f.2.setReg Reg.WDT_PERIOD (f.1 &&& 0xFFFFFF)
  if s.wdtRun then s.setRb Reg.WDT_STAT 2 true
  else
    let s := ((s.setRb Reg.WDT_STAT 0 true).wdtTake).wdtAccept
    s.raise 168 (s.reg Reg.WDT_PERIOD_ACT).toNat

/-- A commit to WDT_TASKS or WDT_WARN (15 R482). -/
def wdtConfigWrite (s : State) (warn : Bool) (v : Word) : State :=
  let m : Word := if warn then 0xFFFFFF else 0xFFFF
  let f := if v &&& ~~~m = 0 then (v, s) else s.free
  let s := f.2.setReg (if warn then Reg.WDT_WARN else Reg.WDT_TASKS) (f.1 &&& m)
  if s.wdtRun then s.setRb Reg.WDT_STAT 2 true else s

/-- A commit to WDT_SVC (15 R484, R485, R487). -/
def wdtService (s : State) (v : Nat) : State :=
  if !s.wdtRun then s.wign 0x16
  else if v ≠ 0xA35C then s.wdtExpire 3
  else if !s.wdt.window then s.wdtExpire 2
  else
    let m := s.wdtMissing
    if m = 0 then s.wdtAccept
    else ((s.bump Reg.WDT_INCOMPLETE).setReg Reg.WDT_MISSING m).raise 170 m.toNat

/-- A write of WDT_CHECKIN (15 R486); a reserved bit written 1 leaves the check-ins open (15 R495). -/
def wdtCheckin (s : State) (v : Word) : State :=
  let f := if fld v 31 16 = 0 then (v, s) else s.free
  let v := f.1 &&& 0xFFFF
  let s := f.2
  let dbl := v &&& s.reg Reg.WDT_CHECKIN
  let s := s.setReg Reg.WDT_CHECKIN (s.reg Reg.WDT_CHECKIN ||| v)
  if dbl = 0 then s
  else (s.count Reg.WDT_DOUBLE ((List.range 16).filter fun i => getB dbl i).length).raise 171 dbl.toNat

/-- WARN (15 R488): once a period. -/
def wdtWarn (s : State) : State :=
  let w := s.rf Reg.WDT_WARN_ACT 23 0
  let p := s.rf Reg.WDT_PERIOD_ACT 23 0
  if s.wdtCounts && w != 0 && !s.wdt.warned then
    { s with wdt := { s.wdt with warned := true } }.raise 169 (if p ≤ w then p - 1 else w)
  else s

/-- Time passes in the period (15 R479, R489). -/
def wdtTick (s : State) (q : Nat) : State :=
  if s.wdtCounts then { s with wdt := { s.wdt with elapsed := s.wdt.elapsed + q } } else s

/-- WDT_STAT and WDT_REMAIN as read (15 R493). -/
def wdtStatView (s : State) : Word :=
  BitVec.ofNat 32 (s.rf Reg.WDT_STAT 0 0 + 2 * bn s.wdt.window + 4 * s.rf Reg.WDT_STAT 2 2 + 8 * bn (s.core 72).dbgHalt + 16 * s.rf Reg.FUS_WDT 1 0)
def wdtRemain (s : State) : Word :=
  if s.wdtRun then BitVec.ofNat 32 ((s.rf Reg.WDT_PERIOD_ACT 23 0 * 4000 - s.wdt.elapsed) / 4000) else 0

end State

open State

/-! ## The commands -/

/-- WDT_PERIOD_COMMIT (15 R480). -/
def execWdtPeriodCommit (ag : Agent) (v : Word) (s : State) : Res State := .next (s.regWrite ag Reg.WDT_PERIOD (·.wdtPeriodWrite v))

/-- WDT_CONFIG_COMMIT (15 R482). -/
def execWdtConfigCommit (ag : Agent) (warn : Bool) (v : Word) (s : State) : Res State :=
  .next (s.regWrite ag (if warn then Reg.WDT_WARN else Reg.WDT_TASKS) (·.wdtConfigWrite warn v))

/-- WDT_SERVICE (15 R485). -/
def execWdtService (ag : Agent) (v : Word) (s : State) : Res State := .next (s.regWrite ag Reg.WDT_SVC (·.wdtService (fld v 15 0)))

/-- WDT_CHECKIN (15 R486). -/
def execWdtCheckin (ag : Agent) (v : Word) (s : State) : Res State := .next (s.regWrite ag Reg.WDT_CHECKIN (·.wdtCheckin v))

/-- WDT_WINDOW_OPEN (15 R483). -/
def execWdtWindowOpen (s : State) : Res State := .next (if s.wdtCounts then { s with wdt := { s.wdt with window := true } } else s)

/-- WARN (15 R488). -/
def execWarn (s : State) : Res State := .next s.wdtWarn

/-- WDT_EXPIRY (15 R490): the end of the period, cause TIMEOUT. -/
def execWdtExpiry (s : State) : Res State := .next (if s.wdtCounts then s.wdtExpire 1 else s)

/-- WDPULSE_END (15 R491). -/
def execWdpulseEnd (s : State) : Res State :=
  .next (if s.wdt.pulse then { s.send (.wdpulse false) with wdt := { s.wdt with pulse := false } } else s)

end Sys2Proof.Machine
end

