-- ==== Sys2Proof/Machine/HostIf.lean ====
section
/-! DEFINITION. The PCI Express endpoint: link, resets, MSI-X messages, mailbox doorbells (02 R70, 18 R546–R549, R571, R572). -/

-- one declaration at a time: many at once take a thread and its stack each
set_option Elab.async false

namespace Sys2Proof.Machine

namespace State

/-- Bus mastering enabled (HST_LINK.BME). -/
def busMaster (s : State) : Bool := s.rb Reg.HST_LINK 5
/-- The vector-control byte of vector `v`; it is held inverted, so that the table comes out of reset masked, as the PCIe MSI-X rules have it (PRESUMED). -/
def msixMasked (s : State) (v : Nat) : Bool := (s.rd (Key.msix + 16 * v + 12)).toNat % 2 == 0
/-- A vector whose table entry holds no address: a host error for a route that names it (02 R81). -/
def msixBlank (s : State) (v : Nat) : Bool := s.rdLE (Key.msix + 16 * v) 8 == 0

/-- The message that waits on vector `v` leaves when the vector is unmasked and bus mastering enabled (02 R70). -/
def msixSend (s : State) (v : Nat) : State :=
  if getB s.evt.msix v && s.busMaster && s.rb Reg.HST_LINK 4 && !s.msixMasked v then
    let s := { s with evt := { s.evt with msix := putB s.evt.msix v false } }
    if s.msixBlank v then (let f := s.free; if fld f.1 0 0 = 1 then f.2.send (.msix v) else f.2) else s.send (.msix v)
  else s

/-- The pending-bit array (18 R548): vectors whose message cannot leave. -/
def msixPba (s : State) : Word :=
  (List.range 32).foldl (fun (w : Word) v => putB w v (getB s.evt.msix v && (s.msixMasked v || !s.busMaster))) 0

/-- What an FLR or PERST_N resets (18 R547). -/
def pcieReset (s : State) : State :=
  let s := ((s.clearMem Key.msix (Key.msix + 0x200)).setReg Reg.HST_MBX_H2D 0).setReg Reg.HST_MBX_D2H 0
  { (s.setReg Reg.HST_BAR0WIN 2).setRb Reg.HST_LINK 5 false with evt := { s.evt with msix := 0 } }

/-- Doorbell bits written 1 by the agent that sets them (18 R549): those that stand already are ignored with WIGN, each other one is set and its event raised. -/
def mbxSet (s : State) (k e : Nat) (v : Half) : State :=
  (List.range 16).foldl (fun t m =>
    if v.getLsbD m then (if t.rb k m then t.wign 0x19 else (t.setRb k m true).raise e m) else t) s

/-- Doorbell bits written 1 by the agent that clears them (18 R549). -/
def mbxClear (s : State) (k : Nat) (v : Half) : State := s.setReg k (s.reg k &&& ~~~ (v.setWidth 32))

/-- A write of a doorbell register by an agent: `host` sets H2D and clears D2H, the firmware the reverse; a reserved bit written 1 leaves it open (18 R577). -/
def mbxWrite (s : State) (ag : Agent) (h2d : Bool) (v : Word) : State :=
  let f := if fld v 31 16 = 0 then (v, s) else s.free
  let isHost := bankOf ag == 0
  let k := if h2d then Reg.HST_MBX_H2D else Reg.HST_MBX_D2H
  if isHost == h2d then f.2.mbxSet k (if h2d then 192 else 193) (f.1.setWidth 16) else f.2.mbxClear k (f.1.setWidth 16)

/-- A mailbox area that its writer may not write now (18 R549): service-RAM offset `o`, written by the host or by the firmware. -/
def mbxHeld (s : State) (ag : Agent) (o : Nat) : Bool :=
  decide (0xF0000 ≤ o) && decide (o < 0xF8000) &&
    (let m := (o - 0xF0000) / 0x800
     if bankOf ag = 0 then decide ((o - 0xF0000) % 0x800 < 0x400) && s.rb Reg.HST_MBX_H2D m
     else decide (0x400 ≤ (o - 0xF0000) % 0x800) && s.rb Reg.HST_MBX_D2H m)

end State

open State

/-! ## The commands -/

/-- MSIX_MESSAGE (02 R70). -/
def execMsixMessage (vec : BitVec 5) (s : State) : Res State := .next (s.msixSend vec.toNat)

/-- FLR (18 R547). -/
def execFlr (s : State) : Res State :=
  .next (if s.domOn 10 then (s.pcieReset.setRb Reg.HST_LINK 6 true).bump Reg.HST_FLR_CNT else s)

/-- PERST (18 R547): PERST_N asserted while the rest of the device runs. -/
def execPerst (s : State) : Res State := .next (if s.domOn 10 then s.pcieReset else s)

/-- FLR_DONE (18 R547). -/
def execFlrDone (s : State) : Res State :=
  .next (if s.rb Reg.HST_LINK 6 then (s.setRb Reg.HST_LINK 6 false).raiseFree 196 else s)

/-- PCIE_LINK_UP (18 R572). -/
def execPcieLinkUp (speed width : BitVec 2) (s : State) : Res State :=
  .next (if s.domOn 10 then
    let s := ((s.setRf Reg.HST_LINK 1 0 speed.toNat).setRf Reg.HST_LINK 3 2 width.toNat).setRb Reg.HST_LINK 4 true
    s.raise 194 (s.rf Reg.HST_LINK 3 0)
  else s)

/-- PCIE_LINK_DOWN (18 R572). -/
def execPcieLinkDown (s : State) : Res State :=
  .next (if s.rb Reg.HST_LINK 4 then ((s.setRf Reg.HST_LINK 3 0 0).setRb Reg.HST_LINK 4 false).raiseFree 195 else s)

/-- AER_UE (18 R572). -/
def execAerUe (s : State) : Res State := .next (if s.domOn 10 then (s.bump Reg.HST_AER_UE).raiseFree 197 else s)

/-- AER_CE (18 R572). -/
def execAerCe (s : State) : Res State := .next (if s.domOn 10 then (s.bump Reg.HST_AER_CE).raiseFree 198 else s)

/-- MBX_H2D_SET (18 R549), by the host. -/
def execMbxH2dSet (v : Half) (s : State) : Res State := .next (s.regWrite .host Reg.HST_MBX_H2D (·.mbxSet Reg.HST_MBX_H2D 192 v))

/-- MBX_H2D_CLEAR (18 R549): a write by the host's class is one that sets. -/
def execMbxH2dClear (ag : Agent) (v : Half) (s : State) : Res State :=
  .next (s.regWrite ag Reg.HST_MBX_H2D (·.mbxWrite ag true (v.setWidth 32)))

/-- MBX_D2H_SET (18 R549): a write by the host's class is one that clears. -/
def execMbxD2hSet (ag : Agent) (v : Half) (s : State) : Res State :=
  .next (s.regWrite ag Reg.HST_MBX_D2H (·.mbxWrite ag false (v.setWidth 32)))

/-- MBX_D2H_CLEAR (18 R549), by the host. -/
def execMbxD2hClear (v : Half) (s : State) : Res State := .next (s.regWrite .host Reg.HST_MBX_D2H (·.mbxClear Reg.HST_MBX_D2H v))

end Sys2Proof.Machine
end

