-- ==== Sys2Proof/Machine/Update.lean ====
section
/-! DEFINITION. The flash, the QSPI port, Drupe images, update sessions, keys and fuses (18 R557–R570, R574–R577). -/

-- one declaration at a time: many at once take a thread and its stack each
set_option Elab.async false

namespace Sys2Proof.Machine

/-! ## Drupe headers (18 R560) -/

/-- The fields of a Drupe header. -/
structure Drupe where
  target : Nat
  keyidx : Nat
  arb : Nat
  npiece : Nat
  length : Nat
  fwver : Nat
  ident : List Byte
  deriving DecidableEq, Repr

/-- The fields of a header whose MAGIC, FORMAT, TARGET and NPIECE are right (18 R560). -/
def drupeFields (h : List Byte) : Option Drupe :=
  let t := byteAt h 6
  let np := ofLE (sub h 10 2)
  let len := ofLE (sub h 12 4)
  if 256 ≤ h.length ∧ ofLE (sub h 0 4) = 0x50555244 ∧ ofLE (sub h 4 2) = 1 ∧ (t = 1 ∨ t = 2) ∧
      1 ≤ np ∧ np ≤ (if t = 1 then 16 else 96) ∧ np = (len + 4095) / 4096 then
    some ⟨t, byteAt h 7, byteAt h 8, np, len, ofLE (sub h 16 4), sub h 76 48⟩
  else none

/-- A header as OPEN checks it: its transport CRC and its fields (18 R564, first two checks). -/
def drupe (h : List Byte) : Option Drupe :=
  if ofLE (sub h 252 4) = (crc32c (h.take 252)).toNat then drupeFields h else none

/-- The CTR key stream XORed onto bytes (18 R561): the counter block of byte offset `o` is IV + ⌊o / 16⌋, big-endian. -/
def ctrCrypt (key : BitVec 256) (iv : Nat) (bs : List Byte) : List Byte :=
  (List.range bs.length).map fun o =>
    let blk := Config.keyStream key (BitVec.ofNat 128 (iv + o / 16))
    bs.getD o 0 ^^^ BitVec.ofNat 8 (blk.toNat / 256 ^ (15 - o % 16))

namespace State

/-! ## The flash (18 R557) -/

def flashRd (s : State) (a n : Nat) : List Byte := s.rdBytes (Key.flash + a) n
/-- Bytes erased read 0xFF. -/
def flashErase (s : State) (a n : Nat) : State := s.wrBytes (Key.flash + a) (List.replicate n 0xFF)
/-- Programming clears bits of a NOR flash; it stops at the first byte that does not read back (18 R559). Answers whether every byte did. -/
def flashProgram (s : State) (a : Nat) : List Byte → Bool × State
  | [] => (true, s)
  | b :: t =>
    let v := s.rd (Key.flash + a) &&& b
    let s := s.wr (Key.flash + a) v
    if v = b then s.flashProgram (a + 1) t else (false, s)

/-- Slot addresses of a target (18 R557): 1 Stone, 2 Pulp; slot 0 is A. -/
def slotAddr (target slot : Nat) : Nat := if target = 1 then slot * 0x20000 else 0x40000 + slot * 0x80000
/-- The staging region. -/
abbrev stagingAddr : Nat := 0x140000
/-- The boot-project region. -/
abbrev projectAddr : Nat := 0x200000

/-! ## Fuses (18 R569) -/

/-- The anti-rollback counter: consecutive ones from bit 0. -/
def fuseCount (s : State) : Nat :=
  let v := s.reg64 Reg.FUS_ARB_LO
  ((List.range 64).takeWhile fun i => v / 2 ^ i % 2 == 1).length

/-- A verification key that is accepted (18 R561). -/
def keyAccepted (s : State) (k : Nat) : Bool :=
  decide (k ≤ 3) && !(k == 3 && s.rb Reg.FUS_CTRL 0) && !s.rb Reg.FUS_CTRL (4 + k)

/-- ARB of the running image of a target (UPD_ARB). -/
def runningArb (s : State) (t : Nat) : Nat := if t = 1 then s.rf Reg.UPD_ARB 14 8 else s.rf Reg.UPD_ARB 22 16

/-- A fuse is blown (18 R569): 1 a counter bit, 2 SECURE_BOOT, 3 DBG_LOCK, 4 KEYREV. -/
def blow (s : State) (op i : Nat) : State :=
  match op with
  | 1 => s.setRb (if i < 32 then Reg.FUS_ARB_LO else Reg.FUS_ARB_HI) (i % 32) true
  | 2 => s.setRb Reg.FUS_CTRL 0 true
  | 3 => s.setRb Reg.FUS_CTRL 1 true
  | _ => s.setRb Reg.FUS_CTRL (4 + i % 4) true

/-- FUS_CMD (18 R569, R576): the KEY is required; a program in progress goes on alone. A reserved bit or OP is a host error: what is programmed is free (18 R577). -/
def fusCmd (s : State) (v : Word) : State :=
  if fld v 31 24 ≠ 0x6B ∨ s.upd.fuse.isSome then s
  else
    let f := if fld v 7 4 = 0 ∧ fld v 23 12 = 0 then (v, s) else s.free
    let op := fld f.1 3 0
    if 1 ≤ op ∧ op ≤ 4 then { f.2.setRb Reg.FUS_STAT 0 true with upd := { f.2.upd with fuse := some (op, fld f.1 11 8) } } else f.2

/-- A fuse program ends; one that does not verify leaves its fuse to a free value. -/
def fusDone (s : State) (ok : Bool) : State :=
  match s.upd.fuse with
  | none => s
  | some (op, i) =>
    let s := { (s.setRb Reg.FUS_STAT 0 false).setRb Reg.FUS_STAT 1 (!ok) with upd := { s.upd with fuse := none } }
    if ok then s.blow op i
    else let f := s.free; if fld f.1 0 0 = 1 then f.2.blow op i else f.2

/-! ## Sessions (18 R562–R566) -/

/-- A session record (18 R563). -/
structure Sess where
  ident : List Byte
  target : Nat
  state : Nat
  members : Nat
  npiece : Nat
  last : Nat
  arb : Nat
  deriving DecidableEq, Repr

/-- No session. -/
def noSess : Sess := ⟨List.replicate 48 0, 0, 0, 0, 0, 0, 0⟩

/-- The record in Keep page 1,112; one whose CRC fails is no session. -/
def sess (s : State) : Sess :=
  let b := s.rdBytes (keepPage 1112) 64
  if ofLE (sub b 60 4) = (crc32c (b.take 60)).toNat then
    ⟨b.take 48, byteAt b 48, byteAt b 49, byteAt b 50, byteAt b 51, ofLE (sub b 52 4), ofLE (sub b 56 4)⟩
  else noSess

/-- Seconds of the RTC since 1 January 2000. -/
def rtcSecs (s : State) : Nat := ((calSeconds s.cal : Int) - 946684800).toNat

/-- A COMMIT of Stone to `page` (18 R563; 16 R506): COMMIT_DONE; without a spare left nothing changes. -/
def stoneCommit (s : State) (page : Nat) (b : List Byte) : State :=
  let r := s.keepJournal page b 0
  if r.1 then r.2.raise 176 (page + 65536 * 2) else r.2

/-- A record committed to page 1,112 (18 R563). -/
def putSess (s : State) (r : Sess) : State :=
  let b := (r.ident.take 48 ++ List.replicate (48 - r.ident.length) 0) ++ leBytes 1 r.target ++ leBytes 1 r.state ++ leBytes 1 r.members ++ leBytes 1 r.npiece
    ++ leBytes 4 r.last ++ leBytes 4 r.arb
  s.stoneCommit 1112 (b ++ leBytes 4 (crc32c b).toNat)

/-- The piece bitmap in page 1,113. -/
def pieceHere (s : State) (i : Nat) : Bool := (s.rd (keepPage 1113 + i / 8)).toNat / 2 ^ (i % 8) % 2 == 1
def putBitmap (s : State) (b : List Byte) : State := s.stoneCommit 1113 b

/-- Pieces present. -/
def pieceCount (s : State) : Nat := ((List.range 128).filter fun i => s.pieceHere i).length

/-- OPEN from a source, 0 host or 1 service port (18 R564); `ok`: the flash verifies. Answers the result code (18 R555). -/
def updOpen (s : State) (src : Nat) (h : List Byte) (ok : Bool) : Nat × State :=
  match drupe h with
  | none => (5, s)
  | some d =>
    if !s.keyAccepted d.keyidx || decide (64 < d.arb) || decide (d.arb < s.fuseCount) || decide (d.arb < s.runningArb d.target) then (5, s)
    else
      let r := s.sess
      if r.state = 1 ∨ r.state = 2 then
        if r.ident = d.ident then (9, s.putSess { r with members := r.members ||| 2 ^ src }) else (1, s)
      else if !ok then (10, s.flashErase stagingAddr 4096)
      else
        let s := ((s.flashErase stagingAddr 4096).flashProgram stagingAddr (h.take 256)).2
        (0, (s.putBitmap (List.replicate 64 0)).putSess ⟨d.ident, d.target, 1, 2 ^ src, d.npiece, s.rtcSecs, d.arb⟩)

/-- PIECE from a source (18 R565). -/
def updPiece (s : State) (src i crc : Nat) (data : List Byte) (ok : Bool) : Nat × State :=
  let r := s.sess
  if r.state = 0 ∨ r.members / 2 ^ src % 2 = 0 then (6, s)
  else if r.npiece ≤ i then (4, s)
  else if (crc32c data).toNat ≠ crc then (2, s)
  else if s.pieceHere i then (3, s)
  else
    let a := stagingAddr + 0x1000 + 0x1000 * i
    let s := s.flashErase a 4096
    if !ok then (10, s)
    else
      let s := (s.flashProgram a data).2
      let bm := s.rdBytes (keepPage 1113) 64
      let s := s.putBitmap (bm.set (i / 8) (bm.getD (i / 8) 0 ||| BitVec.ofNat 8 (2 ^ (i % 8))))
      let full := s.pieceCount = r.npiece
      let s := s.putSess { r with state := if full then 2 else r.state, last := s.rtcSecs }
      (0, if full then s.raise 205 (2 + 16 * r.members) else s)

/-- ABORT from a source (18 R566). -/
def updAbort (s : State) (src : Nat) : Nat × State :=
  let r := s.sess
  if r.state = 0 then (6, s)
  else if r.members / 2 ^ src % 2 = 1 ∨ s.rf Reg.UPD_IDLE_LIM 15 0 * 3600 < s.rtcSecs - r.last ∨ s.rb Reg.RTC_STAT 3 then
    (0, (s.putSess { r with state := 0 }).putBitmap (List.replicate 64 0))
  else (7, s)

/-- ARB_ADVANCE (18 R568). -/
def arbAdvance (s : State) : Nat × State :=
  let v := min (s.runningArb 1) (s.runningArb 2)
  if v ≤ s.fuseCount then (7, s) else (0, s.setReg64 Reg.FUS_ARB_LO (2 ^ v - 1 + s.reg64 Reg.FUS_ARB_LO / 2 ^ v * 2 ^ v))

/-! ## Host commands (18 R562, R574) -/

/-- The delivery buffer: 4,096 bytes of data and a CRC. -/
def delivery (s : State) : List Byte := s.sramRd (s.rf Reg.UPD_HBUF 19 13 * 0x2000) 4100

/-- The service-RAM areas that a delivery or QSP buffer must not overlap (18 R577): the mailboxes, the log ring and the Vuvas areas. -/
def usedAreas (s : State) : List (Nat × Nat) := (0xF0000, 0x8000) :: s.vuvAreas

/-- A buffer overlaps an area in use. -/
def qspClash (s : State) (buf len : Nat) : Bool := s.usedAreas.any fun a => decide (buf < a.1 + a.2) && decide (a.1 < buf + len)

/-- The service RAM in the overlap of a buffer with the areas in use becomes free (18 R577). -/
def freeOverlap (s : State) (buf len : Nat) : State :=
  s.usedAreas.foldl (fun t a => let lo := max buf a.1; let d := t.freeBytes (List.replicate (min (buf + len) (a.1 + a.2) - lo) 0); d.2.sramWr lo d.1) s

/-- UPD_HCMD (18 R562). A delivery buffer that overlaps an area in use is a host error: the overlap, and so what the command takes, is free (18 R577). -/
def hcmdWrite (s : State) (v : Word) : State :=
  if s.upd.cmd.isSome then s.wign 0x1B
  else
    let f := if fld v 7 4 = 0 ∧ fld v 15 12 = 0 ∧ fld v 31 24 = 0 then (v, s) else s.free
    let s := f.2.freeOverlap (f.2.rf Reg.UPD_HBUF 19 13 * 0x2000) 0x2000
    { s.setRb Reg.UPD_STAT 6 true with
      upd := { s.upd with cmd := some ⟨fld f.1 3 0, s.rf Reg.UPD_HIDX 6 0, fld f.1 11 8, fld f.1 23 16, s.delivery⟩ } }

/-- What Stone makes of a host command (18 R562–R569). OP 0 and 8–15 are host errors (18 R577); a command that lacks its KEY is not carried out, and the spec names
no result for it: both answer a free code. -/
def hcmdRun (s : State) (c : HCmd) (ok : Bool) : Nat × State :=
  let fr := let f := s.free; (f.1.toNat % 16, f.2)
  match c.op with
  | 1 => s.updOpen 0 (c.data.take 256) ok
  | 2 => s.updPiece 0 c.idx (ofLE (sub c.data 4096 4)) (c.data.take 4096) ok
  | 3 => s.updAbort 0
  | 4 => if c.key = 0x6B then s.arbAdvance else fr
  | 5 => if c.key = 0x6B then (0, s.blow 2 0) else fr
  | 6 => if c.key = 0x6B then (0, s.blow 3 0) else fr
  | 7 => if c.key = 0x6B then (0, s.blow 4 c.arg) else fr
  | _ => fr

/-- Stone finishes the command: HRES, HBUSY, HCMD_DONE. A delivery buffer written meanwhile is a host error: the header or piece taken is free (18 R577). -/
def hcmdDone (s : State) (ok : Bool) : State :=
  match s.upd.cmd with
  | none => s
  | some c =>
    let d := if s.delivery = c.data then (c.data, s) else s.freeBytes c.data
    let r := d.2.hcmdRun { c with data := d.1 } ok
    let s := { (r.2.setRb Reg.UPD_STAT 6 false).setRf Reg.UPD_STAT 11 8 r.1 with upd := { r.2.upd with cmd := none } }
    s.raise 204 (c.op + 256 * r.1)

/-- UPD_STAT and UPD_BITMAP as read (18 R574): the session stands in Keep. -/
def updStatView (s : State) : Word :=
  let r := s.sess
  let live := if r.state = 0 then noSess else r
  BitVec.ofNat 32 (live.state % 4 + 4 * (live.target % 4) + 16 * (live.members % 4) + 64 * s.rf Reg.UPD_STAT 6 6 + 256 * s.rf Reg.UPD_STAT 11 8
    + 65536 * s.pieceCount + 2 ^ 24 * (live.npiece % 128))
def updBitmapView (s : State) (m : Nat) : Word := BitVec.ofNat 32 (s.rdLE (keepPage 1113 + 4 * m) 4)

/-! ## The hidden key (18 R574) -/

/-- The bytes of UPD_WKEY0 and on. -/
def wkey (s : State) (n : Nat) : List Byte := ((List.range n).map fun i => leBytes 4 (s.reg (Reg.UPD_WKEY i)).toNat).flatten

/-- UPD_KEYCMD. A reserved bit written 1 is a host error: the command is free. -/
def keyCmd (s : State) (v : Word) : State :=
  let f := if fld v 31 2 = 0 then (v, s) else s.free
  let s := f.2
  let s := if getB f.1 0 then { s with upd := { s.upd with key := Config.unwrap (s.wkey 10) } } else s
  if getB f.1 1 then { s with upd := { s.upd with key := none } } else s

/-- UPD_XCMD.GO: decrypts in place; without a key, or with a length that is no multiple of 16, the bytes are free. -/
def xcmd (s : State) : State :=
  let a := s.rf Reg.UPD_XADDR 19 0
  let n := s.rf Reg.UPD_XLEN 12 0
  let bs := s.sramRd a n
  match s.upd.key, n % 16 == 0 with
  | some k, true => s.sramWr a (ctrCrypt k (ofBE (s.wkey 4)) bs)
  | _, _ => let f := s.freeBytes bs; f.2.sramWr a f.1

/-- UPD_EVTSET: the DETAIL is not given (log 10). -/
def evtSet (s : State) (v : Word) : State :=
  let f := if fld v 31 4 = 0 then (v, s) else s.free
  (List.range 4).foldl (fun t i => if getB f.1 i then t.raiseFree (204 + i) else t) f.2

/-! ## The QSPI port (18 R559, R575, R577) -/

/-- QSP_STAT of a bank. -/
def qspStat (s : State) (b st err : Nat) : State := s.setReg (kreg b Reg.QSP_STAT) (BitVec.ofNat 32 (st + 16 * err))

/-- The bytes of the flash that an operation reaches. -/
def qspSpan (op len : Nat) : Nat := if op = 3 then 4096 else if op = 4 then 65536 else len

/-- QSP_CMD (18 R559): checks, then the operation waits for its transfer. A length of 0 or above 65,536, a buffer that ends beyond service RAM or overlaps an area in
use, and a reserved bit or OP are host errors. -/
def qspCmd (s : State) (ag : Agent) (v : Word) : State :=
  let b := bankOf ag
  if s.rf (kreg b Reg.QSP_STAT) 1 0 = 1 then s.wign 0x22
  else
    let f := if fld v 31 3 = 0 then (v, s) else s.free
    let s := f.2
    let op := fld f.1 2 0
    if op = 0 ∨ 4 < op then (if op = 0 then s else let g := s.free; g.2.setReg (kreg b Reg.QSP_STAT) (g.1 &&& 0xF3))
    else
      let addr := s.rf (kreg b Reg.QSP_ADDR) 26 0
      let len0 := s.rf (kreg b Reg.QSP_LEN) 16 0
      let buf := s.rf (kreg b Reg.QSP_BUF) 19 0
      let bad := op ≤ 2 && (len0 == 0 || decide (65536 < len0) || decide (0x100000 < buf + len0) || s.qspClash buf len0)
      let len := if len0 = 0 ∨ 65536 < len0 then (let g := s.free; (g.1.toNat % 65536 + 1, g.2)) else (len0, s)
      let s := len.2
      let n := qspSpan op len.1
      if b ≠ 2 ∧ !(decide (s.rf Reg.QSP_GUARD_LO 26 0 ≤ addr) && decide (addr + n ≤ s.rf Reg.QSP_GUARD_HI 26 0)) then s.qspStat b 3 1
      else if 3 ≤ op ∧ addr % n ≠ 0 then s.qspStat b 3 2
      else { s.qspStat b 1 0 with upd := { s.upd with qsp := (s.upd.qsp.filter fun e => e.1 != b) ++ [(b, ⟨op, addr, len.1, buf, bad⟩)] } }

/-- The transfer ends (18 R559). `err`: 4 a timed-out erase, 3 a byte that did not verify, 0 none. -/
def qspDone (s : State) (b err : Nat) : State :=
  match s.upd.qsp.find? fun e => e.1 == b with
  | none => s
  | some (_, q) =>
    let s := { s with upd := { s.upd with qsp := s.upd.qsp.filter fun e => e.1 != b } }
    let s := s.setReg Reg.QSP_OPS (s.reg Reg.QSP_OPS + 1)
    let s := if q.bad then s.freeOverlap q.buf q.len else s
    let take := fun (s : State) (bs : List Byte) => if q.bad then s.freeBytes bs else (bs, s)
    if q.op = 1 then
      let d := take s (s.flashRd q.addr q.len)
      (d.2.sramWr q.buf d.1).qspStat b 2 0
    else if q.op = 2 then
      let d := take s (s.sramRd q.buf q.len)
      let r := d.2.flashProgram q.addr d.1
      if r.1 && err != 3 then r.2.qspStat b 2 0 else r.2.qspStat b 3 3
    else
      let s := s.flashErase q.addr (qspSpan q.op q.len)
      if err = 4 then s.qspStat b 3 4 else s.qspStat b 2 0

end State

open State

/-! ## The commands -/

/-- A host update command (18 R562). -/
def hcmdOp (ag : Agent) (v : Word) (s : State) : Res State := .next (s.regWrite ag Reg.UPD_HCMD (·.hcmdWrite v))

/-- HCMD_OPEN (18 R564). -/
def execHcmdOpen (ag : Agent) (s : State) : Res State := hcmdOp ag 1 s
/-- HCMD_PIECE (18 R565); the piece index is in UPD_HIDX. -/
def execHcmdPiece (ag : Agent) (s : State) : Res State := hcmdOp ag 2 s
/-- HCMD_ABORT (18 R566). -/
def execHcmdAbort (ag : Agent) (s : State) : Res State := hcmdOp ag 3 s
/-- ARB_ADVANCE (18 R568). -/
def execArbAdvance (ag : Agent) (v : Word) (s : State) : Res State := hcmdOp ag (setFld v 3 0 4) s
/-- SECURE_BOOT (18 R569). -/
def execSecureBoot (ag : Agent) (v : Word) (s : State) : Res State := hcmdOp ag (setFld v 3 0 5) s
/-- DBG_LOCK (18 R569). -/
def execDbgLock (ag : Agent) (v : Word) (s : State) : Res State := hcmdOp ag (setFld v 3 0 6) s
/-- KEYREV (18 R569). -/
def execKeyrev (ag : Agent) (v : Word) (s : State) : Res State := hcmdOp ag (setFld v 3 0 7) s

/-- QSP_READ (18 R559). -/
def execQspRead (ag : Agent) (s : State) : Res State := .next (s.regWrite ag Reg.QSP_CMD (·.qspCmd ag 1))
/-- QSP_PROGRAM (18 R559). -/
def execQspProgram (ag : Agent) (s : State) : Res State := .next (s.regWrite ag Reg.QSP_CMD (·.qspCmd ag 2))
/-- QSP_ERASE4K (18 R559). -/
def execQspErase4k (ag : Agent) (s : State) : Res State := .next (s.regWrite ag Reg.QSP_CMD (·.qspCmd ag 3))
/-- QSP_ERASE64K (18 R559). -/
def execQspErase64k (ag : Agent) (s : State) : Res State := .next (s.regWrite ag Reg.QSP_CMD (·.qspCmd ag 4))

/-- QSP_DONE (18 R575). -/
def execQspDone (bank : Fin 3) (err : BitVec 4) (s : State) : Res State := .next (s.qspDone bank.val err.toNat)

/-- KEY_UNWRAP (18 R574). -/
def execKeyUnwrap (ag : Agent) (s : State) : Res State := .next (s.regWrite ag Reg.UPD_KEYCMD (·.keyCmd 1))
/-- KEY_CLEAR (18 R574). -/
def execKeyClear (ag : Agent) (s : State) : Res State := .next (s.regWrite ag Reg.UPD_KEYCMD (·.keyCmd 2))
/-- XCMD_GO (18 R574). -/
def execXcmdGo (ag : Agent) (s : State) : Res State := .next (s.regWrite ag Reg.UPD_XCMD (·.xcmd))
/-- EVTSET (18 R574). -/
def execEvtset (ag : Agent) (v : Word) (s : State) : Res State := .next (s.regWrite ag Reg.UPD_EVTSET (·.evtSet v))

/-- A write of FUS_CMD with an OP. -/
def fusOp (ag : Agent) (op : Nat) (v : Word) (s : State) : Res State := .next (s.regWrite ag Reg.FUS_CMD (·.fusCmd (setFld v 3 0 op)))

/-- FUS_ARB_BIT (18 R569). -/
def execFusArbBit (ag : Agent) (v : Word) (s : State) : Res State := fusOp ag 1 v s
/-- FUS_SECURE_BOOT (18 R569). -/
def execFusSecureBoot (ag : Agent) (v : Word) (s : State) : Res State := fusOp ag 2 v s
/-- FUS_DBG_LOCK (18 R570). -/
def execFusDbgLock (ag : Agent) (v : Word) (s : State) : Res State := fusOp ag 3 v s
/-- FUS_KEYREV (18 R569). -/
def execFusKeyrev (ag : Agent) (v : Word) (s : State) : Res State := fusOp ag 4 v s

/-- FUS_PROGRAM_DONE (18 R569). -/
def execFusProgramDone (ok : Bool) (s : State) : Res State := .next (s.fusDone ok)

end Sys2Proof.Machine
end

