-- ==== Sys2Proof/Machine/Access.lean ====
section
/-! DEFINITION. Accesses to device addresses by any number of bytes (00 R8–R14, 02 R42–R49): what every register shows to a read, what a commit to it does,
and the memories behind device addresses. -/

-- one declaration at a time: many at once take a thread and its stack each
set_option Elab.async false

namespace Sys2Proof.Machine

namespace State

/-! ## What registers show -/

/-- TMC_STAT.ADVANCING: the current mode updates cells (08 R277). -/
def cellsAdvance (s : State) : Bool := s.modeIn [Mode.run, Mode.tracking, Mode.stnRun, Mode.stnSafe, Mode.hold]

/-- The PLLs whose domain is ON (03 R124; DEDUCED: the time base and SGMII in PD9, CAN in PD11, PCIe in PD10, the twin link in PD12). -/
def pllOn (s : State) : Word :=
  BitVec.ofNat 32 (1 + 6 * bn (s.domOn 9) + 8 * bn (s.domOn 11) + 16 * bn (s.domOn 10) + 32 * bn (s.domOn 12))

/-- VUV_STAT (10 R352). EPOCH of a station is that of the lead that it follows (DEDUCED). -/
def vuvStatView (s : State) : Word :=
  BitVec.ofNat 32 (bn (s.rb (Reg.PAGE_CTRL 0x0D) 0) + 2 * bn s.isStn + 4 * s.rf Reg.VUV_STAT 3 2 + 16 * bn s.lead
    + 65536 * (if s.isStn then s.leadEpoch else s.epoch))

/-- The number of entries of a set and its lowest, as IMG shows it (07 R270). -/
def firstView (l : List (Nat × Bool)) : Word := match firstMark l with | some n => BitVec.ofNat 32 (n + 2 ^ 31) | none => 0

/-- A register whose value the device computes at the read, by page and offset; `n`: the agent's bank. -/
def viewOf (s : State) (bank p off : Nat) : Option Word :=
  let a := Reg.page p + off
  if off = 0x18 then some (s.reg (Reg.EVT_RAW p) &&& s.reg (Reg.EVT_MASK p))
  else if off < 0x100 then none
  else match p with
  | 0x00 => if a = Reg.SYS_CFGSWAP then some (s.reg a ||| BitVec.ofNat 32 (bn s.swapPend)) else none
  | 0x02 => if a = Reg.CLK_LOCK then some (s.reg a &&& s.pllOn) else none
  | 0x03 => if a = Reg.EVT_SEQVAL then some ((Sparse.get (fun _ => 0) s.evt.last (s.rf Reg.EVT_SEQSEL 7 0)).setWidth 32) else none
  | 0x04 => if a = Reg.SCN_STAT then some (setFld (s.reg a) 2 2 (bn s.schedRuns)) else if a = Reg.SCN_SLOT_PEND then some s.slotPendView else if a = Reg.SCN_SLOT_RUN then some s.slotRunView else none
  | 0x05 | 0x06 | 0x07 | 0x08 => if 0x944 ≤ off ∧ off < 0x988 then some (s.lstatView (p - 5) ((off - 0x944) / 4)) else none
  | 0x09 =>
    if a = Reg.IMG_PSN_CNT then some (BitVec.ofNat 32 s.img.poison.length)
    else if a = Reg.IMG_PSN_FIRST then some (firstView s.img.poison)
    else if a = Reg.IMG_DIRTY_ALL then some (BitVec.ofNat 32 s.img.all.length)
    else if a = Reg.IMG_DIRTY_ND then some (BitVec.ofNat 32 s.img.nd.length)
    else if a = Reg.IMG_DIRTY_PREV then some (BitVec.ofNat 32 s.img.ndPrev.length)
    else if 0x924 ≤ off ∧ off < 0x934 then some (stnBits (fun k => s.completeBlk ((k - Key.status) / 8 + 1)) ((off - 0x924) / 4))
    else none
  | 0x0B =>
    if a = Reg.TMC_STAT then some (BitVec.ofNat 32 (bn s.tmc.updating + 2 * bn s.cellsAdvance))
    else if a = Reg.TMC_INUSE then some (BitVec.ofNat 32 (s.cellsListed.filter fun n => s.cellMode n % 16 != 0).length)
    else none
  | 0x0C =>
    if a = Reg.GRF_WINDOW then some s.grfWindowView
    else if a = Reg.GRF_MAPDATA_LO then some (BitVec.ofNat 32 (s.rdLE (Key.map + 8 * s.mapIdx) 4))
    else if a = Reg.GRF_MAPDATA_HI then some (BitVec.ofNat 32 (s.rdLE (Key.map + 8 * s.mapIdx + 4) 4))
    else none
  | 0x0D => if a = Reg.VUV_STAT then some s.vuvStatView else none
  | 0x0E => if a = Reg.TWN_STAT then some (setFld (s.reg a) 3 3 (bn s.synced)) else none
  | 0x0F =>
    if a = Reg.TIM_NOW_NS then some (BitVec.ofNat 32 s.tim.ns)
    else if a = Reg.TIM_NOW_SECLO then some (BitVec.ofNat 32 s.tim.sec)
    else if a = Reg.TIM_NOW_SECHI then some (BitVec.ofNat 32 (s.tim.sec / 2 ^ 32))
    else if a = Reg.TIM_NS64_LO then some (BitVec.ofNat 32 s.netT)
    else if a = Reg.TIM_NS64_HI then some (BitVec.ofNat 32 (s.netT / 2 ^ 32))
    else none
  | 0x11 | 0x12 | 0x13 | 0x14 => if off = 0x918 then some (s.canRxNext (p - 0x11)) else none
  | 0x16 => if a = Reg.WDT_STAT then some s.wdtStatView else if a = Reg.WDT_REMAIN then some s.wdtRemain else none
  | 0x17 =>
    if a = Reg.KEEP_STAT then some s.keepStatView
    else if a = Reg.KEEP_PWSTAT then some (s.keepPwView bank)
    else if a = Reg.KEEP_BAD_CNT then some (BitVec.ofNat 32 s.keep.bad.length)
    else if a = Reg.KEEP_SPARES then some (BitVec.ofNat 32 s.keep.spares)
    else none
  | 0x18 => if a = Reg.RTC_SUBSEC then some (BitVec.ofNat 32 s.rtcSubsec) else none
  | 0x1A => if a = Reg.SVC_STAT then some (setFld (s.reg a) 1 1 (bn (s.svc.wait.isSome || s.svc.queued.isSome))) else none
  | 0x1B =>
    if a = Reg.UPD_STAT then some s.updStatView
    else if 0x904 ≤ off ∧ off < 0x914 then some (s.updBitmapView ((off - 0x904) / 4))
    else if a = Reg.UPD_ARB then some (setFld (s.reg a) 6 0 s.fuseCount)
    else none
  | 0x1C => if a = Reg.BGD_STAT then some s.bgdStatView else none
  | 0x1D =>
    if a = Reg.TLM_LSOLVE_LAST then some (BitVec.ofNat 32 s.lselCore.lsLast)
    else if a = Reg.TLM_LSOLVE_MIN then some (BitVec.ofNat 32 s.lselCore.lsMin)
    else if a = Reg.TLM_LSOLVE_MAX then some (BitVec.ofNat 32 s.lselCore.lsMax)
    else none
  | 0x24 => if a = Reg.DBG_PC then some s.dbgPcView else none
  | _ => none

/-- The word at offset `off` of page `p` as agent `ag` reads it now: WO bits and the registers of the Steward alone read 0 (00 R3; 18 R545), a register
without a shadow copy reads 0 in the shadow window (02 R58). What the spec gives no source for is free: how far a copy of a Bunch has come
(06 R240), what CAN receives. -/
def liveWord (s : State) (ag : Agent) (p off : Nat) (t : Target) : Word × State :=
  let a := Reg.page p + off
  if (t.shadow && !t.row.rs) || (t.row.stone && ag != .steward) then (0, s)
  else if a = Reg.CLK_REFSTAT then
    let x := s.rtc.xtal
    (BitVec.ofNat 32 (bn (x && s.rb a 0) + 2 * bn x + 4 * s.rf a 3 2), s)
  else if decide (5 ≤ p) && decide (p ≤ 8) && off == 0x998 && s.rb a 0 then (let f := s.free; (setFld (s.reg a) 19 4 (f.1.toNat % (17408 * (1 + bn (s.rb a 3)) + 1)), f.2))
  else if decide (0x11 ≤ p) && decide (p ≤ 0x14) && off == 0x900 then s.canStatView (p - 0x11)
  else if decide (0x11 ≤ p) && decide (p ≤ 0x14) && off == 0x904 then s.canErrView (p - 0x11)
  else match s.viewOf (bankOf ag) p off with
    | some v => (v, s)
    | none => (s.reg (if t.row.banked then kreg (bankOf ag) a else a) &&& ~~~ BitVec.ofNat 32 t.row.wo, s)

/-- The words of a register from part `i` on, `n` of them. -/
def liveWords (s : State) (ag : Agent) (p off : Nat) : Nat → List Word × State
  | 0 => ([], s)
  | n + 1 =>
    match target p off with
    | some t => let r := s.liveWord ag p off t; let q := r.2.liveWords ag p (off + 4) n; (r.1 :: q.1, q.2)
    | none => ([], s)

/-- Clear the RCL words of a register of `n` words at offset `off` (02 R49). -/
def rclClear (s : State) (p off : Nat) : Nat → State
  | 0 => s
  | n + 1 => (match target p off with | some t => if t.row.rcl then s.setReg (Reg.page p + off) 0 else s | none => s).rclClear p (off + 4) n

/-- A read of the lowest part: the whole register goes into the agent's read buffer, and its RCL fields clear (00 R9, 02 R49). The timestamp registers
give their oldest entry (12 R410, R412). -/
def latchRead (s : State) (ag : Agent) (p off parts : Nat) : State :=
  let a := Reg.page p + off
  if decide (p = 0x0F) && decide (0x940 ≤ off) && decide (off < 0x980) then
    let r := s.tciPop ((off - 0x940) / 16); r.2.latchWords (agentNum ag) a r.1
  else if decide (0x1E ≤ p) && decide (p ≤ 0x21) && off == 0xA00 then
    let r := s.txPop (p - 0x1E); r.2.latchWords (agentNum ag) a r.1
  else
    let r := s.liveWords ag p off parts
    (r.2.latchWords (agentNum ag) a r.1).rclClear p off parts

/-- Bytes `i` on, `n` of them, of a word. -/
def wordBytes (w : Word) (i n : Nat) : List Byte := (List.range n).map fun j => BitVec.ofNat 8 (w.toNat / 256 ^ (i + j))

/-- A read of `n` bytes of the word at `a` by an agent, in a page. A read of the highest byte of GRF_MAPDATA_HI counts GRF_MAPIDX on (09 R298). -/
def pageRead (s : State) (ag : Agent) (a n : Nat) : List Byte × State :=
  let p := (a - 0x01000000) / 0x1000
  let off := a % 0x1000 / 4 * 4
  match target p off with
  | none => (List.replicate n 0, s)
  | some t =>
    let s := if t.row.part = 0 ∧ a % 4 = 0 then s.latchRead ag p off t.row.parts else s
    let w := Sparse.get regReset s.rbuf (agentNum ag * 2 ^ 32 + a / 4 * 4)
    let s := if a / 4 * 4 = Reg.GRF_MAPDATA_HI ∧ a % 4 + n = 4 then (s.mapHiRead (agentNum ag)).2 else s
    (wordBytes w (a % 4) n, s)

/-! ## Memories -/

/-- A byte of a memory region at device address `a` read by agent `ag` (02 R42). -/
def memRead1 (s : State) (ag : Agent) (a : Nat) : Byte × State :=
  if a < 0x01890000 || inPantry a then s.rdT a
  else if a < 0x01908000 then s.cellRead (agentNum ag) ((a - Key.cells) / 8) (a % 8) (s.cellBase ((a - Key.cells) / 8))
  else (s.rd a, s)

/-- Bytes of a memory region, in rising order; the Keep window reads by groups of four (16 R500). -/
def memRead (s : State) (ag : Agent) (a : Nat) : Nat → List Byte × State
  | 0 => ([], s)
  | n + 1 => let r := s.memRead1 ag a; let q := r.2.memRead ag (a + 1) n; (r.1 :: q.1, q.2)

/-- A read of `n` bytes within one word that the checks have let pass. -/
def wordRead (s : State) (ag : Agent) (a n : Nat) : List Byte × State :=
  match region a with
  | none => (List.replicate n 0, s)
  | some r =>
    if r.isPage then s.pageRead ag a n
    else if r.page = 0x17 then let g := s.keepWindow (a / 4 * 4) (bankOf ag) (bankOf ag); ((g.1.drop (a % 4)).take n, g.2)
    else s.memRead ag a n

/-- Bytes of the image or exchange memory, or of Pantry, written in one beat: a whole word with fresh check bits, others by a read-modify-write
(07 R253); a Pantry write marks its line dirty (07 R256). -/
def beatWrite (s : State) (a : Nat) (bs : List Byte) : State :=
  let s := if bs.length = 4 then (s.setEcc a 0).wrBytes a bs else (s.touch a).wrBytes a bs
  if inPantry a then (List.range bs.length).foldl (fun t i => t.panHost (a + i)) (s.dirty a true) else s

/-- The half an instruction-memory address of a scan lane lies in is the active one. -/
def inActive (s : State) (a : Nat) : Bool := (a - 0x04000000) % 0x20000 / 0x10000 == s.activeHalf

/-- A write into an instruction memory (01 R26, 03 R84, 09 R295); bits [31:24] hold nothing. A scan lane's half that may not be written now ignores it. -/
def instrWrite (s : State) (a : Nat) (bs : List Byte) : State :=
  let c := (a - 0x04000000) / 0x20000
  let ok := decide (68 ≤ c) || (if s.inActive a then s.mode == Mode.config else !s.modeIn [Mode.boot, Mode.service] && !s.grafting)
  if !ok then s.wign (5 + c / 17)
  else (List.range bs.length).foldl (fun t i => if (a + i) % 4 = 3 then t else t.wr (a + i) (bs.getD i 0)) (s.setEcc a 0)

/-- A write of bytes within one word of a memory that the checks have let pass: SERVICE (03 R83), a standby (11 R370), the modes in which the images may
be written (06 R235, 07 R257), and each memory's own rules. -/
def memWrite (s : State) (ag : Agent) (r : Region) (a : Nat) (bs : List Byte) : State :=
  if s.mode == Mode.service && ag != .steward then s.wign r.page
  else if r.page = 0x17 then s.wign 0x17
  else if 0x04000000 ≤ a ∧ a < 0x05000000 then s.instrWrite a bs
  else if 0x05000000 ≤ a then (if s.mbxHeld ag (a - 0x05000000) then s.wign 0x19 else s.wrBytes a bs)
  else if Key.status ≤ a ∧ a < Key.status + 0x400 then s.wign 0x09
  else if a < 0x01890000 then (if s.modeIn [Mode.config, Mode.hold] && !s.shut then s.beatWrite a bs else s.wign 0x09)
  else if a < 0x01908000 then s.cellFabWrite (agentNum ag) ((a - Key.cells) / 8) ((List.range bs.length).map fun i => (a % 8 + i, bs.getD i 0))
  else if a < 0x02000000 then
    let n := (a - 0x01A00000) / 0x4000
    if s.canObjHeld n ((a - 0x01A00000) % 0x4000) then s.wign (canPage n) else s.wrBytes a bs
  else if s.shut then s.wign 0x09
  else s.beatWrite a bs

/-! ## Commits to registers -/

/-- A commit whose effect is more than a value, by page and offset (00 R11). -/
def commitOf (s : State) (ag : Agent) (p off : Nat) (v : Word) : Option State :=
  let k := p - 0x11
  let e := p - 0x1E
  if off = 0x08 then some (s.ctrlPut p v)
  else if off = 0x18 then some (s.pendClear p v)
  else if off = 0x24 then some (s.ownerPut ag p v)
  else match p, off with
  | 0x00, 0x100 => some (s.cfgswapWrite v)
  | 0x00, 0x104 => some (s.requestMode (fld v 3 0))
  | 0x00, 0x108 => some (s.sysReset v)
  | 0x01, _ => if 0x108 ≤ off ∧ off ≤ 0x138 then some (s.domReqWrite ((off - 0x100) / 4) v) else none
  | 0x03, 0x904 => some (s.ridxWrite v)
  | 0x03, 0x918 => some (s.swRaise v)
  | 0x04, 0x948 => some (s.holdCmd v)
  | 0x05, 0x100 | 0x06, 0x100 | 0x07, 0x100 | 0x08, 0x100 => some (s.forceWrite (p - 5) v)
  | 0x09, 0x108 => some (s.psnClear v)
  | 0x0A, 0x14C => some (s.arbCommitWrite v)
  | 0x0C, 0x100 => some (s.grfCtrl v)
  | 0x0C, 0x104 => some (s.mapLenWrite v)
  | 0x0C, 0x10C => some (s.mapIdxWrite v)
  | 0x0C, 0x114 => some (s.mapCommit (agentNum ag) v)
  | 0x0E, 0x11C => some (s.twnCmdWrite v)
  | 0x0E, 0x120 => some (s.presetWrite v)
  | 0x0F, 0x118 => some (s.timCmdWrite v)
  | 0x0F, 0x130 => some (s.ofsMeas v)
  | 0x10, _ => if 0x100 ≤ off ∧ off < 0x200 ∧ off % 32 = 0x18 then some (s.tpoCtrlWrite ((off - 0x100) / 32) v) else none
  | 0x11, _ | 0x12, _ | 0x13, _ | 0x14, _ =>
    if off = 0x120 then some (s.canCmdWrite k v)
    else if 0x124 ≤ off ∧ off < 0x134 then some (s.canTxrdy k ((off - 0x124) / 4) v)
    else if 0x134 ≤ off ∧ off < 0x144 then some (s.canTxcan k ((off - 0x134) / 4) v)
    else none
  | 0x15, _ =>
    if off = 0x10C then some (s.rndCmd v)
    else if off = 0x110 then some (s.chenWrite v)
    else if 0x180 ≤ off ∧ off < 0x200 then some (s.chcfgWrite ((off - 0x180) / 4) v)
    else if off = 0x900 then some (if fld v 0 0 = 1 ∧ !s.rndCause then s.setRb Reg.RND_STAT 0 false else s)
    else none
  | 0x16, 0x100 => some (s.wdtPeriodWrite v)
  | 0x16, 0x104 => some (s.wdtConfigWrite false v)
  | 0x16, 0x10C => some (s.wdtConfigWrite true v)
  | 0x16, 0x110 => some (s.wdtService (fld v 15 0))
  | 0x16, 0x114 => some (s.wdtCheckin v)
  | 0x17, 0x100 => some (s.keepCmdWrite ag v)
  | 0x18, 0x108 => some (s.rtcCmdWrite v)
  | 0x19, 0x104 => some (s.mbxWrite ag true v)
  | 0x19, 0x108 => some (s.mbxWrite ag false v)
  | 0x1B, 0x100 => some (s.hcmdWrite v)
  | 0x1B, 0x138 => some (s.keyCmd v)
  | 0x1B, 0x144 => some (if fld v 0 0 = 1 then s.xcmd else s)
  | 0x1B, 0x148 => some (s.evtSet v)
  | 0x1D, 0x110 => some (s.lclrWrite v)
  | 0x1E, 0x110 | 0x1F, 0x110 | 0x20, 0x110 | 0x21, 0x110 => some (s.mdioWrite e v)
  | 0x22, 0x10C => some (s.qspCmd ag v)
  | 0x23, 0x100 => some (s.fusCmd v)
  | 0x24, 0x104 => some (s.dbgCore ag v true)
  | 0x24, 0x108 => some (s.dbgCore ag v false)
  | _, _ => none

/-- The reserved bits of a command register whose write as 1 is a host error (11 R390, 12 R430, 17 R543, 18 R577, 19 R590); the other command registers say it
themselves. -/
def cmdResv (p off : Nat) : Word :=
  match p, off with
  | 0x0E, 0x11C => 0xFFFFFFFC
  | 0x0E, 0x120 => 0xFFFFFF00
  | 0x0F, 0x118 => 0xFFFFFFF8
  | 0x18, 0x108 => 0xFFFFFFF0
  | 0x1B, 0x144 => 0xFFFFFFFE
  | 0x1D, 0x110 => 0xFFFFFFFE
  | 0x1E, 0x110 | 0x1F, 0x110 | 0x20, 0x110 | 0x21, 0x110 => 0xE000
  | 0x10, _ => if 0x100 ≤ off ∧ off < 0x200 ∧ off % 32 = 0x18 then 0xFFFFFFF8 else 0
  | _, _ => 0

/-- Whether a reserved bit written 1 into a configuration register is a host error there (the tables of unpredictable cases, 02 R81 to 19 R590); elsewhere it
is ignored. -/
def resvErr (p off : Nat) : Bool :=
  (decide (0x0D ≤ p) && decide (p ≤ 0x23) && decide (0x100 ≤ off) && decide (off < 0x900)) || (p == 0x03 && decide (0x100 ≤ off) && decide (off < 0x900))
    || (p == 0x18 && decide (0xA00 ≤ off)) || (p == 0x04 && decide (0x200 ≤ (off - 0x100) % 0x400 + 0x100) && decide (off < 0x900))
    || (p == 0x0A && decide (0x100 ≤ off) && decide (off < 0x900)) || (p == 0x0B && decide (0x100 ≤ off) && decide (off < 0x900))

/-- A value taken by a register: RW bits from `v`, W1C and W1S bits as written (00 R3); a reserved bit written 1 where that is a host error leaves the RW
bits free. WO registers without an effect keep what is written for the command that uses it. -/
def plainPut (s : State) (k p off : Nat) (r : RegRow) (v : Word) : State :=
  let m := fun n => BitVec.ofNat 32 n
  let bad := resvErr p off && r.rw != 0 && (v &&& ~~~ m (r.rw ||| r.w1c ||| r.w1s ||| r.wo ||| r.ro)) != 0
  let f := if bad then s.free else (v, s)
  let s := f.2
  let v := f.1
  let keep := r.rw ||| r.wo
  s.setReg k ((((s.reg k &&& ~~~ m keep) ||| (v &&& m keep)) &&& ~~~ (v &&& m r.w1c)) ||| (v &&& m r.w1s))

/-- A register that may not be written now (12 R426, 13 R434 and R450, 14 R454, 16 R503, 09 R295). -/
def lockedReg (s : State) (ag : Agent) (p off : Nat) : Bool :=
  match p with
  | 0x0C => (off == 0x110 || off == 0x114) && s.grafting
  | 0x11 | 0x12 | 0x13 | 0x14 => decide (0x100 ≤ off) && decide (off < 0x120) && !s.canOff (p - 0x11)
  | 0x15 => (off == 0x100 || off == 0x104) && s.rb (Reg.PAGE_CTRL p) 0
  | 0x17 => ((decide (0x100 ≤ off) && decide (off < 0x120)) || decide (0xA00 ≤ off)) && s.keepBusy (bankOf ag)
  | 0x1E | 0x1F | 0x20 | 0x21 => [0x100, 0x104, 0x108, 0x10C, 0x120, 0x124, 0x12C, 0x130].contains off &&
      (s.rb (Reg.PAGE_CTRL p) 0 || s.rb (Reg.PAGE_STAT p) 1)
  | _ => false

/-- What follows a plain commit: a new filter or timeout goes to the Rind (14 R454), the agents that write a pulse output's pending set are known
(12 R430), a shadow window is dirty (02 R53). -/
def afterPlain (s : State) (ag : Agent) (p off : Nat) (t : Target) : State :=
  let s := if p = 0x15 ∧ (off = 0x100 ∨ off = 0x104) then s.rndPush (.config 8) else s
  let s := if p = 0x18 ∧ off = 0x120 then s.voidTrim else s
  let i := (off - 0x100) / 32
  let s := if p = 0x10 ∧ 0x100 ≤ off ∧ off < 0x200 then
      let o := s.tpoOf i
      if o.writers.contains (agentNum ag) then s else { s with tpo := Sparse.set (fun _ => {}) s.tpo i { o with writers := o.writers ++ [agentNum ag] } }
    else s
  if t.shadow then s.setRb (Reg.PAGE_STAT p) 2 true else s

/-- The effect of a commit's word, what the twin makes of it, and the agent's staging buffer (00 R11, R12). -/
def commitVal (s : State) (ag : Agent) (p off : Nat) (t : Target) (v : Word) : State :=
  let a := Reg.page p + off
  match (if t.shadow then none else s.commitOf ag p off v) with
  | some u =>
    let u := u.cfgNote a
    if a = Reg.GRF_MAPDATA_HI then u else u.stageLoad (agentNum ag) a t
  | none =>
    let k := if t.row.banked then kreg (bankOf ag) a else a
    (((s.plainPut k p off t.row v).afterPlain ag p off t).cfgNote a).stageLoad (agentNum ag) a t

/-- One word of a commit, what it uses noted and its reserved bits seen (00 R6, R11). -/
def commitWord (s : State) (ag : Agent) (p off : Nat) (t : Target) (v : Word) : State :=
  let s := if p = 0x17 ∧ t.row.banked then s.keepUse ag else s
  let f := if v &&& cmdResv p off = 0 then (v, s) else s.free
  f.2.commitVal ag p off t f.1

/-- Every word of a register of `n` words from offset `off` on takes what the agent's staging buffer holds. -/
def commitWords (s : State) (ag : Agent) (p off : Nat) : Nat → State
  | 0 => s
  | n + 1 =>
    match target p off with
    | some t =>
      (s.commitWord ag p off t (Sparse.get stageReset s.stage (agentNum ag * 2 ^ 32 + Reg.page p + off))).commitWords ag p (off + 4) n
    | none => s

/-- The bytes of a word from byte `i` on replaced. -/
def putWord (w : Word) (i : Nat) (bs : List Byte) : Word :=
  BitVec.ofNat 32 (ofLE ((List.range 4).map fun j => if i ≤ j ∧ j < i + bs.length then bs.getD (j - i) 0 else BitVec.ofNat 8 (w.toNat / 256 ^ j)))

/-- The write reaches the highest byte of its register: byte 3 of its last word, byte 1 of the 16-bit WDT_SVC (15 R485). -/
def reachesTop (a n : Nat) (r : RegRow) : Bool :=
  r.part + 1 == r.parts && (a % 4 + n == 4 || (a / 4 * 4 == Reg.WDT_SVC && decide (a % 4 ≤ 1) && decide (2 ≤ a % 4 + n)))

/-- A write of bytes within one word of a page, the checks passed (00 R11, 02 R5, R58, 09 R295). -/
def pageWrite (s : State) (ag : Agent) (a : Nat) (bs : List Byte) : State :=
  let p := (a - 0x01000000) / 0x1000
  let off := a % 0x1000 / 4 * 4
  match target p off with
  | none => s
  | some t =>
    if t.shadow && !t.row.rs then s
    else if t.shadow && s.grafting && s.rb (Reg.PAGE_CTRL p) 2 then s.wign p
    else if (!t.shadow && t.row.rs) || s.lockedReg ag p off then s.wign p
    else
      let k := agentNum ag * 2 ^ 32 + Reg.page p + off
      let m := Sparse.get stageReset s.stage (k + 1) ||| BitVec.ofNat 32 ((2 ^ bs.length - 1) * 2 ^ (a % 4))
      let s := { s with stage := Sparse.set stageReset (Sparse.set stageReset s.stage k (putWord (Sparse.get stageReset s.stage k) (a % 4) bs)) (k + 1) m }
      if !reachesTop a bs.length t.row then s
      else if off = 0x114 ∧ p = 0x0C then s.commitWords ag p off 1
      else s.commitWords ag p (off - 4 * t.row.part) t.row.parts

/-! ## The fabric (02 R46, R47, R629) -/

/-- One access within a word: each makes its own record where a check stops it (02 R629). -/
def accRead (s : State) (ag : Agent) (a n : Nat) : List Byte × State :=
  match s.check ag a false with
  | .pass => s.wordRead ag a n
  | .stop t => (List.replicate n 0, t)

def accWrite (s : State) (ag : Agent) (a : Nat) (bs : List Byte) : State :=
  match region a with
  | some r => if r.isPage then s.regChecks ag a (·.pageWrite ag a bs) else s.guarded ag a (·.memWrite ag r a bs)
  | none => s.guarded ag a id

/-- The bytes of an access that the next one of the fabric takes: the rest of a word for host and debug port, one byte for lanes. -/
def accSize (ag : Agent) (a n : Nat) : Nat := if bankOf ag = 0 then min n (4 - a % 4) else 1

/-- A read of `n` bytes from device address `a` on, in ascending order; `fuel` bounds the number of accesses. -/
def busReadF (s : State) (ag : Agent) : Nat → Nat → Nat → List Byte × State
  | 0, _, _ => ([], s)
  | fuel + 1, a, n =>
    if n = 0 then ([], s)
    else
      let m := accSize ag a n
      let r := s.accRead ag a m
      let q := r.2.busReadF ag fuel (a + m) (n - m)
      (r.1 ++ q.1, q.2)

def busRead (s : State) (ag : Agent) (a n : Nat) : List Byte × State := s.busReadF ag n a n

def busWriteF (s : State) (ag : Agent) : Nat → Nat → List Byte → State
  | 0, _, _ => s
  | fuel + 1, a, bs =>
    if bs.isEmpty then s
    else
      let m := accSize ag a bs.length
      (s.accWrite ag a (bs.take m)).busWriteF ag fuel (a + m) (bs.drop m)

def busWrite (s : State) (ag : Agent) (a : Nat) (bs : List Byte) : State := s.busWriteF ag bs.length a bs

/-! ## The host's view (02 R45, 18 R548) -/

/-- Where an address that the host uses lies. The host's own addresses are written 0xB0000000 on for BAR0, 0xB2000000 on for BAR2 and 0xB3000000 on for
the configuration space (the model's convention); any other is a device address. -/
inductive HostAt where
  | device (a : Nat)
  | nowhere (a : Nat)
  | msix (o : Nat)
  | pba (o : Nat)
  | config (o : Nat)
  | empty

/-- The mapping of the BARs (02 R45; 18 R548). -/
def hostAt (s : State) (a : Nat) : HostAt :=
  let o := a % 0x1000000
  if a < 0xB0000000 ∨ 0xB4000000 ≤ a then .device a
  else if a < 0xB1000000 then .device (0x01000000 + o)
  else if a < 0xB2000000 then
    let sel := s.rf Reg.HST_BAR0WIN 7 0
    if 2 ≤ sel ∧ sel ≤ 5 then .device (sel * 0x1000000 + o) else .nowhere (sel * 0x1000000 + o)
  else if a < 0xB3000000 then
    if o < 0x8000 then .device (0x050F0000 + o) else if o < 0x8200 then .msix (o - 0x8000) else if 0x9000 ≤ o ∧ o < 0x9004 then .pba (o - 0x9000) else .empty
  else .config o

/-- A byte of the MSI-X table: bit 0 of vector control is held inverted, its other bits read 0. -/
def msixByte (s : State) (o : Nat) : Byte :=
  if o % 16 < 12 then s.rd (Key.msix + o) else if o % 16 = 12 then (s.rd (Key.msix + o) &&& 1) ^^^ 1 else 0

def msixPut (s : State) (o : Nat) (v : Byte) : State :=
  if o % 16 < 12 then s.wr (Key.msix + o) v else if o % 16 = 12 then s.wr (Key.msix + o) ((v &&& 1) ^^^ 1) else s

/-- A read by an agent; the host's own addresses are mapped first. -/
def agentRead (s : State) (ag : Agent) (a n : Nat) : List Byte × State :=
  if ag != .host then s.busRead ag a n
  else match s.hostAt a with
  | .device d => s.busRead ag d n
  | .nowhere d => (List.replicate n 0, s.badAddr ag d false)
  | .msix o => ((List.range n).map fun i => s.msixByte (o + i), s)
  | .pba o => ((List.range n).map fun i => BitVec.ofNat 8 (s.msixPba.toNat / 256 ^ (o + i)), s)
  | .config o => ((List.range n).map fun i => if o + i = 4 then BitVec.ofNat 8 (4 * bn (s.rb Reg.HST_LINK 5)) else 0, s)
  | .empty => (List.replicate n 0, s)

/-- A write by an agent. Of the PCI configuration space the model holds bus mastering, bit 2 of the Command register (18 R572). -/
def agentWrite (s : State) (ag : Agent) (a : Nat) (bs : List Byte) : State :=
  if ag != .host then s.busWrite ag a bs
  else match s.hostAt a with
  | .device d => s.busWrite ag d bs
  | .nowhere d => s.badAddr ag d true
  | .msix o => (List.range bs.length).foldl (fun t i => t.msixPut (o + i) (bs.getD i 0)) s
  | .config o => if o ≤ 4 ∧ 4 < o + bs.length then s.setRb Reg.HST_LINK 5 (byteAt bs (4 - o) / 4 % 2 == 1) else s
  | .pba _ | .empty => s

end State

open State

namespace State

/-! ## Accesses that wait, and accesses with a gap -/

/-- The device address that an agent's address names, none for the host's own. -/
def devAddr (s : State) (ag : Agent) (a : Nat) : Option Nat :=
  if ag != .host then some a else match s.hostAt a with | .device d => some d | _ => none

/-- An access of an agent to a bank that is held or busy waits: nothing has happened yet, and its command is sent again (07 R258, R266; log 12). -/
def agentWaits (s : State) (ag : Agent) (a n : Nat) : Bool := (s.devAddr ag a).any fun d => s.fabWaits d n

/-- The writable bits of `n` words from offset `off` of page `p` on are free values, in the register and in the agent's staging buffer. -/
def gapWords (s : State) (ag : Agent) (p off : Nat) : Nat → State
  | 0 => s
  | n + 1 =>
    match target p off with
    | some t =>
      let a := Reg.page p + off
      let k := if t.row.banked then kreg (bankOf ag) a else a
      let m := BitVec.ofNat 32 (t.row.rw ||| t.row.w1c ||| t.row.w1s)
      let f := s.free
      let g := f.2.free
      let s := g.2.setReg k ((g.2.reg k &&& ~~~m) ||| (f.1 &&& m))
      { s with stage := Sparse.set stageReset s.stage (agentNum ag * 2 ^ 32 + a) g.1 }.gapWords ag p (off + 4) n
    | none => s

/-- An access with non-contiguous byte enables that reaches a register page, the checks passed, leaves the addressed register free (02 R81). -/
def gapAccess (s : State) (ag : Agent) (d : Nat) (w : Bool) : State :=
  match s.check ag d w with
  | .stop t => t
  | .pass =>
    let p := (d - 0x01000000) / 0x1000
    let off := d % 0x1000 / 4 * 4
    match target p off with
    | some t => s.gapWords ag p (off - 4 * t.row.part) t.row.parts
    | none => s

/-- The device address of an access with a gap in its byte enables to a register page. -/
def gapAt (s : State) (ag : Agent) (a : Nat) (gap : Bool) : Option Nat :=
  if gap then (s.devAddr ag a).filter fun d => (region d).any (·.isPage) else none

end State

/-! ## The commands -/

/-- LOW_PART_LATCH (00 R9): a read of `n` bytes by an agent, with a gap in its byte enables or without (02 R81); the value it returns is kept (log 8). -/
def execLowPartLatch (ag : Agent) (addr : Word) (n : Extent) (s : State) : Res State :=
  .next (if s.agentWaits ag addr.toNat n.bytes then s
    else match s.gapAt ag addr.toNat n.gap with
    | some d => let t := s.gapAccess ag d false; let f := t.free64; { f.2 with rdata := f.1 }
    | none => let r := s.agentRead ag addr.toNat n.bytes; { r.2 with rdata := BitVec.ofNat 64 (ofLE r.1) })

/-- RCL_READ (02 R49): a read of the lowest part of a register, a word by the host or debug port, a byte by a lane. -/
def execRclRead (ag : Agent) (addr : Word) (s : State) : Res State :=
  let n := if bankOf ag = 0 then 4 else 1
  .next (if s.agentWaits ag addr.toNat n then s
    else let r := s.agentRead ag addr.toNat n; { r.2 with rdata := BitVec.ofNat 64 (ofLE r.1) })

end Sys2Proof.Machine
end

