-- ==== Sys2Proof/Machine/Boot.lean ====
section
/-! DEFINITION. Boot (03 R102–R117, R630, R631; 16 R508, R515; 17 R538; 18 R544, R558–R561, R567) and the end of a soft reset (02 R54). -/

-- one declaration at a time: many at once take a thread and its stack each
set_option Elab.async false

namespace Sys2Proof.Machine

namespace State

/-! ## Straps and progress -/

/-- BOOT_SRC strap: the host (03 R102). -/
def bootHost (s : State) : Bool := s.rb Reg.SYS_STRAPS 3
/-- SYS_BOOTSTAT.PHASE. -/
def bootPhase (s : State) : Nat := s.rf Reg.SYS_BOOTSTAT 3 0
def setBootPhase (s : State) (n : Nat) : State := s.setRf Reg.SYS_BOOTSTAT 3 0 n
/-- The device stays in BOOT (03 R108): PHASE 0xF and ERR. -/
def bootFail (s : State) (err : Nat) : State := (s.setRf Reg.SYS_BOOTSTAT 15 12 err).setBootPhase 15

/-! ## Steps 1 to 4: the hardware -/

/-- The domains come up (03 R630); PD14 follows VFLD (R121), after a transition of its own that is in progress (00 R15). -/
def bootDomains (s : State) : State :=
  let s := (List.range 13).foldl (fun t i => t.setReg (Reg.PWR_STAT (i + 1)) 2) s
  let s := if (s.fn 14).toward = some 2 ∨ ((s.fn 14).toward = none ∧ s.domState 14 = 2) then s else s.domRequest 14 2
  (List.range 37).foldl (fun t p => if t.rb (Reg.PAGE_CTRL p) 0 then t.setRb (Reg.PAGE_STAT p) 0 true else t) s

/-- A physical lane that fails the March test (03 R110): its spare takes its scan lane number; a failed spare is no longer available. -/
def selfTestSpare (s : State) (p : Nat) : State :=
  let b := p / 17
  let s := (s.setCore p { s.core p with faulty := true }).setRb (Reg.BUN_SPARE b) 9 false
  let s := match s.scanOf p with
    | some k => (s.setRf (Reg.BUN_MAP b (k % 16)) 6 0 (s.spareOf b)).setRb (Reg.BUN_SPARE b) 8 true
    | none => s
  (s.setRb Reg.SYS_BOOTSTAT 9 true).raiseFree 5

/-- The ECC scan of a warm boot meets an uncorrectable word (03 R631). BGD_UE_WHERE has no code for a constant bank and for service RAM: MEM is free there
(log 22). -/
def warmWord (s : State) (k : Nat) : State :=
  let clear := fun (t : State) => (t.setEcc k 0).wrLE (k / 4 * 4) 4 0
  match (List.range 5).findSome? fun i => scrubAt i k with
  | some (.instr c h w) => clear (s.ueRecord 0 c h w)
  | some (.scratch c w) => clear (s.ueRecord 1 c 0 w)
  | some (.regs c) => (s.setEcc k 0).ueRecord 2 c 0 (k % 0x1000)
  | some .cell => s.scrubUe k .cell
  | some .shared => if inPantry k then s.ueWord k else clear (s.ueRecord 4 0x7F 0 (reportAddr k))
  | _ =>
    if Key.const 0 0 ≤ k ∧ k < Key.const 68 0 then
      let o := k - Key.const 0 0
      let f := s.free
      clear (f.2.ueRecord (fld f.1 3 0) (o / 0x2000) (o % 0x2000 / 0x1000) (o % 0x1000 / 4))
    else if Key.sram ≤ k ∧ k < Key.sram + 0x100000 then
      let f := s.free
      clear (f.2.ueRecord (fld f.1 3 0) 0x7F 0 (k / 4 * 4))
    else s

/-- Step 3 (03 R108, R110, R631); answers whether the boot goes on. -/
def bootSelfTest (s : State) (cold : Bool) (t : SelfTest) (finds : List Nat) : Bool × State :=
  if cold then
    match t with
    | .clean => (true, s)
    | .other => (false, s.bootFail 1)
    | .lanes ps =>
      let l := (ps.map (·.val)).eraseDups
      let s := l.foldl (fun t p => if t.rb (Reg.BUN_SPARE (p / 17)) 9 then t.selfTestSpare p else t) s
      if (List.range 4).any (fun b => decide (2 ≤ (l.filter fun p => p / 17 == b).length)) then (false, s.bootFail 1) else (true, s)
  else
    let l := (s.ecc.filter fun e => e.2 == 2 && decide (e.1 < Key.keep ∨ Key.keep + 0x200000 ≤ e.1)).map (·.1)
    let l := (l ++ finds.map fun k => k / 4 * 4).eraseDups
    (true, l.foldl (fun t k => t.warmWord k) s)

/-- The compensation curve of the RTC (17 R538). -/
def bootCurve (s : State) : State :=
  let b := s.rdBytes (keepPage 1104) 128
  if ofLE (sub b 124 4) = (crc32c (b.take 124)).toNat then
    let s := (List.range 33).foldl (fun t i => t.setReg (Reg.RTC_CURVE i) (BitVec.ofNat 32 (ofLE (sub b (2 * i) 2)))) s
    (s.setRf Reg.RTC_COMPCFG 31 16 (ofLE (sub b 66 2))).setRb Reg.RTC_STAT 5 true
  else (s.setRb Reg.RTC_STAT 5 false).raiseFree 188

/-! ## Images (03 R106, R113; 18 R558–R561) -/

/-- How the checks of an image end: the reason as in UPD_LASTRES, or the image's fields. -/
inductive ImgCheck where
  | bad (reason : Nat)
  | good (d : Drupe)

/-- An image for a target, header and pieces, as ROM and Stone verify it: KEYIDX, ARB, the key unwrap, IDENT, SIG. -/
def verifyImage (s : State) (target : Nat) (img : List Byte) : ImgCheck :=
  match drupeFields img with
  | none => .bad 2
  | some d =>
    let ct := (img.drop 256).take (4096 * d.npiece)
    if d.target ≠ target then .bad 2
    else if !s.keyAccepted d.keyidx then .bad 5
    else if 64 < d.arb ∨ d.arb < s.fuseCount then .bad 4
    else match Config.unwrap (sub img 36 40) with
      | none => .bad 5
      | some key =>
        if !Config.ident (img.take 76 ++ ct) (sub img 76 48) then .bad 2
        else if !Config.verify (BitVec.ofNat 8 d.keyidx) (img.take 76 ++ (ctrCrypt key (ofBE (sub img 20 16)) ct).take d.length) (sub img 124 96) then .bad 3
        else .good d

/-- A slot's record is valid (18 R558). -/
def slotValid (s : State) (target slot : Nat) : Bool :=
  let r := s.flashRd (slotAddr target slot) 16
  ofLE (sub r 0 4) == 0x544F4C53 && ofLE (sub r 12 4) == (crc32c (r.take 12)).toNat
def slotSeq (s : State) (target slot : Nat) : Nat := ofLE (s.flashRd (slotAddr target slot + 4) 4)
def slotArb (s : State) (target slot : Nat) : Nat := byteAt (s.flashRd (slotAddr target slot + 0x1008) 1) 0

/-- Slot B ranks above slot A (18 R558); slots that rank equal are taken A first (DEDUCED). -/
def slotBFirst (s : State) (target : Nat) : Bool :=
  let a := s.slotValid target 0
  let b := s.slotValid target 1
  if a && b then decide (s.slotArb target 0 < s.slotArb target 1) ||
      (s.slotArb target 0 == s.slotArb target 1 && decide (s.slotSeq target 0 < s.slotSeq target 1))
  else b

/-- The slots of a target in the order in which they are tried. -/
def slotOrder (s : State) (target : Nat) : List Nat :=
  (if s.slotBFirst target then [1, 0] else [0, 1]).filter (s.slotValid target)

/-- The image of a slot, header and pieces. -/
def slotImage (s : State) (target slot : Nat) : List Byte :=
  let a := slotAddr target slot + 0x1000
  let h := s.flashRd a 256
  h ++ s.flashRd (a + 256) (4096 * min (ofLE (sub h 10 2)) 96)

/-- The first slot of a target that verifies, the image's fields, and whether it is the second one tried. -/
def slotPick (s : State) (target : Nat) : List Nat → Bool → Option (Nat × Drupe × Bool)
  | [], _ => none
  | k :: t, second =>
    match s.verifyImage target (s.slotImage target k) with
    | .good d => some (k, d, second)
    | .bad _ => s.slotPick target t true

/-- A boot that uses a second slot (03 R106); the spec gives SLOT_FALLBACK no DETAIL. -/
def slotFallback (s : State) (second : Bool) : State := if second then (s.setRb Reg.SYS_BOOTSTAT 6 true).raiseFree 4 else s

/-- Stone runs: its ARB and version (18 R574). -/
def stoneTaken (s : State) (d : Drupe) : State :=
  ((s.setRf Reg.UPD_ARB 14 8 d.arb).setReg Reg.UPD_VER_STONE (BitVec.ofNat 32 d.fwver)).setCore 72 { run := .exec }

/-- Pulp is loaded: its ARB and version. -/
def pulpTaken (s : State) (d : Drupe) : State := (s.setRf Reg.UPD_ARB 22 16 d.arb).setReg Reg.UPD_VER_PULP (BitVec.ofNat 32 d.fwver)

/-! ## The boot project and the Keep boot configuration (03 R114–R116) -/

/-- One record of a CONFIG section: with the Steward's rights, RS registers in both sets; the pages and offsets of R115 are skipped. A record that names a shadow
window's offset itself writes the shadow copy alone, like any other write there (DEDUCED, log 22). -/
def configRecord (s : State) (r : List Byte) : State :=
  let p := byteAt r 0
  let off := ofLE (sub r 2 2)
  let v := BitVec.ofNat 32 (ofLE (sub r 4 4))
  if [0x23, 0x16, 0x1B, 0x22, 0x24].contains p || decide (off < 0x100) then s
  else match target p (off / 4 * 4) with
    | some t =>
      if t.row.rs && !t.shadow && off % 4 == 0 then
        (s.plainPut (Reg.page p + off) p off t.row v).plainPut (Reg.page p + off + 0x400) p (off + 0x400) t.row v
      else s.busWrite .steward (Reg.page p + off) (leBytes 4 v.toNat)
    | none => s.busWrite .steward (Reg.page p + off) (leBytes 4 v.toNat)

/-- `n` records of 8 bytes. -/
def configRecords (s : State) (bs : List Byte) : Nat → State
  | 0 => s
  | n + 1 => (s.configRecord (bs.take 8)).configRecords (bs.drop 8) n

/-- INSTR: three bytes a word into the active half. -/
def loadInstr (s : State) (lane w : Nat) : Nat → List Byte → State
  | 0, _ => s
  | n + 1, bs => (s.wrBytes (Key.instr (s.physOf lane) s.activeHalf w) (bs.take 3)).loadInstr lane (w + 1) n (bs.drop 3)

/-- CELLS: 8 bytes a cell; a FREE cell counts on from the value loaded (08 R285). -/
def loadCells (s : State) (c : Nat) : Nat → List Byte → State
  | 0, _ => s
  | n + 1, bs =>
    let s := s.wrBytes (cellKey c) (bs.take 8)
    let s := if s.cellFree c then s.setCellBase c ((s.netUs : Int) - (ofLE (sub bs 0 6) : Int)) else s
    s.loadCells (c + 1) n (bs.drop 8)

/-- The lines of Pantry that a load writes are dirty (07 R256). -/
def loadPantry (s : State) (o : Nat) (bs : List Byte) : State :=
  let s := s.wrLines (Key.pantry + o) bs
  (List.range ((o % 64 + bs.length + 63) / 64)).foldl (fun t i => t.dirty (Key.pantry + o / 64 * 64 + 64 * i) true) s

/-- A section is as R115 allows: its type, index and length. -/
def sectOk (s : State) (ty idx len : Nat) : Bool :=
  match ty with
  | 1 => decide (idx < (if s.isStn then 16 else 64)) && len % 3 == 0 && decide (len ≤ 49152)
  | 2 => decide (idx < (if s.isStn then 16 else 64)) && decide (len ≤ 4096)
  | 3 => idx == 0 && len % 8 == 0
  | 4 => decide (idx < 64) && decide (idx * 0x10000 + len ≤ 0x400000)
  | 5 => decide (idx < 4096) && len % 8 == 0 && decide (idx + len / 8 ≤ 4096)
  | _ => false

/-- One section loaded. -/
def sectLoad (s : State) (ty idx : Nat) (bs : List Byte) : State :=
  match ty with
  | 1 => s.loadInstr idx 0 (bs.length / 3) bs
  | 2 => s.wrBytes (Key.const (s.physOf idx) s.activeHalf) bs
  | 3 => s.configRecords bs (bs.length / 8)
  | 4 => s.loadPantry (idx * 0x10000) bs
  | _ => s.loadCells idx (bs.length / 8) bs

/-- The sections in table order; answers whether every section that is read passed (03 R114, R115). On a warm reset PANTRY and CELLS are not read. -/
def sectRun (s : State) (cold : Bool) (total : Nat) : List (List Byte) → Bool × State
  | [] => (true, s)
  | e :: t =>
    let ty := byteAt e 0
    let idx := ofLE (sub e 2 2)
    let o := ofLE (sub e 4 4)
    let len := ofLE (sub e 8 4)
    if !cold && (ty == 4 || ty == 5) then s.sectRun cold total t
    else if total < o + len || !s.sectOk ty idx len then (false, s)
    else
      let bs := s.flashRd (projectAddr + o) len
      if (crc32c bs).toNat ≠ ofLE (sub e 12 4) then (false, s) else (s.sectLoad ty idx bs).sectRun cold total t

/-- Step 11 (03 R114, R115). A project of the other role is not valid (R114); that none of its sections is loaded then is a DESIGN CHOICE (log 22). A START that the table does not list leaves the first mode free between those of rows 4 and 5. -/
def bootProject (s : State) (cold : Bool) : State :=
  let h := s.flashRd projectAddr 256
  let n := ofLE (sub h 8 2)
  let total := ofLE (sub h 12 4)
  let tab := s.flashRd (projectAddr + 256) (16 * n)
  if ofLE (sub h 0 4) ≠ 0x4A504254 ∨ ofLE (sub h 4 2) ≠ 1 ∨ n = 0 ∨ 512 < n ∨ 0x800000 < total
      ∨ ofLE (sub h 248 8) ≠ (crc64 (h.take 248 ++ tab)).toNat ∨ byteAt h 6 ≠ bn s.isStn then s
  else
    let r := s.sectRun cold total ((List.range n).map fun i => sub tab (16 * i) 16)
    let f := if byteAt h 7 ≤ 2 then (BitVec.ofNat 32 (byteAt h 7), r.2) else r.2.free
    { f.2.setRb Reg.SYS_BOOTSTAT 8 r.1 with sys := { f.2.sys with start := fld f.1 1 0 } }

/-- The boot configuration of Keep, applied last (03 R116). -/
def bootConfig (s : State) : State :=
  let h := s.rdBytes (keepPage 80) 16
  let n := ofLE (sub h 6 2)
  let rs := s.rdBytes (keepPage 80 + 16) (8 * n)
  if ofLE (sub h 0 4) = 0x4746434B ∧ ofLE (sub h 4 2) = 1 ∧ n ≤ 8190 ∧ ofLE (sub h 12 4) = (crc32c (h.take 12 ++ rs)).toNat then
    (s.setRb Reg.SYS_BOOTSTAT 11 true).configRecords rs n
  else s

/-! ## Steps 7 to 12 -/

/-- Step 10 (18 R544, R559; 03 R630; 04 R132): OWNER, the QSPI guard, the domains of a station, S0–S3 released where a Pulp runs. -/
def bootRights (s : State) : State :=
  let s := s.setBootPhase 10
  let s := (List.range 37).foldl (fun t p => t.setReg (Reg.OWNER p)
    (if p = 0x23 then 0x80000030 else if p = 0x1B then 0x80000033 else if p = 0x22 ∨ p = 0x24 then 0x80000037 else 0x8000003F)) s
  let s := (s.setReg Reg.QSP_GUARD_LO (BitVec.ofNat 32 projectAddr)).setReg Reg.QSP_GUARD_HI
    (BitVec.ofNat 32 (min (2 ^ s.rf Reg.QSP_SIZE 7 0) (projectAddr + 0x800000)))
  let s := if s.isStn then [3, 4, 5, 12].foldl (fun t d => ((t.domForce d 0).setReg (Reg.PWR_REQ d) 0).raise 8 (d + 512)) s else s
  if s.rb Reg.SYS_BOOTSTAT 10 then s
  else { (List.range 4).foldl (fun t i => t.setCore (68 + i) { run := .exec }) s with svrel := 0xF }

/-- Steps 10 and 11 and the preparation of step 12: without a boot project where the boot ends at step 10 (03 rows 3, 4), without step 12 where it ends at
step 11 (row 4). -/
def bootLast (s : State) : State :=
  let cold := s.rb Reg.SYS_RESETCAUSE 7
  let s := s.bootRights
  if s.rb Reg.SYS_STRAPS 2 || s.rb Reg.SYS_BOOTSTAT 10 || s.bootHost then s.bootConfig.mapCheck
  else
    let s := ((s.setBootPhase 11).bootProject cold).bootConfig.mapCheck
    if s.rb Reg.SYS_BOOTSTAT 8 && s.sys.start != 0 then s.setBootPhase 12 else s

/-- Steps 8 and 9: Pulp from its slots, or from the host (03 R106, R109, R112). -/
def bootPulp (s : State) : State :=
  let s := s.setBootPhase 8
  if s.bootHost then { s with sys := { s.sys with hostWait := true } }
  else
    match s.slotPick 2 (s.slotOrder 2) false with
    | some (k, d, second) => (((s.setRb Reg.SYS_BOOTSTAT 5 (k == 1)).pulpTaken d).slotFallback second).bootLast
    | none => (s.setRb Reg.SYS_BOOTSTAT 10 true).bootLast

/-- The record of a slot as installed (18 R558). -/
def slotRecord (seq len : Nat) : List Byte :=
  let b := leBytes 4 0x544F4C53 ++ leBytes 4 seq ++ leBytes 4 len
  b ++ leBytes 4 (crc32c b).toNat

/-- A staged image goes into the lower-ranked slot of its target (18 R567). -/
def install (s : State) (d : Drupe) (img : List Byte) : State :=
  let slot := if s.slotBFirst d.target then 0 else 1
  let seq := (List.range 2).foldl (fun n k => if s.slotValid d.target k then max n (s.slotSeq d.target k) else n) 0 + 1
  let a := slotAddr d.target slot
  let s := s.flashErase a 0x1000
  let s := (s.flashErase (a + 0x1000) (4096 * (d.npiece + 1))).wrBytes (Key.flash + a + 0x1000) img
  (s.wrBytes (Key.flash + a) (slotRecord seq img.length)).putSess noSess

/-- The image in the staging area, header and pieces (18 R557). -/
def stagedImage (s : State) : List Byte :=
  let h := s.flashRd stagingAddr 256
  h ++ s.flashRd (stagingAddr + 0x1000) (4096 * min (ofLE (sub h 10 2)) 96)

/-- Step 7: a complete pending update is verified, and installed or rejected (03 R111; 18 R567). -/
def bootUpdate (s : State) : State :=
  let s := s.setBootPhase 7
  let t := s.sess
  if t.state ≠ 2 then s.bootPulp
  else
    let img := s.stagedImage
    let note := fun (s : State) (r arb : Nat) =>
      { s.setReg Reg.UPD_LASTRES (BitVec.ofNat 32 (r + 16 * (t.target % 4))) with sys := { s.sys with upd := some (r, t.target, arb) } }
    match s.verifyImage t.target img with
    | .bad r => (note (s.putSess noSess) r 0).bootPulp
    | .good d =>
      let s := note (s.install d img) 1 d.arb
      if d.target = 1 then let u := s.sys.upd; let s := s.beginReset false 3; { s with sys := { s.sys with upd := u } }
      else (s.setRb Reg.SYS_BOOTSTAT 7 true).bootPulp

/-- QSP_CFG as the ROM sets it from the flash's own table (03 R107), which the device does not hold: free values say whether it can be read and names a quad
read. -/
def bootQspi (s : State) : State :=
  let f := s.free
  f.2.setReg Reg.QSP_CFG (BitVec.ofNat 32 (if fld f.1 0 0 = 0 then 0xF
    else 3 + 16 * fld f.1 1 1 + 32 * bn (decide (24 < f.2.rf Reg.QSP_SIZE 7 0))))

/-- The ROM installs a complete staged Stone where no slot passes (03 R108); an image that does not verify is dropped (log 22). -/
def romInstall (s : State) : State :=
  let t := s.sess
  if t.state ≠ 2 ∨ t.target ≠ 1 then s
  else
    let img := s.stagedImage
    let note := fun (s : State) (r arb : Nat) =>
      { s.setReg Reg.UPD_LASTRES (BitVec.ofNat 32 (r + 16)) with sys := { s.sys with upd := some (r, 1, arb) } }
    match s.verifyImage 1 img with
    | .bad r => note (s.putSess noSess) r 0
    | .good d => (note (s.install d img) 1 d.arb).setRb Reg.SYS_BOOTSTAT 7 true

/-- Steps 5 and 6: Stone from its slots, or from the host (03 R106–R108, R112); where neither slot passes, from a staged image that the ROM installs. -/
def bootStone (s : State) : State :=
  let s := (s.setBootPhase 5).bootQspi
  if s.bootHost then { s with sys := { s.sys with hostWait := true } }
  else
    match s.slotPick 1 (s.slotOrder 1) false with
    | some (k, d, second) => (((s.setRb Reg.SYS_BOOTSTAT 4 (k == 1)).stoneTaken d).slotFallback second).bootUpdate
    | none =>
      let s := s.romInstall
      match s.slotPick 1 (s.slotOrder 1) false with
      | some (k, d, _) => ((s.setRb Reg.SYS_BOOTSTAT 4 (k == 1)).stoneTaken d).bootUpdate
      | none => s.bootFail 2

/-- The ROM starts (03 R104): steps 1 to 4, then Stone. A Stone installed before this reset is still to be told (18 R567; DEDUCED). The SerDes PLLs lock to reference
clocks that are there (DEDUCED, log 26). -/
def romGo (s : State) (o : BootObs) : State :=
  if !s.sys.inReset || !s.pwr.mainOk then s
  else
    let cold := s.rb Reg.SYS_RESETCAUSE 7
    let s := { s with sys := { s.sys with inReset := false } }
    let s := if cold then (s.setReg Reg.SYS_STRAPS (o.straps.setWidth 32)).setReg Reg.CLK_LOCK 0x3F else s
    let s := if s.isStn then s.setReg Reg.SCN_STAT 3 else s
    let s := s.bootDomains
    let s := s.setRf Reg.CLK_REFSTAT 3 2 (s.rf Reg.CLK_LOCK 5 4)
    let s := match s.sys.upd with
      | some (r, t, _) => (s.setReg Reg.UPD_LASTRES (BitVec.ofNat 32 (r + 16 * (t % 4)))).setRb Reg.SYS_BOOTSTAT 7 (r == 1)
      | none => s
    if !o.fuseOk then s.bootFail 3
    else
      let r := s.bootSelfTest cold o.selfTest o.finds
      if r.1 then r.2.keepRecover.bootCurve.bootStone else r.2

/-- SYS_HOSTBOOT.GO while a step waits (03 R112, R113). A LENGTH that is not a multiple of 4, or above 1 MiB, is a host error: a free value says whether the
image passes (R125). -/
def hostGo (s : State) : State :=
  if !s.sys.hostWait || !s.rb Reg.SYS_HOSTBOOT 31 then s
  else
    let len := s.rf Reg.SYS_HOSTBOOT 20 0
    let target := if s.bootPhase = 5 then 1 else 2
    let img := s.sramRd 0 len
    let s := s.setRb Reg.SYS_HOSTBOOT 31 false
    let bad := 0x100000 < len || len % 4 != 0
    let f := if bad then s.free else (0, s)
    let s := f.2
    let c : ImgCheck := match drupeFields img with
      | some d => if bad && fld f.1 0 0 == 1 then .good d else if len = 256 + 4096 * d.npiece then s.verifyImage target img else .bad 2
      | none => .bad 2
    match c with
    | .bad _ => s.setRf Reg.SYS_BOOTSTAT 15 12 4
    | .good d =>
      let s := { s with sys := { s.sys with hostWait := false } }
      if target = 1 then (s.stoneTaken d).bootUpdate else (s.pulpTaken d).bootLast

/-- A write of SYS_HOSTBOOT. -/
def hostbootWrite (s : State) (v : Word) : State :=
  (s.setReg Reg.SYS_HOSTBOOT ((v &&& 0x1FFFFF) ||| (s.reg Reg.SYS_HOSTBOOT &&& 0x80000000) ||| (v &&& 0x80000000))).hostGo

/-- The end of BOOT (03 R91 rows 3–6, R117), and what is told then (16 R508; 15 R492; 17 R535; 18 R567; 03 R123). -/
def bootEnd (s : State) (us : Nat) : State :=
  if s.mode ≠ Mode.boot ∨ s.sys.inReset ∨ s.sys.hostWait ∨ s.bootPhase < 10 ∨ 12 < s.bootPhase then s
  else
    let s := (s.setReg Reg.SYS_BOOTTIME (BitVec.ofNat 32 us)).raise 1 us
    let svc := s.rb Reg.SYS_STRAPS 2 || s.rb Reg.SYS_BOOTSTAT 10
    let run := s.sys.start = 2
    let s := if svc then s.changeMode Mode.service 3
      else if s.bootHost || !s.rb Reg.SYS_BOOTSTAT 8 || s.sys.start == 0 then s.changeMode Mode.config 4
      else if s.isStn then s.changeMode Mode.stnSafe 6
      else let s := s.changeMode Mode.stop 5; { s with sys := { s.sys with auto := run } }
    let s := s.rtcBootAlarms
    let s := if s.rb Reg.SYS_RESETCAUSE 2 then s.raise 172 (s.reg Reg.WDT_EVID_INFO).toNat else s
    let s := if s.rf Reg.KEEP_STAT 1 0 ≠ 0 then s.raise 178 (s.rf Reg.KEEP_RECPAGE 14 0 + 65536 * s.rf Reg.KEEP_STAT 1 0) else s
    let s := match s.sys.upd with
      | some (1, t, arb) => s.raise 206 (t % 4 + 256 * (arb % 128))
      | some (r, _, _) => s.raise 207 r
      | none => s
    let s := { s with sys := { s.sys with upd := none } }
    if s.rb Reg.SYS_RESETCAUSE 17 then s.raise 12 0 else s

/-- The end of the soft reset of page `p` (02 R54): what the block's own rules add (12 R424, 13 R447), READY and BUSY. -/
def softEnd (s : State) (p : Nat) : State :=
  if !s.softRst.contains p then s
  else
    let err := s.reg (Reg.CAN_ERRCNT (p - 0x11))
    let s := s.softClear p
    let s := match p with
      | 0x0D => { s with vuv := {}, stn := {} }
      | 0x10 => s.tpoReset
      | 0x11 | 0x12 | 0x13 | 0x14 => s.canSoft (p - 0x11) err
      | 0x1A => { s with svc := {} }
      | _ => s
    let f := s.fn (fnPage p)
    let ready := if 0x11 ≤ p ∧ p ≤ 0x14 then f.toward == none && f.base == 1 else s.rb (Reg.PAGE_CTRL p) 0
    ({ s with softRst := s.softRst.filter (· != p) }.setRb (Reg.PAGE_STAT p) 0 ready).syncBusy p

/-! ## Accesses that may reach SYS_HOSTBOOT -/

/-- A write by an agent; one that sets SYS_HOSTBOOT.GO is taken by the boot step that waits (03 R112). -/
def agentStore (s : State) (ag : Agent) (a : Nat) (bs : List Byte) : State := (s.agentWrite ag a bs).hostGo

end State

open State

/-! ## The commands -/

/-- REGISTER_WRITE (00 R11): a write of the `n` low bytes of `v`, the lowest first, with a gap in its byte enables or without (02 R81). -/
def execRegisterWrite (ag : Agent) (addr : Word) (n : Extent) (v : DWord) (s : State) : Res State :=
  .next (if s.agentWaits ag addr.toNat n.bytes then s
    else match s.gapAt ag addr.toNat n.gap with
    | some d => s.gapAccess ag d true
    | none => s.agentStore ag addr.toNat (leBytes n.bytes v.toNat))

/-- SOFT_RST_END (02 R54). -/
def execSoftRstEnd (page : Fin 37) (s : State) : Res State := .next (s.softEnd page)

/-- ROM_START (03 R104): outside a reset, or without supplies, no ROM starts. -/
def execRomStart (obs : BootObs) (s : State) : Res State := .next (s.romGo obs)

/-- HOSTBOOT_GO (03 R112). -/
def execHostbootGo (ag : Agent) (v : Word) (s : State) : Res State := .next (s.regWrite ag Reg.SYS_HOSTBOOT (·.hostbootWrite v))

/-- BOOT_DONE (03 R117). -/
def execBootDone (us : BitVec 24) (s : State) : Res State := .next (s.bootEnd us.toNat)

end Sys2Proof.Machine
end

