-- ==== Sys2Proof/Machine/Flags.lean ====
section
/-! DEFINITION. The results and flags of the Limlis arithmetic (05 R181–R186), on bytes and on words. -/

-- one declaration at a time: many at once take a thread and its stack each
set_option Elab.async false

namespace Sys2Proof.Machine

/-- A result and the flags C, Z, N, V set from it. -/
structure Alu (w : Nat) where
  r : BitVec w
  c : Bool
  z : Bool
  n : Bool
  v : Bool
  deriving DecidableEq, Repr

/-- `a + b + cin`: C is the carry out, V signed overflow (04 R128). -/
def addAlu {w : Nat} (a b : BitVec w) (cin : Bool) : Alu w :=
  let ci : Nat := if cin then 1 else 0
  let sum := a.toNat + b.toNat + ci
  let r := BitVec.ofNat w sum
  { r := r, c := decide (2 ^ w ≤ sum), z := r == 0, n := r.msb, v := decide (a.toInt + b.toInt + (ci : Int) ≠ r.toInt) }

/-- `a - b - (1 - cin)`: C is 1 when no borrow occurs, V signed overflow (04 R128, 05 R181). -/
def subAlu {w : Nat} (a b : BitVec w) (cin : Bool) : Alu w :=
  let bo : Nat := if cin then 0 else 1
  let r := a - b - BitVec.ofNat w bo
  { r := r, c := decide (b.toNat + bo ≤ a.toNat), z := r == 0, n := r.msb, v := decide (a.toInt - b.toInt - (bo : Int) ≠ r.toInt) }

/-- The shifts and rotates of 05 R182. -/
inductive Shift where
  | shl
  | shr
  | asr
  | rol
  | ror
  deriving DecidableEq, Repr

/-- `a` shifted by the full count `c`: result and the new C, none where it is unchanged (05 R182). A count of 8 gives C the bit that
the table names: bit 7 for SHL, bit 0 for SHR. -/
def shiftAlu (op : Shift) (a : Byte) (c : Nat) : Byte × Option Bool :=
  match op with
  | .shl => if c = 0 then (a, none) else (a <<< c, some (if c < 8 then a.getLsbD (8 - c) else c == 8 && a.getLsbD 7))
  | .shr => if c = 0 then (a, none) else (a >>> c, some (if c < 8 then a.getLsbD (c - 1) else c == 8 && a.getLsbD 0))
  | .asr => if c = 0 then (a, none) else (a.sshiftRight c, some (if c ≤ 8 then a.getLsbD (c - 1) else a.msb))
  | .rol => let r := a.rotateLeft (c % 8); if c % 8 = 0 then (a, none) else (r, some (r.getLsbD 0))
  | .ror => let r := a.rotateRight (c % 8); if c % 8 = 0 then (a, none) else (r, some (r.getLsbD 7))

/-- A result of MDV (05 R183, R184): the pair {gd + 1, gd}, C, Z, N, V, and whether D is set. -/
structure Mdv where
  p : Half
  c : Bool
  z : Bool
  n : Bool
  v : Bool
  d : Bool
  deriving DecidableEq, Repr

/-- MULU. -/
def mulu (a b : Byte) : Mdv :=
  let p := BitVec.ofNat 16 (a.toNat * b.toNat)
  ⟨p, decide (256 ≤ a.toNat * b.toNat), p == 0, p.msb, false, false⟩

/-- MULS. -/
def muls (a b : Byte) : Mdv :=
  let m := a.toInt * b.toInt
  let p := BitVec.ofInt 16 m
  ⟨p, decide (m < -128) || decide (127 < m), p == 0, p.msb, false, false⟩

/-- Quotient and remainder as a pair with the flags of a division. -/
def divPair (q r : Byte) : Mdv := ⟨r ++ q, false, q == 0, q.msb, false, false⟩

/-- A division by 0 (05 R184). -/
def divZero (a : Byte) : Mdv := ⟨a ++ 0xFF#8, false, false, true, true, true⟩

/-- DIVU. -/
def divu (a b : Byte) : Mdv := if b = 0 then divZero a else divPair (a / b) (a % b)

/-- DIVS: the quotient truncated toward zero, the remainder with the dividend's sign; −128 / −1 of 05 R184 sets V. -/
def divs (a b : Byte) : Mdv :=
  if b = 0 then divZero a
  else if a = 0x80 ∧ b = 0xFF then ⟨0x0080, false, false, true, true, false⟩
  else divPair (BitVec.ofInt 8 (a.toInt.tdiv b.toInt)) (BitVec.ofInt 8 (a.toInt.tmod b.toInt))

end Sys2Proof.Machine
end

