-- ==== Sys2Proof/Machine/Operands.lean ====
section
/-! DEFINITION. The operands of the Limlis instructions (04 R127–R132): registers, pairs, flags, the bit stack, and the writing of results at
their distances. -/

-- one declaration at a time: many at once take a thread and its stack each
set_option Elab.async false

namespace Sys2Proof.Machine

namespace Ctx

/-- General register `r` (04 R127). -/
def reg (x : Ctx) (r : Nat) : Byte := Sparse.get (fun _ => 0) x.g r
def setReg (x : Ctx) (r : Nat) (v : Byte) : Ctx := { x with g := Sparse.set (fun _ => 0) x.g r v }
/-- The pair {g(r + 1), g(r)}. -/
def pair (x : Ctx) (r : Nat) : Half := x.reg (r + 1) ++ x.reg r
def setPair (x : Ctx) (r : Nat) (v : Half) : Ctx := (x.setReg r (v.setWidth 8)).setReg (r + 1) ((v >>> 8).setWidth 8)

/-- FLAGS as a special register (04 R128). -/
def flags (x : Ctx) : Byte := BitVec.ofNat 8 (bn x.fc + 2 * bn x.fz + 4 * bn x.fn + 8 * bn x.fv + 16 * bn x.fk + 32 * bn x.fd)
def setFlags (x : Ctx) (v : Byte) : Ctx :=
  { x with fc := v.getLsbD 0, fz := v.getLsbD 1, fn := v.getLsbD 2, fv := v.getLsbD 3, fk := v.getLsbD 4, fd := v.getLsbD 5 }
/-- C, Z, N and V set. -/
def setCznv (x : Ctx) (c z n v : Bool) : Ctx := { x with fc := c, fz := z, fn := n, fv := v }
/-- Z and N set from a byte. -/
def setZn (x : Ctx) (r : Byte) : Ctx := { x with fz := r == 0, fn := r.msb }

/-- Push a bit (04 R129, R130). -/
def push (x : Ctx) (k : Bool) : Ctx :=
  { x with ks0 := (x.ks0 <<< 1) ||| (if k then 1 else 0), depth := if x.depth < 8 then x.depth + 1 else 8, ovf := x.ovf || decide (8 ≤ x.depth) }
/-- Pop: the bit and the stack after it (04 R129, R130). At depth 0 KS0 is not shifted (DESIGN CHOICE, log 51: R130 names K, the depth and UNF only). -/
def pop (x : Ctx) : Bool × Ctx :=
  if x.depth = 0 then (false, { x with unf := true })
  else (x.ks0.getLsbD 0, { x with ks0 := x.ks0 >>> 1, depth := x.depth - 1 })
/-- KS1 (04 R129). -/
def ks1 (x : Ctx) : Byte := BitVec.ofNat 8 (x.depth + 64 * bn x.unf + 128 * bn x.ovf)

/-- A result that reaches its destination (04 R149). -/
def put (x : Ctx) : Dest → Half → Ctx
  | .g r, v => x.setReg r.toNat (v.setWidth 8)
  | .zn z n, _ => { x with fz := z, fn := n }
  | .cznv c z n v, _ => x.setCznv c z n v
  | .d, _ => { x with fd := true }
  | .k, v => { x with fk := v.getLsbD 0 }
  | .pbk, v => { x with wPbk := v.setWidth 8 }
  | .tbk, v => { x with wTbk := v.setWidth 2 }
  | .ims, v => { x with wIms := v.setWidth 2 }
  | .sbk, v => { x with wSbk := v.setWidth 6 }
  | .far, v => { x with wFar := v }

/-- One more instruction of the context has executed: the results whose distance has passed are written, oldest first (04 R149, R151); stores two
instructions old are seen by the next load. -/
def land (x : Ctx) : Ctx :=
  let due := x.flights.filter (·.left ≤ 1)
  let x := due.foldl (fun (y : Ctx) f => y.put f.dest f.val) x
  { x with
    flights := (x.flights.filter (1 < ·.left)).map fun f => { f with left := f.left - 1 }
    recent := (x.recent.filter (·.age < 2)).map fun r => { r with age := r.age + 1 }
    baseOld := (x.baseOld.filter (·.2.1 < 2)).map fun b => (b.1, b.2.1 + 1, b.2.2)
    sealed := x.sealed - 1 }

/-- The condition of BR (05 R187). -/
def cond (x : Ctx) : Nat → Bool
  | 0 => true
  | 1 => x.fz
  | 2 => !x.fz
  | 3 => x.fc
  | 4 => !x.fc
  | 5 => x.fn
  | 6 => !x.fn
  | 7 => x.fv
  | 8 => !x.fv
  | 9 => x.fc && !x.fz
  | 10 => !x.fc || x.fz
  | 11 => x.fn == x.fv
  | 12 => x.fn != x.fv
  | 13 => !x.fz && x.fn == x.fv
  | _ => x.fz || x.fn != x.fv

/-- The condition of BRF (05 R188). -/
def condF (x : Ctx) : Nat → Bool
  | 0 => x.fk
  | 1 => !x.fk
  | 2 => x.fd
  | _ => !x.fd

end Ctx

end Sys2Proof.Machine
end

