-- ==== Sys2Proof/Machine/LimlisCore.lean ====
section
/-! DEFINITION. What every executed Limlis instruction shares (04 R143–R159, 05 R164–R174): whether the core may issue, forced faults and breakpoints,
distances, the repetition, the seal and the lock, and the next address. -/

-- one declaration at a time: many at once take a thread and its stack each
set_option Elab.async false

namespace Sys2Proof.Machine

/-- Words of program memory a core's PC addresses (04 R126). -/
def pcSize (c : Nat) : Nat := if c < 68 then 16384 else 32768

/-- Where control goes after an instruction: on in sequence, past the next instruction (a REP with count 0), or through a delay slot to a target
or, for a branch not taken, on. -/
inductive Goes where
  | seq
  | skip
  | slot (t : Option Nat)
  deriving DecidableEq, Repr

/-- What an instruction does: the state after its accesses and effects outside the context, the results of the ALU class, the results that its
distance delays, where control goes, and whether it took effect at all (a store that overflows the staged buffer does not, 06 R206). -/
structure Eff where
  st : State
  now : Ctx → Ctx := id
  fly : List (Dest × Half) := []
  goes : Goes := .seq
  did : Bool := true

/-- The kinds of instruction that the prohibitions of 04 R160 and 05 R191 name: beside control flow, REP and memory instructions, SEAL and STEP (`mark`),
LCK and BRK (`lockMark`), EVRET (`ending`), HALT (`halting`). -/
inductive Kind where
  | plain
  | mem
  | branch
  | repPrefix
  | mark
  | lockMark
  | ending
  | halting
  deriving DecidableEq, Repr

namespace State

/-- The core is a solving lane outside a task. -/
def solves (s : State) (c : Nat) : Bool := decide (c < 68) && (s.cx c).task.isNone && (s.scanOf c).any fun k => s.laneRole k == 1

/-- The number under which a context keeps its buffers (00 R8). -/
def ctxAgent (s : State) (c : Nat) : Nat := 8 + 8 * c + (s.core c).cur

/-- Core `c` may issue an instruction: a scan lane in its segment or in a task that no halt or stop holds (R637 grants two more clk), with the domains of its
Bunch and of the active half ON; a service lane or the Steward that runs. -/
def canIssue (s : State) (c : Nat) : Bool :=
  let k := s.core c
  s.pwr.coreRun && !k.faulty && !k.ovf && !k.dbgHalt &&
    (if c < 68 then
      (k.run == .exec || (k.run == .stopped && decide (0 < k.grace))) && (!k.held || decide (0 < k.grace) || k.credit) &&
        s.domOn (2 + c / 17) && s.domOn (6 + s.activeHalf) && (s.scanOf c).isSome
    else k.run == .exec)

/-- The registers of the current context of core `c` are free values (04 R160, 05 R191): general and special ones, with what a window in flight would set. -/
def freeRegs (s : State) (c : Nat) : State :=
  let f := s.freeBytes (List.replicate 42 0)
  let b := fun i => f.1.getD i 0
  let x := (List.range 32).foldl (fun (y : Ctx) r => y.setReg r (b r)) (f.2.cx c)
  f.2.setCx c { x.setFlags (b 32) with
    rc := b 33, ks0 := b 34, depth := (b 35).toNat % 9, unf := (b 35).getLsbD 6, ovf := (b 35).getLsbD 7
    pbk := b 36, tbk := (b 37).setWidth 2, ims := ((b 37) >>> 2).setWidth 2, sbk := ((b 38)).setWidth 6, cpg := (b 38).getLsbD 7, far0 := b 39, far1 := b 40
    wPbk := b 36, wTbk := (b 37).setWidth 2, wIms := ((b 37) >>> 2).setWidth 2, wSbk := ((b 38)).setWidth 6, wFar := b 41 ++ b 39, flights := [] }

/-- The control flow of the current context of core `c` is a free value: where it goes on, with or without a delay slot or a repetition. -/
def freeFlow (s : State) (c : Nat) : State :=
  let p := s.free
  let q := p.2.free
  let n := q.1.toNat % pcSize c
  q.2.setCx c { q.2.cx c with
    pc := p.1.toNat % pcSize c
    slot := if q.1.getLsbD 31 then .taken n else if q.1.getLsbD 30 then .untaken else .none
    rep := if q.1.getLsbD 29 then some ⟨n % 33, 0, false, false⟩ else none
    beat := none }

/-- The lock that LCK opens or renews: a group already held stays held (04 R158). -/
def lockNew (y : Ctx) (n : Nat) : Ctx := { y with lock := if n = 0 then y.lock else some ⟨n, 8, (y.lock.map (·.group)).getD none⟩ }

/-- The locking of the current context of core `c` is a free value (04 R160, 05 R191): its open lock ends, stays, or is opened or renewed with 1 to 4. -/
def freeLock (s : State) (c : Nat) : State :=
  let f := s.free
  let n := f.1.toNat % 6
  if n = 5 then f.2.endLock c (f.2.core c).cur else f.2.setCx c (lockNew (f.2.cx c) n)

/-- The preemption of the current context of core `c` is a free value (04 R160): its seal. -/
def freeSeal (s : State) (c : Nat) : State :=
  let f := s.free
  f.2.setCx c { f.2.cx c with sealed := f.1.toNat % 9 }

/-- Whether an instruction of this kind stands where 04 R160 or 05 R191 forbids it: control flow, REP, HALT or EVRET in a delay slot; anything that is
not a plain or memory instruction behind REP. -/
def misplaced (x : Ctx) (k : Kind) : Bool :=
  (x.slot != .none && (k == .branch || k == .repPrefix || k == .ending || k == .halting)) || (x.rep.isSome && k != .plain && k != .mem)

/-- The lane has issued one of the instructions that a halt, a stop or a step leaves it (06 R230, R637). -/
def spent (s : State) (c : Nat) : State :=
  let cs := s.core c
  let s := s.setCore c { cs with grace := cs.grace - 1, credit := false }
  if cs.stop.isSome && decide (cs.grace ≤ 1) then s.endStop c else s

/-- An instruction of kind `k` that stands where it may not: control flow and registers are free (04 R160), and locking too where REP stands in front of LCK, BRK or
HALT (05 R191). It has issued. -/
def misplacedAt (s : State) (c : Nat) (k : Kind) : State :=
  let l := (s.cx c).rep.isSome && (k == .lockMark || k == .halting)
  let s := (s.freeRegs c).freeFlow c
  let s := if l then s.freeLock c else s
  let s := s.setCx c { s.cx c with skipBp := false }
  (s.spent c).stepDone

/-- The lock's counts after an instruction (04 R157, R158): a memory instruction counts toward n, with the last repetition of a repeated one; every
instruction counts toward the limit of 8, a REP prefix together with what it repeats, so that one of count 0 counts for itself. -/
def countLock (x : Ctx) (k : Kind) (goes : Goes) (last : Bool) : Ctx :=
  if (k = .repPrefix ∧ goes ≠ .skip) ∨ !last then x
  else { x with lock := x.lock.map fun l => { l with mem := if k = .mem then l.mem - 1 else l.mem, limit := l.limit - 1 } }

/-- The next address and the delay slot (04 R143–R145), the repetition's progress (05 R170). -/
def advance' (x : Ctx) (size : Nat) (goes : Goes) (last : Bool) : Ctx :=
  let next := match x.slot with | .taken t => t | _ => (x.pc + 1) % size
  match goes with
  | .seq => if last then { x with pc := next, slot := .none, rep := none } else { x with rep := x.rep.map fun r => { r with done := r.done + 1 } }
  | .skip => { x with pc := (x.pc + 2) % size, slot := .none }
  | .slot none => { x with pc := next, slot := .untaken }
  | .slot (some t) => { x with pc := next, slot := .taken t }

/-- The instruction has executed (04 R149–R159): results land, its own are written or take flight, counts go on, control moves, and a lock whose n-th memory
instruction this was ends (R157). -/
def retire (s : State) (c : Nat) (k : Kind) (x0 : Ctx) (e : Eff) : State :=
  let last := match x0.rep with | some r => decide (r.count ≤ r.done + 1) | none => true
  let x := advance' (countLock (s.cx c) k e.goes last) (pcSize c) e.goes last
  let x := e.now { x.land with skipBp := false, beat := none }
  let s := s.setCx c { x with flights := x.flights ++ e.fly.map fun d => ⟨2, d.1, d.2⟩ }
  let s := if (s.cx c).lock.any (·.mem == 0) then s.endLock c (s.core c).cur else s
  s.spent c

/-- A lock whose limit has passed is over (04 R158). -/
def lockExpire (s : State) (c : Nat) : State :=
  if (s.cx c).lock.any (·.limit == 0) then s.endLock c (s.core c).cur else s

/-- Key of the instruction word that core `c` fetches at address `pc`. -/
def instrKey (s : State) (c pc : Nat) : Nat := Key.instr c (if c < 68 then s.activeHalf else 0) pc

/-- A fetch of an uncorrectable word (19 R582): a lane fault with cause 5; a service lane halts and sets its SVFLT bit, the Steward halts. -/
def fetchFault (s : State) (c pc : Nat) : State :=
  if c < 68 then ((s.ueRecord 0 c s.activeHalf pc).raise 210 (ueDetail c pc)).laneFault c 5 else (s.ueRecord 0 c 0 pc).svcStop c

/-- A lane that stands at a BRK that has hit leaves it behind when it resumes, as an instruction that does nothing (06 R235; DEDUCED, log 19). -/
def passBrk (s : State) (c : Nat) : State :=
  let x := s.cx c
  if x.atBrk then s.setCx c { (advance' (countLock x .lockMark .seq true) (pcSize c) .seq true).land with atBrk := false } else s

/-- The instruction executes, and `post` follows it. -/
def finish (s : State) (c : Nat) (k : Kind) (body : Ctx → State → Eff) (post : State → State) : State :=
  let s := s.lockExpire c
  let x := s.cx c
  let e := body x s
  if e.did then (post (e.st.retire c k x e)).stepDone else e.st

/-- Core `c` executes an instruction of kind `k` with effect `body`, and `post` follows its execution. A core that may not issue does nothing; a forced fault or a breakpoint comes before the
instruction, which then has no effect (06 R227, R240, R637). An instruction whose first beat is taken has issued and goes on. -/
def issueThen (s : State) (c : Nat) (k : Kind) (body : Ctx → State → Eff) (post : State → State) : State :=
  if !s.canIssue c then s
  else if (s.cx c).beat.isSome then s.finish c k body post
  else
    let s := s.passBrk c
    if (s.core c).forced then s.laneFault c 6
    else
      let x := s.cx c
      let sk := (s.scanOf c).getD 0
      if decide (c < 68) && !x.skipBp && s.bpMatch sk x.pc then s.breakHit c sk x.pc none
      else if s.eccMark (instrKey s c x.pc) = 2 then s.fetchFault c x.pc
      else if misplaced x k then s.misplacedAt c k
      else s.finish c k body post

/-- An instruction without a consequence beyond its effect. -/
def issue (s : State) (c : Nat) (k : Kind) (body : Ctx → State → Eff) : State := s.issueThen c k body id

/-- A register field that names a pair must be even; an odd one is a host error (05 R162). -/
def evenRegs (rs : List GReg) : Bool := rs.all fun r => r.toNat % 2 == 0

/-- An instruction of the ALU class: what it does to its context, seen by the next instruction (04 R149). -/
def aluOp (s : State) (c : Core) (f : Ctx → Ctx → Ctx) : State := s.issue c .plain fun x s => { st := s, now := f x }

end State
end Sys2Proof.Machine
end

