-- ==== Sys2Proof/Machine/LimlisMem.lean ====
section
/-! DEFINITION. The memory instructions of the Limlis core (05 R175–R179): the windows of the data maps (04 R135, R139), staged stores, lane control
(04 R141, R142; 12 R418; 14 R462), and the addresses of a repeated instruction (05 R172, R173). -/

-- one declaration at a time: many at once take a thread and its stack each
set_option Elab.async false

namespace Sys2Proof.Machine

/-- What a data address names on a core (04 R135, R139). -/
inductive Place where
  | scratch (k : Nat)
  | exch (o : Nat)
  | input (o : Nat)
  | output (o : Nat)
  | status (o : Nat)
  | zero
  /-- IMS = 3: a host error (04 R160). -/
  | bad (o : Nat)
  | pantry (k : Nat)
  | cell (n i : Nat)
  | const (k : Nat)
  | control (o : Nat)
  | sram (k : Nat)
  | far (a : Nat)
  deriving DecidableEq, Repr

/-- How an access ends: with a byte, with its core stalled, or with a fault in whose clk the instruction has no effect. -/
inductive Acc where
  | ok (b : Byte) (s : State)
  | stall (s : State)
  | fault (s : State)

/-- The data maps, with the windows as memory instructions see them (04 R149). -/
def placeOf (c half : Nat) (x : Ctx) (a : Nat) : Place :=
  if c < 68 then
    if a < 0x2000 then .scratch (Key.scratch c + a)
    else if a < 0x4000 then .exch (a - 0x2000)
    else if a < 0x8000 then
      let o := a - 0x4000
      match x.wIms.toNat with
      | 0 => .input o
      | 1 => .output o
      | 2 => if o < 0x400 then .status o else .zero
      | _ => .bad o
    else if a < 0xC000 then .pantry (Key.pantry + x.wPbk.toNat * 0x4000 + (a - 0x8000))
    else if a < 0xE000 then .cell (x.wTbk.toNat * 1024 + (a - 0xC000) / 8) (a % 8)
    else if a < 0xF000 then .const (Key.const c half + (a - 0xE000))
    else .control (a - 0xF000)
  else if a < 0x4000 then .sram (Key.sram + x.wSbk.toNat * 0x4000 + a)
  else if a < 0x6000 then .scratch (Key.scratch c + (a - 0x4000))
  else if a < 0x7000 then .zero
  else if a < 0x8000 then .control (a - 0x7000)
  else .far (x.wFar.toNat * 0x8000 + (a - 0x8000))

/-- The agent that a service lane or the Steward is on the fabric. -/
def farAgent (c : Nat) : Agent := match c with | 68 => .svc 0 | 69 => .svc 1 | 70 => .svc 2 | 71 => .svc 3 | _ => .steward

/-- The memory byte under which the store distance remembers a place (04 R149); registers, Keep and counts of cells are none. -/
def placeKey : Place → Option Nat
  | .scratch k | .pantry k | .sram k => some k
  | .exch o => some (Key.exch + o)
  | .output o => some (Key.output + o)
  | .cell n 7 => some (Key.cells + 8 * n + 7)
  | .far a =>
    match State.region a with
    | some r => if r.isPage || r.page == 0x17 || (decide (Key.cells ≤ a) && decide (a < Key.cells + 0x8000)) then none else some a
    | none => none
  | _ => none

namespace State

/-! ## Staged stores (04 R137, 06 R206) -/

/-- A byte with the lane's own staged entries over it; the inputs of a cell are bits 1 to 4 of its STATUS. -/
def overlay (s : State) (c : Nat) (w : Staged) (b : Byte) : Byte :=
  (s.core c).swb.foldl (fun v e =>
    if e.what = w then (match w with | .cell _ => putBits v (e.mask <<< 1) (e.val <<< 1) | _ => putBits v e.mask e.val) else v) b

/-- One entry more; a 513th is a lane fault with cause SWB_OVF and the store is not performed (06 R206). -/
def stagePut (s : State) (c : Nat) (e : Entry) : Acc :=
  let k := s.core c
  if k.swb.length < 512 then .ok 0 (s.setCore c { k with swb := k.swb ++ [e], peak := max k.peak (k.swb.length + 1) }) else .fault (s.laneFault c 4)

/-! ## Locked sequences (04 R157; 07 R266) -/

/-- The Pantry bank group of a key (07 R243). -/
def groupOf (k : Nat) : Nat := (k - Key.pantry) / 0x40000

/-- The bank arbiter that a load from a place asks for (07 R246, R259, R633). -/
def loadArb : Place → Option Nat
  | .input o | .output o | .exch o => some (0x10 + o / 128 % 16)
  | .status o => some (0x10 + o / 8 % 16)
  | .pantry k => some (0x20 + groupOf k)
  | .cell _ _ => some 0x30
  | _ => none

/-- The bank arbiter that a store of context `x` asks for: in the Pantry, and for a count of a FREE timer cell by an event task (07 R633, 08 R286). -/
def storeArb (s : State) (x : Ctx) : Place → Option Nat
  | .pantry k => some (0x20 + groupOf k)
  | .cell n i => if x.task.isSome && s.cellFree n && decide (i < 6) then some 0x30 else none
  | _ => none

/-- A Pantry access to another bank group ends the lock before that access (04 R157). -/
def leaveGroup (s : State) (c id : Nat) : State :=
  match (s.cx c).lock.bind (·.group) with
  | some h => if decide (0x20 ≤ id) && decide (id < 0x30) && id != 0x20 + h then s.endLock c (s.core c).cur else s
  | none => s

/-- An open lock without a group takes that of its first Pantry access, and with it the arbiters (04 R157, 07 R266). -/
def takeGroup (s : State) (c id : Nat) : State :=
  match (s.cx c).lock with
  | some l =>
    if l.group.isNone && decide (0x20 ≤ id) && decide (id < 0x30) then
      (s.setCx c { s.cx c with lock := some { l with group := some (id - 0x20) } }).ownOnly c [id, c / 17]
    else s
  | none => s

/-- Lane `c` asks its Bunch arbiter and bank arbiter `id` for a beat (07 R259): it waits while another lane's transfer or locked sequence holds one of them, while a
merge or the publish copy uses the image banks (R252), and while the timer cells update (08 R280). Its own transfer at another bank ends before. -/
def grant (s : State) (c id : Nat) : Bool × State :=
  let s := s.leaveGroup c id
  let s := s.ownOnly c (s.lockOwned c ++ (s.owned c).filter fun i => i == id || decide (i < 4))
  if s.bankBusy id || (s.arb id).owner.any (· != c) || (s.arb (c / 17)).owner.any (· != c) then (false, s) else (true, s.takeGroup c id)

/-- An access of lane `c` that needs bank arbiter `id`. -/
def granted (s : State) (c id : Nat) (f : State → Acc) : Acc :=
  let g := s.grant c id
  if g.1 then f g.2 else .stall g.2

/-- After a beat at bank arbiter `id`, with beats of the transfer left, the lane holds that and its Bunch arbiter beside those of an open lock
(05 R174, 07 R266). -/
def keepBeats (s : State) (c : Nat) (left : Bool) (id : Option Nat) : State :=
  s.ownOnly c (s.lockOwned c ++ (if left then (match id with | some i => [i, c / 17] | none => []) else []))

/-! ## Two accesses to one Pantry byte (06 R242, 07 R272) -/

/-- A solving lane's access to Pantry byte `k` meets another's of the same step, one of them a write, or a write of the host, a service lane or the Steward in the
same cycle. -/
def panClash (s : State) (c k : Nat) (w : Bool) : Bool :=
  s.solves c && s.img.acc.any fun e => e.key == k && e.lane != c && (e.lane == 255 || (e.step == (s.core c).stepNo && (w || e.wrote)))

/-- A solving lane's access is noted for the cycle. -/
def panNote (s : State) (c k : Nat) (w : Bool) : State :=
  if s.solves c then s.noteAcc ⟨k, c, (s.core c).stepNo, w⟩ else s

/-! ## Lane control (04 R141, R142) -/

/-- Key of a lane-control register in the buffers of agent number `n`. -/
def lcKey (n o : Nat) : Nat := n * 2 ^ 32 + 0xF0000800 + o

/-- A load of byte `i` of the lane-control register at `o`: byte 0 latches it, later bytes come from the latch (00 R8–R10). -/
def lcLatch (s : State) (n o i : Nat) (v : Word) : Byte × State :=
  if i = 0 then (v.setWidth 8, { s with rbuf := Sparse.set regReset s.rbuf (lcKey n o) v })
  else (BitVec.ofNat 8 ((Sparse.get regReset s.rbuf (lcKey n o)).toNat / 256 ^ i), s)

/-- The word that LC_STWQ shows, and the queue without the entry that a read removes (04 R141). -/
def stwqTake (s : State) : Word × State :=
  match s.evt.stwq with
  | [] => (0, s)
  | (e, q) :: t => (BitVec.ofNat 32 (e.toNat + 256 * q.toNat + 2 ^ 31), { s with evt := { s.evt with stwq := t } })

/-- A load from LC_TPO (12 R418): byte 0 latches NS and SEC. -/
def lcTpoLoad (s : State) (n o i : Nat) : Byte × State :=
  if i = 0 then
    let s := (s.lcLatch n o 0 (BitVec.ofNat 32 s.tim.ns)).2
    let s := (s.lcLatch n (o + 4) 0 (BitVec.ofNat 32 s.tim.sec)).2
    let s := (s.lcLatch n (o + 8) 0 (BitVec.ofNat 32 (s.tim.sec / 2 ^ 32))).2
    (BitVec.ofNat 8 s.tim.ns, s)
  else if i < 10 then (BitVec.ofNat 8 ((Sparse.get regReset s.rbuf (lcKey n (o + i / 4 * 4))).toNat / 256 ^ (i % 4)), s)
  else (0, s)

/-- A byte of the lane-control window loaded (04 R141, R142). -/
def lcLoad (s : State) (c : Nat) (x : Ctx) (o : Nat) : Byte × State :=
  let n := s.ctxAgent c
  let k := s.core c
  let task := decide (c < 68) && x.task.isSome
  if o < 2 then s.lcLatch n 0 o (if c < 68 then BitVec.ofNat 32 k.swb.length else 0)
  else if o < 4 then s.lcLatch n 2 (o - 2) (if c < 68 then BitVec.ofNat 32 k.peak else 0)
  else if 0x0C ≤ o ∧ o < 0x10 then s.lcLatch n 0x0C (o - 0x0C) (x.task.elim 0 (·.arg))
  else if 0x10 ≤ o ∧ o < 0x12 then s.lcLatch n 0x10 (o - 0x10) (x.task.elim 0 fun t => t.seq.setWidth 32)
  else if 0x20 ≤ o ∧ o < 0x24 ∧ c = 72 then
    if o = 0x20 then let r := s.stwqTake; r.2.lcLatch n 0x20 0 r.1 else s.lcLatch n 0x20 (o - 0x20) 0
  else if !task then (0, s)
  else if 0x100 ≤ o ∧ o < 0x120 then
    (BitVec.ofNat 8 (bn (s.rb Reg.RND_INSTATE (o - 0x100)) + 2 * bn (s.rb Reg.RND_OUTAPP (o - 0x100))), s)
  else if 0x120 ≤ o ∧ o < 0x124 then s.lcLatch n 0x120 (o - 0x120) (s.reg Reg.RND_DOUT)
  else if 0x200 ≤ o ∧ o < 0x280 then s.lcTpoLoad n (o / 16 * 16) (o % 16)
  else (0, s)

/-- LC_SWEVT (04 R141): the DETAIL is not given (log 10); with a reserved bit set, a free value says which event is raised, if any (04 R160). -/
def swEvent (s : State) (v : Byte) : State :=
  if v.toNat < 16 then s.raiseFree (240 + v.toNat)
  else
    let f := s.free
    if fld f.1 4 4 = 1 then f.2.raiseFree (240 + fld f.1 3 0) else f.2

/-- The staging buffer of agent number `n` for the lane-control word at `o`. -/
def lcStaged (s : State) (n o : Nat) : Word := Sparse.get stageReset s.stage (lcKey n o)
def lcStage (s : State) (n o : Nat) (w : Word) : State := { s with stage := Sparse.set stageReset s.stage (lcKey n o) w }

/-- A store to LC_RIND by an event task (14 R462): bit c of RND_DOUT, or its bytes, committed at 0x123. -/
def lcRind (s : State) (n o : Nat) (v mask : Byte) : State :=
  if o < 0x120 then
    if mask.getLsbD 0 then s.doutSet (BitVec.ofNat 32 (fld (setFld (s.reg Reg.RND_DOUT) (o - 0x100) (o - 0x100) (bn (v.getLsbD 0))) 31 0)) else s
  else if o < 0x124 then
    let i := o - 0x120
    let old := if mask = 0xFF then 0 else BitVec.ofNat 8 ((s.reg Reg.RND_DOUT).toNat / 256 ^ i)
    let s := s.lcStage n 0x120 (putWord (s.lcStaged n 0x120) i [putBits old mask v])
    if i = 3 then let t := s.doutSet (s.lcStaged n 0x120); t.lcStage n 0x120 (t.reg Reg.RND_DOUT) else s
  else s

/-- A store to byte `i` of the alias of pulse output `t` by an event task (12 R418): byte 15 commits. -/
def lcTpo (s : State) (n t i : Nat) (v : Byte) : State :=
  let o := 0x200 + 16 * t
  let s := s.lcStage n (o + i / 4 * 4) (putWord (s.lcStaged n (o + i / 4 * 4)) (i % 4) [v])
  if i = 15 then
    let w := fun j => s.lcStaged n (o + 4 * j)
    let sec := (w 1).toNat + 2 ^ 32 * fld (w 2) 15 0
    let s := if s.domOn 9 then s.tpoArmWith t (w 0).toNat sec (fld (w 2) 31 16) (fld (w 3) 1 1 == 1) (fld (w 3) 2 2 == 1) ((w 3).toNat % 256 &&& 0xF9 != 0) else s
    (List.range 4).foldl (fun (u : State) j => u.lcStage n (o + 4 * j) 0) s
  else s

/-- A store to the lane-control window; of a bit store, only the bit is written to a place that reads 0. -/
def lcStore (s : State) (c : Nat) (x : Ctx) (o : Nat) (v mask : Byte) : State :=
  let n := s.ctxAgent c
  let task := decide (c < 68) && x.task.isSome
  if o = 0x08 then s.swEvent (v &&& mask)
  else if task && decide (0x100 ≤ o) && decide (o < 0x200) then s.lcRind n o v mask
  else if task && decide (0x200 ≤ o) && decide (o < 0x280) then s.lcTpo n ((o - 0x200) / 16) (o % 16) (v &&& mask)
  else s

/-! ## Loads and stores of a byte -/

/-- An uncorrectable word of a scratch, found by an instruction (06 R219, 19 R582). -/
def scratchFault (s : State) (c k : Nat) : State :=
  let s := s.ueRecord 1 c 0 ((k - Key.scratch c) / 4)
  if c < 68 then s.laneFault c 2 else s.svcStop c

/-- A byte of the image or exchange memory read through its bank arbiter. -/
def bankLoad (s : State) (c k id : Nat) (f : State → Byte → Byte) : Acc := s.granted c id fun s => let r := s.rdT k; .ok (f r.2 r.1) r.2

/-- A byte at a place. -/
def placeLoad (s : State) (c : Nat) (x : Ctx) : Place → Acc
  | .scratch k => if s.eccMark k = 2 then .fault (s.scratchFault c k) else .ok (s.rd k) s
  | .exch o => s.bankLoad c (Key.exch + o) (0x10 + o / 128 % 16) fun t b => t.overlay c (.exch o) b
  | .input o => s.bankLoad c (Key.input + o) (0x10 + o / 128 % 16) fun _ b => b
  | .output o => s.bankLoad c (Key.output + o) (0x10 + o / 128 % 16) fun t b => t.overlay c (.img o) b
  | .status o => s.bankLoad c (Key.status + o) (0x10 + o / 8 % 16) fun _ b => b
  | .zero => .ok 0 s
  | .bad _ => let f := s.free; .ok (f.1.setWidth 8) f.2
  | .pantry k =>
    s.granted c (0x20 + groupOf k) fun s =>
      let r := s.rdT k
      if r.2.panClash c k false then
        let f := r.2.free
        .ok (f.1.setWidth 8) ((f.2.panNote c k false).wr k ((f.1 >>> 8).setWidth 8))
      else .ok r.1 (r.2.panNote c k false)
  | .cell n i =>
    s.granted c 0x30 fun s =>
      let base := ((x.baseOld.find? (·.1 == n)).map (·.2.2)).getD (s.cellBase n)
      let r := s.cellRead (s.ctxAgent c) n i base
      .ok (if i = 7 then r.2.overlay c (.cell n) r.1 else r.1) r.2
  | .const k => .ok (s.rd k) s
  | .control o => let r := s.lcLoad c x o; .ok r.1 r.2
  | .sram k => .ok (s.rd k) s
  | .far a => if s.fabWaits a 1 then .stall s else let r := s.busRead (farAgent c) a 1; .ok (r.1.headD 0) r.2

/-- A load by core `c` whose context is `x`: a byte that one of its last two instructions stored shows its old value (04 R149). -/
def loadByte (s : State) (c : Nat) (x : Ctx) (a : Nat) : Acc :=
  let p := placeOf c s.activeHalf x (a % 65536)
  match s.placeLoad c x p with
  | .ok b t =>
    match p, placeKey p with
    | .far d, some k =>
      match s.check (farAgent c) d false with
      | .pass => .ok (((x.recent.find? (·.key == k)).map (·.old)).getD b) t
      | .stop _ => .ok b t
    | _, some k => .ok (((x.recent.find? (·.key == k)).map (·.old)).getD b) t
    | _, none => .ok b t
  | r => r

/-- A byte stored by the current instruction of core `c` is remembered with its old value. -/
def remember (s : State) (c k : Nat) (old : Byte) : State := s.setCx c { s.cx c with recent := (s.cx c).recent ++ [⟨0, k, old⟩] }

/-- A store that a place takes at once, remembered. -/
def putPlain (s : State) (c k : Nat) (v mask : Byte) : State := (s.remember c k (s.rd k)).wr k (putBits (s.rd k) mask v)

/-- A count byte of a timer cell stored by an event task (08 R285, R286): only a FREE cell takes it. -/
def cellStore (s : State) (c : Nat) (x : Ctx) (n i : Nat) (v mask : Byte) : State :=
  if x.task.isSome && s.cellFree n && decide (i < 6) then
    let w := putBits (BitVec.ofNat 8 (s.cellCount n / 256 ^ i)) mask v
    let s := if i = 5 then s.setCx c { s.cx c with baseOld := (s.cx c).baseOld ++ [(n, 0, s.cellBase n)] } else s
    s.cellWriteByte (s.ctxAgent c) n i w
  else s

/-- A staged store: discarded in an event task, else one entry; the byte as the lane saw it is remembered (04 R135–R137, R149). -/
def staged1 (s : State) (c : Nat) (x : Ctx) (w : Staged) (k : Nat) (v mask : Byte) : Acc :=
  if x.task.isSome then .ok 0 s
  else
    match s.stagePut c ⟨w, mask, v &&& mask⟩ with
    | .ok b t => .ok b (t.remember c k (s.overlay c w (s.rd k)))
    | r => r

/-- The bits `mask` of `v` stored at a place (04 R135–R139). IMS = 3 leaves open whether a free byte is staged in the output image (04 R160). A bit store to the
far window, of which R138 does not speak, reads the byte over the bus and writes it back whole (DESIGN CHOICE, log 12). -/
def placeStore (s : State) (c : Nat) (x : Ctx) (v mask : Byte) : Place → Acc
  | .scratch k => if s.eccMark k = 2 then .fault (s.scratchFault c k) else .ok 0 (s.putPlain c k v mask)
  | .exch o => s.staged1 c x (.exch o) (Key.exch + o) v mask
  | .output o => s.staged1 c x (.img o) (Key.output + o) v mask
  | .bad o =>
    let f := s.free
    if fld f.1 16 16 = 1 then f.2.staged1 c x (.img o) (Key.output + o) (f.1.setWidth 8) ((f.1 >>> 8).setWidth 8) else .ok 0 f.2
  | .pantry k =>
    s.granted c (0x20 + groupOf k) fun s =>
      let t := (((s.touch k).putPlain c k v mask).dirty k x.task.isSome).panNote c k true
      if s.panClash c k true then (let f := t.free; .ok 0 (f.2.wr k (f.1.setWidth 8))) else .ok 0 t
  | .cell n i =>
    if x.task.isSome && s.cellFree n && decide (i < 6) then s.granted c 0x30 fun s => .ok 0 (s.cellStore c x n i v mask) else .ok 0 s
  | .control o => .ok 0 (s.lcStore c x o v mask)
  | .sram k => .ok 0 (s.putPlain c k v mask)
  | .far a =>
    if s.fabWaits a 1 then .stall s
    else
    let r := if mask = 0xFF then ([], s) else s.busRead (farAgent c) a 1
    let s := match placeKey (.far a) with | some k => r.2.remember c k (r.2.rd k) | none => r.2
    .ok 0 (s.agentStore (farAgent c) a [putBits (r.1.headD 0) mask v])
  | .input _ | .status _ | .zero | .const _ => .ok 0 s

/-- A store by core `c` whose context is `x`. -/
def storeByte (s : State) (c : Nat) (x : Ctx) (a : Nat) (v mask : Byte) : Acc := s.placeStore c x v mask (placeOf c s.activeHalf x (a % 65536))

/-! ## Addresses and K of a repeated instruction (05 R172, R173) -/

end State

/-- Repetitions done, and their number; 0 and 1 outside REP. -/
def repOf (x : Ctx) : Nat × Nat := match x.rep with | some r => (r.done, r.count) | none => (0, 1)

/-- The last repetition, or no repetition. -/
def repLast (x : Ctx) : Bool := decide ((repOf x).2 ≤ (repOf x).1 + 1)

/-- Effective address of a byte instruction of `size` bytes (04 R135, 05 R172). -/
def eaByte (x : Ctx) (pb disp size : Nat) : Nat := ((x.pair (2 * pb)).toNat + disp + (repOf x).1 * size) % 65536

/-- Effective address and bit of a bit instruction (05 R172). -/
def eaBit (x : Ctx) (pb disp b : Nat) : Nat × Nat :=
  (((x.pair (2 * pb)).toNat + disp + (b + (repOf x).1) / 8) % 65536, (b + (repOf x).1) % 8)

/-- The base pair after the last repetition, `adv` further on (05 R172); outside REP it keeps its value. -/
def baseNext (x : Ctx) (pb adv : Nat) (y : Ctx) : Ctx :=
  if x.rep.isSome && repLast x then y.setPair (2 * pb) (x.pair (2 * pb) + BitVec.ofNat 16 adv) else y

/-- The K that an instruction reads, once for a repeated one (05 R173), and what its reduction has reached. -/
def repK (x : Ctx) : Bool := match x.rep with | some r => if r.done = 0 then x.fk else r.kRead | none => x.fk
def repAcc (x : Ctx) : Bool := match x.rep with | some r => if r.done = 0 then x.fk else r.kAcc | none => x.fk

namespace State

/-- The K read and the reduction so far are kept for the next repetition. -/
def setRepK (s : State) (c : Nat) (k acc : Bool) : State :=
  s.setCx c { s.cx c with rep := (s.cx c).rep.map fun r => { r with kRead := k, kAcc := acc } }

/-- An instruction whose access has stalled or faulted does not execute. -/
def noEff (s : State) (a : Acc) : Eff := match a with | .fault t | .stall t => { st := t, did := false } | .ok .. => { st := s, did := false }

/-- A repeated load into a register of its own base pair is a host error: register and base pair are free (05 R191). -/
def ownBase (x : Ctx) (g pb : Nat) : Bool := x.rep.isSome && decide (g / 2 = pb)

/-- The registers of a load that is a host error: free values. -/
def freeLoad (s : State) (x : Ctx) (g pb : Nat) : Eff :=
  let f := s.free
  let v : Half := f.1.setWidth 16
  { st := f.2
    fly := [(.g (BitVec.ofNat 5 (g / 2 * 2)), v), (.g (BitVec.ofNat 5 (g / 2 * 2 + 1)), v >>> 8), (.zn (fld f.1 16 16 == 1) (fld f.1 17 17 == 1), 0)]
    now := fun y => if repLast x then y.setPair (2 * pb) (f.1 >>> 16 |>.setWidth 16) else y }

/-- What the second byte of a pair would fault on (06 R206, R219): it is known at the first beat, and a faulting instruction has no effect (R637). -/
def pairFault (s : State) (c : Nat) (x : Ctx) (a : Nat) (store : Bool) : Option State :=
  let entry := fun p => match p with | Place.output _ | Place.exch _ => store && x.task.isNone | _ => false
  let at' := fun a => placeOf c s.activeHalf x (a % 65536)
  match at' (a + 1) with
  | .scratch k => if s.eccMark k = 2 then some (s.scratchFault c k) else none
  | p => if entry p && decide (512 ≤ (s.core c).swb.length + bn (entry (at' a))) then some (s.laneFault c 4) else none

/-- The two beats of LDP or STP (05 R176, R635), the low byte's first. `split`: other commands come between them; where the second waits, they do too. `beat`: one beat,
`eff` what the instruction does with both bytes. -/
def pairBeats (s : State) (c : Nat) (x : Ctx) (a : Nat) (store split : Bool) (beat : State → Nat → Acc) (eff : Byte → Byte → State → Eff) : Eff :=
  let arb := fun a => let p := placeOf c s.activeHalf x (a % 65536); if store then s.storeArb x p else loadArb p
  let last := fun (b : Byte) (t : State) =>
    match beat t (a + 1) with
    | .ok h u => eff b h (u.keepBeats c (!repLast x) (arb (a + 1)))
    | .stall u => { st := u.setCx c { u.cx c with beat := some b }, did := false }
    | .fault u => { st := u, did := false }
  match x.beat with
  | some b => last b s
  | none =>
    match beat s a with
    | .ok b t =>
      match s.pairFault c x a store with
      | some u => { st := u, did := false }
      | none =>
        let t := t.keepBeats c true (arb a)
        if split then { st := t.setCx c { t.cx c with beat := some b }, did := false } else last b t
    | r => s.noEff r

/-- LD (05 R175). -/
def ldEff (s : State) (c : Nat) (g pb disp : Nat) (x : Ctx) : Eff :=
  if ownBase x g pb then s.freeLoad x g pb
  else
    let a := eaByte x pb disp 1
    match s.loadByte c x a with
    | .ok b t =>
      { st := t.keepBeats c (!repLast x) (loadArb (placeOf c s.activeHalf x a)), now := baseNext x pb (repOf x).2
        fly := [(.g (BitVec.ofNat 5 g), b.setWidth 16), (.zn (b == 0) b.msb, 0)] }
    | r => s.noEff r
def ldOp (s : State) (c : Nat) (g pb disp : Nat) : State := s.issue c .mem fun x s => s.ldEff c g pb disp x

/-- LDP (05 R175, R176). -/
def ldpEff (s : State) (c : Nat) (g pb disp : Nat) (split : Bool) (x : Ctx) : Eff :=
  if ownBase x g pb then s.freeLoad x g pb
  else
    s.pairBeats c x (eaByte x pb disp 2) false split (fun t a => t.loadByte c x a) fun b h u =>
      let w : Half := h ++ b
      { st := u, now := baseNext x pb ((repOf x).2 * 2)
        fly := [(.g (BitVec.ofNat 5 g), b.setWidth 16), (.g (BitVec.ofNat 5 (g + 1)), h.setWidth 16), (.zn (w == 0) w.msb, 0)] }
def ldpOp (s : State) (c : Nat) (g pb disp : Nat) (split : Bool) : State := s.issue c .mem fun x s => s.ldpEff c g pb disp split x

/-- ST (05 R175). -/
def stEff (s : State) (c : Nat) (g pb disp : Nat) (x : Ctx) : Eff :=
  let a := eaByte x pb disp 1
  match s.storeByte c x a (x.reg g) 0xFF with
  | .ok _ t => { st := t.keepBeats c (!repLast x) (s.storeArb x (placeOf c s.activeHalf x a)), now := baseNext x pb (repOf x).2 }
  | r => s.noEff r
def stOp (s : State) (c : Nat) (g pb disp : Nat) : State := s.issue c .mem fun x s => s.stEff c g pb disp x

/-- STP (05 R175, R176). -/
def stpEff (s : State) (c : Nat) (g pb disp : Nat) (split : Bool) (x : Ctx) : Eff :=
  let a := eaByte x pb disp 2
  s.pairBeats c x a true split (fun t b => t.storeByte c x b (x.reg (if b = a then g else g + 1)) 0xFF) fun _ _ u =>
    { st := u, now := baseNext x pb ((repOf x).2 * 2) }
def stpOp (s : State) (c : Nat) (g pb disp : Nat) (split : Bool) : State := s.issue c .mem fun x s => s.stpEff c g pb disp split x

/-- A bit instruction that combines K with the addressed bit (05 R177, R173). -/
def bitLoadEff (s : State) (c : Nat) (b pb disp : Nat) (f : Bool → Bool → Bool) (x : Ctx) : Eff :=
  let a := eaBit x pb disp b
  match s.loadByte c x a.1 with
  | .ok v t =>
    let acc := f (repAcc x) (v.getLsbD a.2)
    { st := (t.keepBeats c (!repLast x) (loadArb (placeOf c s.activeHalf x a.1))).setRepK c (repK x) acc
      now := baseNext x pb ((b + (repOf x).2) / 8)
      fly := if repLast x then [(.k, if acc then 1 else 0)] else [] }
  | r => s.noEff r
def bitLoad (s : State) (c : Nat) (b pb disp : Nat) (f : Bool → Bool → Bool) : State := s.issue c .mem fun x s => s.bitLoadEff c b pb disp f x

/-- Bit `b` of address `a` stored (04 R138). -/
def storeBit (s : State) (c : Nat) (x : Ctx) (a b : Nat) (v : Bool) : Acc :=
  s.storeByte c x a (if v then 0xFF else 0) (BitVec.ofNat 8 (2 ^ b))

/-- A bit instruction that writes the addressed bit by K, or nothing (05 R177, R178). -/
def bitStoreEff (s : State) (c : Nat) (b pb disp : Nat) (f : Bool → Option Bool) (x : Ctx) : Eff :=
  let a := eaBit x pb disp b
  let r := match f (repK x) with | some v => s.storeBit c x a.1 a.2 v | none => .ok 0 s
  match r with
  | .ok _ t => { st := (t.keepBeats c (!repLast x && (f (repK x)).isSome) (s.storeArb x (placeOf c s.activeHalf x a.1))).setRepK c (repK x) (repK x), now := baseNext x pb ((b + (repOf x).2) / 8) }
  | r => s.noEff r
def bitStore (s : State) (c : Nat) (b pb disp : Nat) (f : Bool → Option Bool) : State := s.issue c .mem fun x s => s.bitStoreEff c b pb disp f x

/-- RISE and FALL (05 R177, R178); repeated, they are a host error that leaves K and the addressed bit free (05 R191). -/
def edgeEff (s : State) (c : Nat) (b pb disp : Nat) (f : Bool → Bool → Bool) (x : Ctx) : Eff :=
  let a := eaBit x pb disp b
  match s.loadByte c x a.1 with
  | .ok v t =>
    let fr := if x.rep.isSome then t.free else (0, t)
    let m := if x.rep.isSome then fld fr.1 0 0 == 1 else x.fk
    let e := if x.rep.isSome then fld fr.1 1 1 == 1 else f x.fk (v.getLsbD a.2)
    match fr.2.storeBit c x a.1 a.2 m with
    | .ok _ u =>
      { st := u.keepBeats c (!repLast x) (loadArb (placeOf c s.activeHalf x a.1)), now := baseNext x pb ((b + (repOf x).2) / 8)
        fly := [(.k, if e then 1 else 0)] }
    | r => s.noEff r
  | r => s.noEff r
def edgeOp (s : State) (c : Nat) (b pb disp : Nat) (f : Bool → Bool → Bool) : State := s.issue c .mem fun x s => s.edgeEff c b pb disp f x

/-- TMR (05 R179); a bit field of 4 to 7, or a repeated TMR, is a host error that leaves inputs of the cell free (05 R191). -/
def tmrEff (s : State) (c : Nat) (b pb disp : Nat) (x : Ctx) : Eff :=
  let a := eaBit x pb disp (if x.rep.isSome then b else 0)
  let now := baseNext x pb ((b + (repOf x).2) / 8)
  match placeOf c s.activeHalf x a.1 with
  | .cell n _ =>
    if x.task.isSome then { st := s, now := now }
    else
      let bad := decide (4 ≤ b) || x.rep.isSome
      let f := if bad then s.free else (0, s)
      let e : Entry := if bad then ⟨.cell n, f.1.setWidth 8 &&& 0x0F, (f.1 >>> 8).setWidth 8 &&& 0x0F⟩
        else ⟨.cell n, BitVec.ofNat 8 (2 ^ b), if x.fk then BitVec.ofNat 8 (2 ^ b) else 0⟩
      match f.2.stagePut c e with
      | .ok _ t =>
        let k := Key.cells + 8 * n + 7
        { st := t.remember c k (s.overlay c (.cell n) (s.rd k)), now := now }
      | r => s.noEff r
  | _ => { st := s, now := now }
def tmrOp (s : State) (c : Nat) (b pb disp : Nat) : State := s.issue c .mem fun x s => s.tmrEff c b pb disp x

/-! ## Words that no instruction has (04 R160) -/

/-- A byte that such a word may store: whether, where in the core's data map, and what are free values. -/
def freeStore (s : State) (c : Nat) (x : Ctx) : State :=
  let f := s.free
  if f.1.getLsbD 31 then (match f.2.storeByte c x (fld f.1 15 0) ((f.1 >>> 16).setWidth 8) 0xFF with | .ok _ t => t | _ => f.2) else f.2

/-- A word whose opcode, fn, cond or sub is unassigned or whose reserved operand bits are not 0: registers, flags and memory writes of the context are free (04 R160).
It issues, and control goes on behind it. -/
def badInstr (s : State) (c : Nat) : State :=
  s.issueThen c .plain (fun x s => { st := (s.freeStore c x).freeStore c x }) fun s => s.freeRegs c

end State

open State

/-! ## The instructions -/

/-- LD (05 R175). -/
def execLd (c : Core) (g : GReg) (pb : PReg) (disp : BitVec 9) (s : State) : Res State := .next (s.ldOp c g.toNat pb.toNat disp.toNat)

/-- ST (05 R175). -/
def execSt (c : Core) (g : GReg) (pb : PReg) (disp : BitVec 9) (s : State) : Res State := .next (s.stOp c g.toNat pb.toNat disp.toNat)

/-- LDP (05 R175); an odd register is a host error (05 R162). `split`: other commands come between its two beats (05 R635); the LDP is then sent again for its
second. -/
def execLdp (c : Core) (g : GReg) (pb : PReg) (disp : PairAt) (s : State) : Res State :=
  .next (if evenRegs [g] then s.ldpOp c g.toNat pb.toNat disp.disp.toNat disp.split else s.badInstr c)

/-- STP (05 R175); an odd register is a host error (05 R162). `split`: as in LDP. -/
def execStp (c : Core) (g : GReg) (pb : PReg) (disp : PairAt) (s : State) : Res State :=
  .next (if evenRegs [g] then s.stpOp c g.toNat pb.toNat disp.disp.toNat disp.split else s.badInstr c)

/-- LDK (05 R177). -/
def execLdk (c : Core) (b : BitVec 3) (pb : PReg) (disp : BitVec 11) (s : State) : Res State :=
  .next (s.bitLoad c b.toNat pb.toNat disp.toNat fun _ m => m)

/-- LDKN (05 R177). -/
def execLdkn (c : Core) (b : BitVec 3) (pb : PReg) (disp : BitVec 11) (s : State) : Res State :=
  .next (s.bitLoad c b.toNat pb.toNat disp.toNat fun _ m => !m)

/-- ANDK (05 R177). -/
def execAndk (c : Core) (b : BitVec 3) (pb : PReg) (disp : BitVec 11) (s : State) : Res State :=
  .next (s.bitLoad c b.toNat pb.toNat disp.toNat fun k m => k && m)

/-- ANDKN (05 R177). -/
def execAndkn (c : Core) (b : BitVec 3) (pb : PReg) (disp : BitVec 11) (s : State) : Res State :=
  .next (s.bitLoad c b.toNat pb.toNat disp.toNat fun k m => k && !m)

/-- ORK (05 R177). -/
def execOrk (c : Core) (b : BitVec 3) (pb : PReg) (disp : BitVec 11) (s : State) : Res State :=
  .next (s.bitLoad c b.toNat pb.toNat disp.toNat fun k m => k || m)

/-- ORKN (05 R177). -/
def execOrkn (c : Core) (b : BitVec 3) (pb : PReg) (disp : BitVec 11) (s : State) : Res State :=
  .next (s.bitLoad c b.toNat pb.toNat disp.toNat fun k m => k || !m)

/-- XORK (05 R177). -/
def execXork (c : Core) (b : BitVec 3) (pb : PReg) (disp : BitVec 11) (s : State) : Res State :=
  .next (s.bitLoad c b.toNat pb.toNat disp.toNat fun k m => k != m)

/-- STK (05 R177). -/
def execStk (c : Core) (b : BitVec 3) (pb : PReg) (disp : BitVec 11) (s : State) : Res State :=
  .next (s.bitStore c b.toNat pb.toNat disp.toNat fun k => some k)

/-- STKN (05 R177). -/
def execStkn (c : Core) (b : BitVec 3) (pb : PReg) (disp : BitVec 11) (s : State) : Res State :=
  .next (s.bitStore c b.toNat pb.toNat disp.toNat fun k => some !k)

/-- SETK (05 R177, R178). -/
def execSetk (c : Core) (b : BitVec 3) (pb : PReg) (disp : BitVec 11) (s : State) : Res State :=
  .next (s.bitStore c b.toNat pb.toNat disp.toNat fun k => if k then some true else none)

/-- CLRK (05 R177, R178). -/
def execClrk (c : Core) (b : BitVec 3) (pb : PReg) (disp : BitVec 11) (s : State) : Res State :=
  .next (s.bitStore c b.toNat pb.toNat disp.toNat fun k => if k then some false else none)

/-- RISE (05 R177, R178). -/
def execRise (c : Core) (b : BitVec 3) (pb : PReg) (disp : BitVec 11) (s : State) : Res State :=
  .next (s.edgeOp c b.toNat pb.toNat disp.toNat fun k m => k && !m)

/-- FALL (05 R177, R178). -/
def execFall (c : Core) (b : BitVec 3) (pb : PReg) (disp : BitVec 11) (s : State) : Res State :=
  .next (s.edgeOp c b.toNat pb.toNat disp.toNat fun k m => !k && m)

/-- TMR (05 R179). -/
def execTmr (c : Core) (b : BitVec 3) (pb : PReg) (disp : BitVec 11) (s : State) : Res State := .next (s.tmrOp c b.toNat pb.toNat disp.toNat)

/-- LC_SWEVT (04 R141): a byte stored to LC_SWEVT by core `c`. -/
def execLcSwevt (c : Core) (v : Byte) (s : State) : Res State := .next (s.lcStore c (s.cx c) 0x08 v 0xFF)

/-- LC_STWQ_READ (04 R141): the Steward reads byte 0 of LC_STWQ; the word latched is kept as the value read (log 8). -/
def execLcStwqRead (s : State) : Res State :=
  let v := s.stwqTake.1
  .next { (s.lcLoad 72 (s.cx 72) 0x20).2 with rdata := v.setWidth 64 }

/-- LC_RIND_STORE (14 R462): a byte stored at offset 0x100 + `off` by the current context of core `c`. -/
def execLcRindStore (c : Core) (off : Byte) (v : Byte) (s : State) : Res State := .next (s.lcStore c (s.cx c) (0x100 + off.toNat) v 0xFF)

/-- LC_TPO_COMMIT (12 R418): a byte stored to byte 15 of the alias of pulse output `n`. -/
def execLcTpoCommit (c : Core) (n : Fin 8) (v : Byte) (s : State) : Res State := .next (s.lcStore c (s.cx c) (0x200 + 16 * n.val + 15) v 0xFF)

end Sys2Proof.Machine
end

