-- ==== Sys2Proof/Machine/LimlisAlu.lean ====
section
/-! DEFINITION. The register, immediate and bit-stack instructions of the Limlis core (05 R180–R186). -/

-- one declaration at a time: many at once take a thread and its stack each
set_option Elab.async false

namespace Sys2Proof.Machine

namespace State

/-- A byte result with all four flags. -/
def withAlu (y : Ctx) (gd : GReg) (a : Alu 8) : Ctx := (y.setReg gd.toNat a.r).setCznv a.c a.z a.n a.v
/-- The flags of a byte result alone. -/
def withCmp (y : Ctx) (a : Alu 8) : Ctx := y.setCznv a.c a.z a.n a.v
/-- A byte result with Z and N. -/
def withLogic (y : Ctx) (gd : GReg) (r : Byte) : Ctx := (y.setReg gd.toNat r).setZn r
/-- A shift's result with Z and N, and C where the count gives it (05 R182). -/
def withShift (y : Ctx) (gd : GReg) (r : Byte × Option Bool) : Ctx :=
  let y := withLogic y gd r.1
  match r.2 with | some c => { y with fc := c } | none => y
/-- A word result with all four flags, taken on 16 bits (05 R185). -/
def withWord (y : Ctx) (gd : GReg) (a : Alu 16) : Ctx := (y.setPair gd.toNat a.r).setCznv a.c a.z a.n a.v

/-- A word instruction: an odd field is a host error (05 R162, 04 R160). -/
def wordOp (s : State) (c : Core) (rs : List GReg) (f : Ctx → Ctx → Ctx) : State :=
  if evenRegs rs then s.aluOp c f else s.badInstr c

/-- MDV (05 R183): pair and flags are written together at their distance; D is only ever set. -/
def mdvOp (s : State) (c : Core) (gd gs gt : GReg) (f : Byte → Byte → Mdv) : State :=
  if gd.toNat % 2 = 0 then
    s.issue c .plain fun x s =>
      let m := f (x.reg gs.toNat) (x.reg gt.toNat)
      { st := s
        fly := [(.g gd, (m.p.setWidth 8).setWidth 16), (.g (gd + 1), m.p >>> 8), (.cznv m.c m.z m.n m.v, 0)] ++ (if m.d then [(.d, 0)] else []) }
  else s.badInstr c

end State

open State

/-- ADD (05 R181). -/
def execAdd (c : Core) (gd gs gt : GReg) (s : State) : Res State :=
  .next (s.aluOp c fun x y => withAlu y gd (addAlu (x.reg gs.toNat) (x.reg gt.toNat) false))

/-- ADC (05 R181). -/
def execAdc (c : Core) (gd gs gt : GReg) (s : State) : Res State :=
  .next (s.aluOp c fun x y => withAlu y gd (addAlu (x.reg gs.toNat) (x.reg gt.toNat) x.fc))

/-- SUB (05 R181). -/
def execSub (c : Core) (gd gs gt : GReg) (s : State) : Res State :=
  .next (s.aluOp c fun x y => withAlu y gd (subAlu (x.reg gs.toNat) (x.reg gt.toNat) true))

/-- SBC (05 R181). -/
def execSbc (c : Core) (gd gs gt : GReg) (s : State) : Res State :=
  .next (s.aluOp c fun x y => withAlu y gd (subAlu (x.reg gs.toNat) (x.reg gt.toNat) x.fc))

/-- AND (05 R181). -/
def execAnd (c : Core) (gd gs gt : GReg) (s : State) : Res State :=
  .next (s.aluOp c fun x y => withLogic y gd ((x.reg gs.toNat) &&& (x.reg gt.toNat)))

/-- OR (05 R181). -/
def execOr (c : Core) (gd gs gt : GReg) (s : State) : Res State :=
  .next (s.aluOp c fun x y => withLogic y gd ((x.reg gs.toNat) ||| (x.reg gt.toNat)))

/-- XOR (05 R181). -/
def execXor (c : Core) (gd gs gt : GReg) (s : State) : Res State :=
  .next (s.aluOp c fun x y => withLogic y gd ((x.reg gs.toNat) ^^^ (x.reg gt.toNat)))

/-- CMP (05 R181). -/
def execCmp (c : Core) (gs gt : GReg) (s : State) : Res State :=
  .next (s.aluOp c fun x y => withCmp y (subAlu (x.reg gs.toNat) (x.reg gt.toNat) true))

/-- SHL (05 R181, R182). -/
def execShl (c : Core) (gd gs gt : GReg) (s : State) : Res State :=
  .next (s.aluOp c fun x y => withShift y gd (shiftAlu .shl (x.reg gs.toNat) (x.reg gt.toNat).toNat))

/-- SHR (05 R181, R182). -/
def execShr (c : Core) (gd gs gt : GReg) (s : State) : Res State :=
  .next (s.aluOp c fun x y => withShift y gd (shiftAlu .shr (x.reg gs.toNat) (x.reg gt.toNat).toNat))

/-- ASR (05 R181, R182). -/
def execAsr (c : Core) (gd gs gt : GReg) (s : State) : Res State :=
  .next (s.aluOp c fun x y => withShift y gd (shiftAlu .asr (x.reg gs.toNat) (x.reg gt.toNat).toNat))

/-- ROL (05 R181, R182). -/
def execRol (c : Core) (gd gs gt : GReg) (s : State) : Res State :=
  .next (s.aluOp c fun x y => withShift y gd (shiftAlu .rol (x.reg gs.toNat) (x.reg gt.toNat).toNat))

/-- ROR (05 R181, R182). -/
def execRor (c : Core) (gd gs gt : GReg) (s : State) : Res State :=
  .next (s.aluOp c fun x y => withShift y gd (shiftAlu .ror (x.reg gs.toNat) (x.reg gt.toNat).toNat))

/-- MOV (05 R181). -/
def execMov (c : Core) (gd gs : GReg) (s : State) : Res State :=
  .next (s.aluOp c fun x y => y.setReg gd.toNat (x.reg gs.toNat))

/-- NOT (05 R181). -/
def execNot (c : Core) (gd gs : GReg) (s : State) : Res State :=
  .next (s.aluOp c fun x y => withLogic y gd (~~~(x.reg gs.toNat)))

/-- NEG (05 R181, R184). -/
def execNeg (c : Core) (gd gs : GReg) (s : State) : Res State :=
  .next (s.aluOp c fun x y => withAlu y gd (subAlu 0#8 (x.reg gs.toNat) true))

/-- MULU (05 R183, R184). -/
def execMulu (c : Core) (gd gs gt : GReg) (s : State) : Res State :=
  .next (s.mdvOp c gd gs gt mulu)

/-- MULS (05 R183, R184). -/
def execMuls (c : Core) (gd gs gt : GReg) (s : State) : Res State :=
  .next (s.mdvOp c gd gs gt muls)

/-- DIVU (05 R183, R184). -/
def execDivu (c : Core) (gd gs gt : GReg) (s : State) : Res State :=
  .next (s.mdvOp c gd gs gt divu)

/-- DIVS (05 R183, R184). -/
def execDivs (c : Core) (gd gs gt : GReg) (s : State) : Res State :=
  .next (s.mdvOp c gd gs gt divs)

/-- ADDW (05 R185). -/
def execAddw (c : Core) (gd gs gt : GReg) (s : State) : Res State :=
  .next (s.wordOp c [gd, gs, gt] fun x y => withWord y gd (addAlu (x.pair gs.toNat) (x.pair gt.toNat) false))

/-- SUBW (05 R185). -/
def execSubw (c : Core) (gd gs gt : GReg) (s : State) : Res State :=
  .next (s.wordOp c [gd, gs, gt] fun x y => withWord y gd (subAlu (x.pair gs.toNat) (x.pair gt.toNat) true))

/-- CMPW (05 R185). -/
def execCmpw (c : Core) (gs gt : GReg) (s : State) : Res State :=
  .next (s.wordOp c [gs, gt] fun x y => let a := subAlu (x.pair gs.toNat) (x.pair gt.toNat) true; y.setCznv a.c a.z a.n a.v)

/-- MOVW (05 R185). -/
def execMovw (c : Core) (gd gs : GReg) (s : State) : Res State :=
  .next (s.wordOp c [gd, gs] fun x y => y.setPair gd.toNat (x.pair gs.toNat))

/-- LDI (05 R186). -/
def execLdi (c : Core) (gd : GReg) (imm : Byte) (s : State) : Res State :=
  .next (s.aluOp c fun _ y => y.setReg gd.toNat imm)

/-- ADDI (05 R186). -/
def execAddi (c : Core) (gd : GReg) (imm : Byte) (s : State) : Res State :=
  .next (s.aluOp c fun x y => withAlu y gd (addAlu (x.reg gd.toNat) imm false))

/-- ADCI (05 R186). -/
def execAdci (c : Core) (gd : GReg) (imm : Byte) (s : State) : Res State :=
  .next (s.aluOp c fun x y => withAlu y gd (addAlu (x.reg gd.toNat) imm x.fc))

/-- SUBI (05 R186). -/
def execSubi (c : Core) (gd : GReg) (imm : Byte) (s : State) : Res State :=
  .next (s.aluOp c fun x y => withAlu y gd (subAlu (x.reg gd.toNat) imm true))

/-- SBCI (05 R186). -/
def execSbci (c : Core) (gd : GReg) (imm : Byte) (s : State) : Res State :=
  .next (s.aluOp c fun x y => withAlu y gd (subAlu (x.reg gd.toNat) imm x.fc))

/-- ANDI (05 R186). -/
def execAndi (c : Core) (gd : GReg) (imm : Byte) (s : State) : Res State :=
  .next (s.aluOp c fun x y => withLogic y gd ((x.reg gd.toNat) &&& imm))

/-- ORI (05 R186). -/
def execOri (c : Core) (gd : GReg) (imm : Byte) (s : State) : Res State :=
  .next (s.aluOp c fun x y => withLogic y gd ((x.reg gd.toNat) ||| imm))

/-- XORI (05 R186). -/
def execXori (c : Core) (gd : GReg) (imm : Byte) (s : State) : Res State :=
  .next (s.aluOp c fun x y => withLogic y gd ((x.reg gd.toNat) ^^^ imm))

/-- CMPI (05 R186). -/
def execCmpi (c : Core) (gd : GReg) (imm : Byte) (s : State) : Res State :=
  .next (s.aluOp c fun x y => withCmp y (subAlu (x.reg gd.toNat) imm true))

/-- TSTI (05 R186). -/
def execTsti (c : Core) (gd : GReg) (imm : Byte) (s : State) : Res State :=
  .next (s.aluOp c fun x y => y.setZn ((x.reg gd.toNat) &&& imm))

/-- SHLI (05 R186). -/
def execShli (c : Core) (gd : GReg) (imm : Byte) (s : State) : Res State :=
  .next (s.aluOp c fun x y => withShift y gd (shiftAlu .shl (x.reg gd.toNat) imm.toNat))

/-- SHRI (05 R186). -/
def execShri (c : Core) (gd : GReg) (imm : Byte) (s : State) : Res State :=
  .next (s.aluOp c fun x y => withShift y gd (shiftAlu .shr (x.reg gd.toNat) imm.toNat))

/-- ASRI (05 R186). -/
def execAsri (c : Core) (gd : GReg) (imm : Byte) (s : State) : Res State :=
  .next (s.aluOp c fun x y => withShift y gd (shiftAlu .asr (x.reg gd.toNat) imm.toNat))

/-- ROLI (05 R186). -/
def execRoli (c : Core) (gd : GReg) (imm : Byte) (s : State) : Res State :=
  .next (s.aluOp c fun x y => withShift y gd (shiftAlu .rol (x.reg gd.toNat) imm.toNat))

/-- RORI (05 R186). -/
def execRori (c : Core) (gd : GReg) (imm : Byte) (s : State) : Res State :=
  .next (s.aluOp c fun x y => withShift y gd (shiftAlu .ror (x.reg gd.toNat) imm.toNat))

/-- ADDWI (05 R186). -/
def execAddwi (c : Core) (gd : GReg) (imm : Byte) (s : State) : Res State :=
  .next (s.wordOp c [gd] fun x y => withWord y gd (addAlu (x.pair gd.toNat) (imm.setWidth 16) false))

/-- SUBWI (05 R186). -/
def execSubwi (c : Core) (gd : GReg) (imm : Byte) (s : State) : Res State :=
  .next (s.wordOp c [gd] fun x y => withWord y gd (subAlu (x.pair gd.toNat) (imm.setWidth 16) true))

/-- KFR (05 R186). -/
def execKfr (c : Core) (gd : GReg) (b : BitVec 3) (s : State) : Res State :=
  .next (s.aluOp c fun x y => { y with fk := (x.reg gd.toNat).getLsbD b.toNat })

/-- KTO (05 R186). -/
def execKto (c : Core) (gd : GReg) (b : BitVec 3) (s : State) : Res State :=
  .next (s.aluOp c fun x y => y.setReg gd.toNat (((x.reg gd.toNat) &&& ~~~(1#8 <<< b.toNat)) ||| (if x.fk then 1#8 <<< b.toNat else 0)))

/-- PSHK (05 R180). -/
def execPshk (c : Core) (s : State) : Res State :=
  .next (s.aluOp c fun x y => y.push x.fk)

/-- POPK (05 R180). -/
def execPopk (c : Core) (s : State) : Res State :=
  .next (s.aluOp c fun _ y => let p := y.pop; { p.2 with fk := p.1 })

/-- ANDPK (05 R180). -/
def execAndpk (c : Core) (s : State) : Res State :=
  .next (s.aluOp c fun x y => let p := y.pop; { p.2 with fk := x.fk && p.1 })

/-- ORPK (05 R180). -/
def execOrpk (c : Core) (s : State) : Res State :=
  .next (s.aluOp c fun x y => let p := y.pop; { p.2 with fk := x.fk || p.1 })

/-- XORPK (05 R180). -/
def execXorpk (c : Core) (s : State) : Res State :=
  .next (s.aluOp c fun x y => let p := y.pop; { p.2 with fk := x.fk != p.1 })

/-- NOTK (05 R180). -/
def execNotk (c : Core) (s : State) : Res State :=
  .next (s.aluOp c fun x y => { y with fk := !x.fk })

/-- ONEK (05 R180). -/
def execOnek (c : Core) (s : State) : Res State :=
  .next (s.aluOp c fun _ y => { y with fk := true })

/-- ZEROK (05 R180). -/
def execZerok (c : Core) (s : State) : Res State :=
  .next (s.aluOp c fun _ y => { y with fk := false })

end Sys2Proof.Machine
end

