-- ==== Sys2Proof/Machine/LimlisCtl.lean ====
section
/-! DEFINITION. The control instructions of the Limlis core (05 R163–R171, R187–R189): HALT, STEP, REP, SEAL, LCK, special registers, BRK, branches. -/

-- one declaration at a time: many at once take a thread and its stack each
set_option Elab.async false

namespace Sys2Proof.Machine

namespace State

/-! ## The end of a segment or task (05 R164–R166) -/

/-- The current task of event lane `p` ends (05 R166, 06 R215): its results in flight are discarded, and the highest suspended task runs on. An idle lane keeps the
address at which it stopped (06 R237). -/
def endTask (s : State) (p : Nat) : State :=
  let x := s.core p |>.cur
  let s := (s.endLock p x).setCtx p x { pc := (s.ctx p x).pc }
  let c := s.core p
  match s.lanePrio p with
  | some pr => s.setCore p { c with cur := pr, run := .exec }
  | none => s.setCore p { c with run := .idle, held := false, grace := 0, stop := none, credit := false }

/-- A solving lane ends its segment (05 R164, 06 R207): seal and lock end; the merge starts if it was the last. -/
def endSegment (s : State) (p : Nat) : State :=
  let s := s.endLock p (s.core p).cur
  let s := s.setCx p { s.cx p with flights := [], sealed := 0 }
  (s.setCore p { s.core p with run := .segEnd, doneAt := s.now }).mergeStart

/-- HALT after it has issued (05 R164). On a service lane or the Steward a window change in flight is discarded with the register results (DESIGN CHOICE, log 51). -/
def haltCore (s : State) (c : Nat) : State :=
  if c < 68 then (if (s.cx c).task.isSome then s.endTask c else s.endSegment c)
  else
    let s := s.setCx c { s.cx c with flights := [] }
    s.setCore c { s.core c with run := if c < 72 then .stopped else if s.evt.stwq.isEmpty then .waitQueue else .exec }

/-- The core runs an event task. -/
def inTask (s : State) (c : Nat) : Bool := decide (c < 68) && (s.cx c).task.isSome

/-- STEP after it has issued (05 R165, 06 R203, R207): a solving lane waits at the merge, or in step 15 ends its segment. -/
def stepCore (s : State) (c : Nat) : State :=
  if (s.core c).stepNo = 15 then s.endSegment c
  else
    let s := s.endLock c (s.core c).cur
    let s := s.setCx c { s.cx c with sealed := 0 }
    (s.setCore c { s.core c with run := .atMerge }).mergeStart

/-! ## Special registers (04 R132–R134) -/

/-- Byte `i` of a 48-bit latch. -/
def byte48 (v : BitVec 48) (i : Nat) : Byte := (v >>> (8 * i)).setWidth 8

/-- The value of special register `n` on core `c`, and the context after the read, which a read of CYC0 or CTS0 makes latch (04 R132, R133). -/
def srRead (s : State) (c : Nat) (x : Ctx) (n : Nat) : Byte × Ctx :=
  let lane := decide (c < 68)
  let task := x.task
  let k := (s.scanOf c).getD 0
  let latchC : Ctx := { x with cycL := BitVec.ofNat 48 s.scn.cyc }
  let latchT : Ctx := { x with ctsL := BitVec.ofNat 48 s.scn.cts }
  if n = 0x00 then (x.flags, x)
  else if n = 0x01 then (x.rc, x)
  else if n = 0x02 then (x.ks0, x)
  else if n = 0x03 then (x.ks1, x)
  else if n = 0x04 ∧ lane then (x.pbk, x)
  else if n = 0x05 ∧ lane then (x.tbk.setWidth 8, x)
  else if n = 0x06 ∧ lane then (x.ims.setWidth 8, x)
  else if n = 0x08 then (if lane then BitVec.ofNat 8 k else if c = 72 then 0xC0 else BitVec.ofNat 8 (0x80 + (c - 68)), x)
  else if n = 0x09 then (if lane then BitVec.ofNat 8 c else 0xFF, x)
  else if n = 0x0A ∧ lane then (if s.laneRole k = 1 then BitVec.ofNat 8 (s.core c).stepNo else 0, x)
  else if n = 0x0B ∧ lane then (task.elim 0 (·.evn), x)
  else if n = 0x0C ∧ lane then (task.elim 0 fun t => BitVec.ofNat 8 (t.slot + 128), x)
  else if n = 0x0D ∧ lane then (task.elim 0 fun t => BitVec.ofNat 8 t.prio, x)
  else if n = 0x10 then (byte48 latchC.cycL 0, latchC)
  else if 0x11 ≤ n ∧ n ≤ 0x15 then (byte48 x.cycL (n - 0x10), x)
  else if n = 0x18 then (byte48 latchT.ctsL 0, latchT)
  else if 0x19 ≤ n ∧ n ≤ 0x1D then (byte48 x.ctsL (n - 0x18), x)
  else if 0x20 ≤ n ∧ n ≤ 0x27 ∧ lane then
    let i := (n - 0x20) / 2
    let r := if i < 2 then Reg.DBG_BPA k else Reg.DBG_BPB k
    (BitVec.ofNat 8 (s.rf r 31 0 / 2 ^ (16 * (i % 2) + 8 * (n % 2))), x)
  else if n = 0x30 ∧ !lane then (x.far0, x)
  else if n = 0x31 ∧ !lane then (x.far1, x)
  else if n = 0x32 ∧ !lane then (x.sbk.setWidth 8, x)
  else if n = 0x33 ∧ !lane then (if x.cpg then 1 else 0, x)
  else if n = 0x40 ∧ c = 72 then (s.svrel.setWidth 8, x)
  else if n = 0x41 ∧ c = 72 then (s.svflt.setWidth 8, x)
  else (0, x)

/-- What MOVT does to the context (04 R132, R149): the register shows the value at once; a window is used by memory instructions from the third on. A
number the core does not have, or one that is RO, discards it. -/
def srWrite (c : Nat) (n : Nat) (v : Byte) (x : Ctx) : Ctx :=
  let lane := decide (c < 68)
  if n = 0x00 then x.setFlags v
  else if n = 0x01 then { x with rc := v }
  else if n = 0x02 then { x with ks0 := v }
  else if n = 0x03 then { x with depth := min 8 (v.toNat % 16), unf := v.getLsbD 6, ovf := v.getLsbD 7 }
  else if n = 0x04 ∧ lane then { x with pbk := v }
  else if n = 0x05 ∧ lane then { x with tbk := v.setWidth 2 }
  else if n = 0x06 ∧ lane then { x with ims := v.setWidth 2 }
  else if n = 0x30 ∧ !lane then { x with far0 := v }
  else if n = 0x31 ∧ !lane then { x with far1 := v }
  else if n = 0x32 ∧ !lane then { x with sbk := v.setWidth 6 }
  else if n = 0x33 ∧ !lane then { x with cpg := v.getLsbD 0 }
  else x

/-- The window that memory instructions use from the third on (04 R149); FAR1 commits FAR0 with it. -/
def srWindow (c : Nat) (n : Nat) (v : Byte) (x : Ctx) : List (Dest × Half) :=
  let lane := decide (c < 68)
  if n = 0x04 ∧ lane then [(.pbk, v.setWidth 16)]
  else if n = 0x05 ∧ lane then [(.tbk, v.setWidth 16)]
  else if n = 0x06 ∧ lane then [(.ims, v.setWidth 16)]
  else if n = 0x31 ∧ !lane then [(.far, v ++ x.far0)]
  else if n = 0x32 ∧ !lane then [(.sbk, v.setWidth 16)]
  else []

/-- SVREL written (04 R132): a bit that goes to 1 runs its service lane from address 0, one that goes to 0 halts it. -/
def svrelWrite (s : State) (v : Byte) : State :=
  let s' := (List.range 4).foldl (fun (t : State) i =>
    let c := 68 + i
    if v.getLsbD i && !s.svrel.getLsbD i then
      (t.setCore c { t.core c with run := .exec, faulty := false }).setCtx c 0 { t.ctx c 0 with pc := 0, slot := .none, rep := none, flights := [], lock := none, sealed := 0 }
    else if !v.getLsbD i && s.svrel.getLsbD i then t.setCore c { t.core c with run := .stopped }
    else t) s
  { s' with svrel := v.setWidth 4 }

/-- What MOVT does outside the context: SVREL and SVFLT of the Steward. -/
def srOutside (s : State) (c n : Nat) (v : Byte) : State :=
  if c = 72 ∧ n = 0x40 then s.svrelWrite v
  else if c = 72 ∧ n = 0x41 then { s with svflt := s.svflt &&& ~~~ v.setWidth 4 }
  else s

/-! ## Repetition, seal and lock (05 R169–R171; 04 R156–R158) -/

/-- REP with count `n` (05 R169, R170): RC shows the count taken; a count of 0 skips the next instruction. -/
def repOp (s : State) (c : Nat) (n : Ctx → Nat) : State :=
  s.issue c .repPrefix fun x s =>
    let k := min 32 (n x)
    { st := s
      now := fun y => { y with rc := BitVec.ofNat 8 k, rep := if k = 0 then none else some ⟨k, 0, false, false⟩ }
      goes := if k = 0 then .skip else .seq }

/-- A branch or jump of kind `branch` to `t`, taken or not (04 R144–R146). -/
def jumpOp (s : State) (c : Nat) (t : Ctx → Option Nat) (now : Ctx → Ctx → Ctx) : State :=
  s.issue c .branch fun x s => { st := s, now := now x, goes := .slot ((t x).map (· % pcSize c)) }

/-- The target of a relative branch (04 R144). -/
def relTarget (c : Nat) (x : Ctx) (off : BitVec 14) : Nat := (((x.pc : Int) + off.toInt) % (pcSize c : Int)).toNat

/-- The target of an absolute jump (04 R144): on a service lane and the Steward, CPG is bit 14. -/
def absTarget (c : Nat) (x : Ctx) (t : BitVec 14) : Nat := if c < 68 then t.toNat else t.toNat + 16384 * bn x.cpg

/-- REP #n with n above 32 (05 R191): the count is a free value, and the registers of the context are too. -/
def repBad (s : State) (c : Nat) : State :=
  s.issue c .repPrefix fun _ s =>
    let f := s.free
    let n := f.1.toNat % 64
    { st := f.2.freeRegs c
      now := fun y => { y with rep := if n = 0 then none else some ⟨n, 0, false, false⟩ }
      goes := if n = 0 then .skip else .seq }

end State

open State

/-! ## The instructions -/

/-- HALT (05 R164). -/
def execHalt (c : Core) (s : State) : Res State := .next (s.issueThen c .halting (fun _ s => { st := s }) fun s => s.haltCore c)

/-- STEWARD_WAKE (05 R164): the Steward's HALT ends once its queue holds an entry. -/
def execStewardWake (s : State) : Res State :=
  let k := s.core 72
  .next (if k.run == .waitQueue && !s.evt.stwq.isEmpty then s.setCore 72 { k with run := .exec } else s)

/-- NOP (05 R163). -/
def execNop (c : Core) (s : State) : Res State := .next (s.aluOp c fun _ y => y)

/-- REP #n (05 R169); n = 33–63 is a host error (05 R191). -/
def execRepImm (c : Core) (n : BitVec 6) (s : State) : Res State :=
  .next (if 32 < n.toNat then s.repBad c else s.repOp c fun _ => n.toNat)

/-- REP g (05 R169). -/
def execRepReg (c : Core) (g : GReg) (s : State) : Res State := .next (s.repOp c fun x => (x.reg g.toNat).toNat)

/-- REP RC (05 R169). -/
def execRepRc (c : Core) (s : State) : Res State := .next (s.repOp c fun x => x.rc.toNat)

/-- SEAL n (04 R156); n outside 1–8 is a host error that leaves preemption and locking of the context free (04 R160). -/
def execSeal (c : Core) (n : BitVec 4) (s : State) : Res State :=
  .next (if 1 ≤ n.toNat ∧ n.toNat ≤ 8 then s.issue c .mark fun _ s => { st := s, now := fun y => { y with sealed := n.toNat } }
    else s.issueThen c .mark (fun _ s => { st := s }) fun s => (s.freeSeal c).freeLock c)

/-- LCK n (04 R157, R158); n outside 1–4 is a host error that leaves preemption and locking of the context free (04 R160). On a core without a bank arbiter the
sequence takes no lock. -/
def execLck (c : Core) (n : BitVec 3) (s : State) : Res State :=
  .next (if 1 ≤ n.toNat ∧ n.toNat ≤ 4 then s.issue c .lockMark fun _ s => { st := s, now := fun y => lockNew y n.toNat }
    else s.issueThen c .lockMark (fun _ s => { st := s }) fun s => (s.freeSeal c).freeLock c)

/-- BREAKPOINT_HIT (06 R227): physical lane `p` is about to execute an instruction at one of its enabled breakpoints. -/
def execBreakpointHit (p : Fin 68) (s : State) : Res State :=
  match s.scanOf p with
  | none => .next s
  | some k =>
    let c := s.core p
    let t := s.passBrk p
    let x := t.cx p
    .next (if c.run == .exec && !x.skipBp && x.beat.isNone && (!c.held || c.credit || decide (0 < c.grace)) && t.bpMatch k x.pc then t.breakHit p k x.pc none
      else s)

/-- LOCK_TIMEOUT (04 R158): the lock ends after the eighth instruction. -/
def execLockTimeout (c : Core) (s : State) : Res State := .next (s.lockExpire c)

/-- STEP (05 R165): on a solving lane; in a task, on a service lane and on the Steward it executes as NOP. -/
def execStep (c : Core) (s : State) : Res State :=
  .next (s.issueThen c .mark (fun _ s => { st := s }) fun s => if s.solves c then s.stepCore c else s)

/-- MOVS (04 R132). A read of CYC0 or CTS0 latches its six bytes. -/
def execMovs (c : Core) (gd : GReg) (sr : Byte) (s : State) : Res State :=
  .next (s.issue c .plain fun x s =>
    let r := s.srRead c x sr.toNat
    { st := s, now := fun y => { y.setReg gd.toNat r.1 with cycL := r.2.cycL, ctsL := r.2.ctsL } })

/-- MOVT (04 R132, R149). -/
def execMovt (c : Core) (sr : Byte) (gs : GReg) (s : State) : Res State :=
  .next (s.issue c .plain fun x s =>
    let v := x.reg gs.toNat
    { st := s.srOutside c sr.toNat v, now := srWrite c sr.toNat v, fly := srWindow c sr.toNat v x })

/-- EVRET (05 R166): outside an event task it executes as NOP. -/
def execEvret (c : Core) (s : State) : Res State :=
  .next (s.issueThen c .ending (fun _ s => { st := s }) fun s => if s.inTask c then s.endTask c else s)

/-- BRK (05 R167, 06 R227, R234, R235): on a scan lane, while breakpoints and BRK are enabled, a hit at its own address, at which the lane stands until it resumes;
otherwise it executes as NOP. -/
def execBrk (c : Core) (code : BitVec 14) (s : State) : Res State :=
  .next (s.issue c .lockMark fun x s =>
    if decide (c.val < 68) && s.bpActive && s.rb Reg.DBG_CTRL 1 then
      { st := s.breakHit c ((s.scanOf c).getD 0) x.pc (some code.toNat), did := false }
    else { st := s })

/-- JMPR (05 R168). -/
def execJmpr (c : Core) (pb : PReg) (s : State) : Res State :=
  .next (s.jumpOp c (fun x => some (x.pair (2 * pb.toNat)).toNat) fun _ y => y)

/-- BR (05 R187); cond 15 is unassigned, a host error (04 R160). -/
def execBr (c : Core) (cond : BitVec 4) (off : BitVec 14) (s : State) : Res State :=
  .next (if cond.toNat = 15 then s.badInstr c
    else s.jumpOp c (fun x => if x.cond cond.toNat then some (relTarget c x off) else none) fun _ y => y)

/-- BRF (05 R188); conditions above 3 are unassigned, a host error (04 R160). -/
def execBrf (c : Core) (cond : BitVec 4) (off : BitVec 14) (s : State) : Res State :=
  .next (if 3 < cond.toNat then s.badInstr c
    else s.jumpOp c (fun x => if x.condF cond.toNat then some (relTarget c x off) else none) fun _ y => y)

/-- JMP (05 R189). -/
def execJmp (c : Core) (target : BitVec 14) (s : State) : Res State := .next (s.jumpOp c (fun x => some (absTarget c x target)) fun _ y => y)

/-- CALL (05 R189): p15 takes the address after the delay slot. -/
def execCall (c : Core) (target : BitVec 14) (s : State) : Res State :=
  .next (s.jumpOp c (fun x => some (absTarget c x target)) fun x y => y.setPair 30 (BitVec.ofNat 16 ((x.pc + 2) % pcSize c)))

end Sys2Proof.Machine
end

