-- ==== Sys2Proof/Machine/Svc.lean ====
section
/-! DEFINITION. The service port: frames, responses and the commands (18 R551–R556, R573). A command is a whole frame with a good CRC, or one that fails. -/

-- one declaration at a time: many at once take a thread and its stack each
set_option Elab.async false

namespace Sys2Proof.Machine

namespace State

/-- The ROM answers, in the boot failure state (03 R108). -/
def svcRom (s : State) : Bool := s.mode == Mode.boot && s.bootPhase == 15

/-- Frames reach Stone, in every mode but BACKUP, or the ROM in the boot failure state (18 R553, R554; 03 R108). -/
def svcHears (s : State) : Bool :=
  s.domOn 11 && s.rb (Reg.PAGE_CTRL 0x1A) 0 && s.mode != Mode.backup && !s.sys.inReset &&
    (s.mode != Mode.boot || s.svcRom || decide (7 ≤ s.bootPhase))

/-- A frame (18 R551). -/
def svcBytes (cmd seq : Byte) (status : Nat) (payload : List Byte) : List Byte :=
  let body := leBytes 2 payload.length ++ [cmd, seq, BitVec.ofNat 8 status] ++ payload
  0xA5 :: body ++ leBytes 2 (crc16 body).toNat

/-- A response leaves; SVC_TX counts it. -/
def svcSend (s : State) (bytes : List Byte) : State :=
  let s := (s.bump Reg.SVC_TX).send (.uart bytes)
  { s with svc := { s.svc with errSeen := false } }

/-- An executed frame ends: its response, SVC_RX_OK, SVC_STAT and event 201 (18 R553, R573). `rcmd`: the CMD of the response. -/
def svcDone (s : State) (seq cmd rcmd : Byte) (status : Nat) (payload : List Byte) : State :=
  let b := svcBytes rcmd seq status payload
  let s := { s with svc := { s.svc with last := some (seq, b) } }
  let s := ((s.bump Reg.SVC_RX_OK).setRf Reg.SVC_STAT 15 8 cmd.toNat).setRf Reg.SVC_STAT 23 16 status
  (s.svcSend b).raise 201 (cmd.toNat + 256 * (status % 256))

/-- The answer to a command of the table of R554. -/
def svcAnswer (s : State) (seq cmd : Byte) (status : Nat) (payload : List Byte) : State := s.svcDone seq cmd (cmd ||| 0x80) status payload

/-- 300 ms in quarter nanoseconds (18 R553). -/
abbrev svcLimit : Nat := 1200000000

/-- A MODE_REQ whose request has its outcome, or 300 ms behind it, is answered (18 R554). -/
def svcPoll (s : State) : State :=
  match s.svc.wait with
  | none => s
  | some (seq, t) =>
    if s.rf Reg.SYS_MODESTAT 5 4 ≠ 1 ∨ t + svcLimit ≤ s.now then
      ({ s with svc := { s.svc with wait := none } }).svcAnswer seq 7 0 (leBytes 4 (s.reg Reg.SYS_MODESTAT).toNat)
    else s

/-- A frame that passes R552: dropped while one is executing, answered again where its SEQ is that of the last executed one, answered BAD_LEN where its length
is wrong, and executed otherwise (18 R553, R556). -/
def svcTake (s : State) (seq cmd : Byte) (lenOk : Bool) (f : State → State) : State :=
  if !s.svcHears then s
  else
    let s := s.svcPoll
    if s.svc.wait.isSome || s.svc.queued.isSome then s.bump Reg.SVC_BUSYDROP
    else match s.svc.last with
      | some (q, b) => if q = seq then s.svcSend b else if lenOk then f s else s.svcSend (svcBytes (cmd ||| 0x80) seq 12 [])
      | none => if lenOk then f s else s.svcSend (svcBytes (cmd ||| 0x80) seq 12 [])

/-- IDENTIFY (18 R554). -/
def svcIdentity (s : State) : List Byte :=
  leBytes 8 (s.reg64 Reg.FUS_UID_LO) ++ leBytes 1 (s.rf Reg.SYS_STRAPS 3 0) ++ leBytes 4 (s.reg Reg.SYS_BOOTSTAT).toNat
    ++ leBytes 1 (s.reg Reg.SYS_MODE).toNat ++ leBytes 4 (s.reg Reg.UPD_VER_STONE).toNat ++ leBytes 1 (s.runningArb 1)
    ++ leBytes 4 (s.reg Reg.UPD_VER_PULP).toNat ++ leBytes 1 (s.runningArb 2) ++ leBytes 1 s.fuseCount ++ leBytes 4 s.updStatView.toNat

/-- An update command from the service port; the ROM takes those for Stone alone (18 R554, R562–R566). -/
def svcUpdRun (s : State) (cmd : Byte) (f : List Byte) (ok : Bool) : (Nat × List Byte) × State :=
  let r := s.sess
  let live := r.state = 1 ∨ r.state = 2
  let other := if cmd = 2 then byteAt f 6 != 1 else decide live && r.target != 1
  if s.svcRom && other then ((8, []), s)
  else match cmd.toNat with
    | 2 => let q := s.updOpen 1 f ok; ((q.1, []), q.2)
    | 3 => let q := s.updPiece 1 (ofLE (sub f 0 2)) (ofLE (sub f 2 4)) (f.drop 6) ok; ((q.1, []), q.2)
    | 4 => ((0, leBytes 4 s.updStatView.toNat ++ s.rdBytes (keepPage 1113) 16 ++ r.ident), s)
    | _ => let q := s.updAbort 1; ((q.1, []), q.2)

/-- An update command waits while one of the host's is in progress: Stone takes them one at a time, in order of arrival (18 R562). -/
def svcUpd (s : State) (seq cmd : Byte) (f : List Byte) (ok : Bool) : State :=
  if s.upd.cmd.isSome then { s with svc := { s.svc with queued := some (seq, cmd, f, ok) } }
  else let q := s.svcUpdRun cmd f ok; q.2.svcAnswer seq cmd q.1.1 q.1.2

/-- The update command that waited for the host's. -/
def svcResume (s : State) : State :=
  match s.svc.queued with
  | some (seq, cmd, f, ok) => if s.upd.cmd.isSome then s else { s with svc := { s.svc with queued := none } }.svcUpd seq cmd f ok
  | none => s

/-- Words from device address `a` on as the Steward reads them; those of the FUS page and of R545 read 0 where `hide`. -/
def svcWords (s : State) (hide : Bool) (a : Nat) : Nat → List Byte × State
  | 0 => ([], s)
  | n + 1 =>
    let secret := match region a with
      | some r => r.page == 0x23 || (match target r.page (a % 0x1000) with | some t => t.row.stone | none => false)
      | none => false
    let w := if hide && secret then ([0, 0, 0, 0], s) else s.accRead .steward a 4
    let q := w.2.svcWords hide (a + 4) n
    (w.1 ++ q.1, q.2)

/-- DIAG_DUMP (18 R554). A selector, or a block of a page, that the table does not have answers free values. -/
def svcDump (s : State) (f : List Byte) : (Nat × List Byte) × State :=
  let sel := byteAt f 0
  if !s.rb Reg.SVC_CFG 1 || (s.svcRom && sel == 3) then ((8, []), s)
  else
    let free := let g := s.freeBytes (List.replicate 1024 0); ((g.1.getD 0 0).toNat, g.1, g.2)
    match sel with
    | 0 => let q := s.svcWords false 0x01003C00 256; ((0, q.1), q.2)
    | 1 => let q := s.svcWords false 0x01016A00 9; ((0, q.1), q.2)
    | 2 => let q := s.svcWords false 0x01000900 8; ((0, q.1), q.2)
    | 3 =>
      if byteAt f 1 < 37 ∧ byteAt f 2 < 4 then let q := s.svcWords true (Reg.page (byteAt f 1) + 0x400 * byteAt f 2) 256; ((0, q.1), q.2)
      else ((free.1, free.2.1), free.2.2)
    | _ => ((free.1, free.2.1), free.2.2)

/-- MODE_REQ (18 R554, R573): event 202, the request, and the answer once it has an outcome. An unassigned mode code is a host error (18 R577): the result is free. -/
def svcMode (s : State) (seq : Byte) (f : List Byte) : State :=
  let t := byteAt f 0
  let s := s.raise 202 (t % 16)
  if s.svcRom || !s.rb Reg.SVC_CFG 0 then s.svcAnswer seq 7 8 []
  else if 11 < t then
    let g := s.freeBytes [0, 0, 0, 0, 0]
    g.2.svcAnswer seq 7 (g.1.getD 0 0).toNat (g.1.drop 1)
  else
    let s := s.requestMode t
    ({ s with svc := { s.svc with wait := some (seq, s.now) } }).svcPoll

/-- A frame that R552 discards: SVC_RX_ERR, and event 200 at the first one after each response. -/
def svcBad (s : State) : State :=
  if !s.svcHears then s
  else
    let first := !s.svc.errSeen
    let s := s.bump Reg.SVC_RX_ERR
    let s := { s with svc := { s.svc with errSeen := true } }
    if first then s.raiseFree 200 else s

end State

open State

/-! ## The commands -/

/-- SVC_BAD_FRAME (18 R552). -/
def execSvcBadFrame (s : State) : Res State := .next s.svcBad

/-- SVC_GAP_TIMEOUT (18 R552): the frame is abandoned; nothing is received. -/
def execSvcGapTimeout (s : State) : Res State := .next (s.setRb Reg.SVC_STAT 0 false)

/-- IDENTIFY (18 R554). -/
def execIdentify (seq : Byte) (s : State) : Res State := .next (s.svcTake seq 1 true fun s => s.svcAnswer seq 1 0 s.svcIdentity)

/-- UPD_OPEN (18 R564): the payload is the header; `ok`: the flash verifies. -/
def execUpdOpen (seq : Byte) (f : List Byte) (ok : Bool) (s : State) : Res State :=
  .next (s.svcTake seq 2 (f.length == 256) fun s => s.svcUpd seq 2 f ok)

/-- UPD_PIECE (18 R565): index, CRC-32C and 4,096 bytes. -/
def execUpdPiece (seq : Byte) (f : List Byte) (ok : Bool) (s : State) : Res State :=
  .next (s.svcTake seq 3 (f.length == 4102) fun s => s.svcUpd seq 3 f ok)

/-- UPD_STATUS (18 R554). -/
def execUpdStatus (seq : Byte) (s : State) : Res State := .next (s.svcTake seq 4 true fun s => s.svcUpd seq 4 [] true)

/-- UPD_ABORT (18 R566). -/
def execUpdAbort (seq : Byte) (s : State) : Res State := .next (s.svcTake seq 5 true fun s => s.svcUpd seq 5 [] true)

/-- DIAG_DUMP (18 R554): selector and argument. -/
def execDiagDump (seq : Byte) (f : List Byte) (s : State) : Res State :=
  .next (s.svcTake seq 6 (f.length == 3) fun s => let q := s.svcDump f; q.2.svcAnswer seq 6 q.1.1 q.1.2)

/-- MODE_REQ (18 R554): the target mode code. -/
def execModeReq (seq : Byte) (f : List Byte) (s : State) : Res State := .next (s.svcTake seq 7 (f.length == 1) fun s => s.svcMode seq f)

/-- UNKNOWN_CMD (18 R556): answered with the frame's own CMD; a CMD of the table of R554 is none. -/
def execUnknownCmd (seq cmd : Byte) (s : State) : Res State :=
  .next (if 1 ≤ cmd.toNat ∧ cmd.toNat ≤ 7 then s else s.svcTake seq cmd true fun s => s.svcDone seq cmd cmd 11 [])

/-- HCMD_DONE (18 R562). `ok`: the flash verifies. The service port's waiting update command follows. -/
def execHcmdDone (ok : Bool) (s : State) : Res State := .next (s.hcmdDone ok).svcResume

end Sys2Proof.Machine
end

