-- ==== Sys2Proof/Machine/Dispatch.lean ====
section
/-! DEFINITION. The meaning of every command, one arm per constructor of Instr in the order of spec/opcode_table.json. -/

namespace Sys2Proof.Machine

/-- The effect of a command on everything but the queue. -/
def exec (i : Instr) (s : State) : Host.Outcome State Fault Refusal :=
  match i with
  | .lowPartLatch ag addr n => Sys2Proof.Machine.execLowPartLatch ag addr n s
  | .registerWrite ag addr n v => Sys2Proof.Machine.execRegisterWrite ag addr n v s
  | .rclRead ag addr => Sys2Proof.Machine.execRclRead ag addr s
  | .heldRequestStart fn => Sys2Proof.Machine.execHeldRequestStart fn s
  | .bar0winWrite ag v => Sys2Proof.Machine.execBar0winWrite ag v s
  | .softRst ag page => Sys2Proof.Machine.execSoftRst ag page s
  | .softRstEnd page => Sys2Proof.Machine.execSoftRstEnd page s
  | .pageEnable ag page en => Sys2Proof.Machine.execPageEnable ag page en s
  | .freezeSet ag page => Sys2Proof.Machine.execFreezeSet ag page s
  | .freezeClear ag page => Sys2Proof.Machine.execFreezeClear ag page s
  | .ownerWrite ag page v => Sys2Proof.Machine.execOwnerWrite ag page v s
  | .ownerLock ag page => Sys2Proof.Machine.execOwnerLock ag page s
  | .cfgswapGo ag => Sys2Proof.Machine.execCfgswapGo ag s
  | .configSwap => Sys2Proof.Machine.execConfigSwap s
  | .cfgswapCopy ag => Sys2Proof.Machine.execCfgswapCopy ag s
  | .copyDone => Sys2Proof.Machine.execCopyDone s
  | .mapCheck => Sys2Proof.Machine.execMapCheck s
  | .evtPendClear ag page v => Sys2Proof.Machine.execEvtPendClear ag page v s
  | .evtSwraise ag v => Sys2Proof.Machine.execEvtSwraise ag v s
  | .msixMessage vec => Sys2Proof.Machine.execMsixMessage vec s
  | .logWrite => Sys2Proof.Machine.execLogWrite s
  | .logRidxWrite ag v => Sys2Proof.Machine.execLogRidxWrite ag v s
  | .sysModereq ag v => Sys2Proof.Machine.execSysModereq ag v s
  | .modeChange => Sys2Proof.Machine.execModeChange s
  | .mainSupplyFail vbat => Sys2Proof.Machine.execMainSupplyFail vbat s
  | .supplyWarn k => Sys2Proof.Machine.execSupplyWarn k s
  | .vbatLow => Sys2Proof.Machine.execVbatLow s
  | .powerOn vbatKept => Sys2Proof.Machine.execPowerOn vbatKept s
  | .rstNLow ns => Sys2Proof.Machine.execRstNLow ns s
  | .sysReset ag v => Sys2Proof.Machine.execSysReset ag v s
  | .romStart obs => Sys2Proof.Machine.execRomStart obs s
  | .hostbootGo ag v => Sys2Proof.Machine.execHostbootGo ag v s
  | .bootDone us => Sys2Proof.Machine.execBootDone us s
  | .domainRequest ag d v => Sys2Proof.Machine.execDomainRequest ag d v s
  | .domDone d => Sys2Proof.Machine.execDomDone d s
  | .pllUnlock p => Sys2Proof.Machine.execPllUnlock p s
  | .ref25Measurement ppm => Sys2Proof.Machine.execRef25Measurement ppm s
  | .halt c => Sys2Proof.Machine.execHalt c s
  | .stewardWake => Sys2Proof.Machine.execStewardWake s
  | .nop c => Sys2Proof.Machine.execNop c s
  | .repImm c n => Sys2Proof.Machine.execRepImm c n s
  | .repReg c g => Sys2Proof.Machine.execRepReg c g s
  | .repRc c => Sys2Proof.Machine.execRepRc c s
  | .seal c n => Sys2Proof.Machine.execSeal c n s
  | .lck c n => Sys2Proof.Machine.execLck c n s
  | .lockTimeout c => Sys2Proof.Machine.execLockTimeout c s
  | .step c => Sys2Proof.Machine.execStep c s
  | .movs c gd sr => Sys2Proof.Machine.execMovs c gd sr s
  | .movt c sr gs => Sys2Proof.Machine.execMovt c sr gs s
  | .evret c => Sys2Proof.Machine.execEvret c s
  | .brk c code => Sys2Proof.Machine.execBrk c code s
  | .jmpr c pb => Sys2Proof.Machine.execJmpr c pb s
  | .pshk c => Sys2Proof.Machine.execPshk c s
  | .popk c => Sys2Proof.Machine.execPopk c s
  | .andpk c => Sys2Proof.Machine.execAndpk c s
  | .orpk c => Sys2Proof.Machine.execOrpk c s
  | .xorpk c => Sys2Proof.Machine.execXorpk c s
  | .notk c => Sys2Proof.Machine.execNotk c s
  | .onek c => Sys2Proof.Machine.execOnek c s
  | .zerok c => Sys2Proof.Machine.execZerok c s
  | .ld c g pb disp => Sys2Proof.Machine.execLd c g pb disp s
  | .st c g pb disp => Sys2Proof.Machine.execSt c g pb disp s
  | .ldp c g pb disp => Sys2Proof.Machine.execLdp c g pb disp s
  | .stp c g pb disp => Sys2Proof.Machine.execStp c g pb disp s
  | .ldk c b pb disp => Sys2Proof.Machine.execLdk c b pb disp s
  | .ldkn c b pb disp => Sys2Proof.Machine.execLdkn c b pb disp s
  | .andk c b pb disp => Sys2Proof.Machine.execAndk c b pb disp s
  | .andkn c b pb disp => Sys2Proof.Machine.execAndkn c b pb disp s
  | .ork c b pb disp => Sys2Proof.Machine.execOrk c b pb disp s
  | .orkn c b pb disp => Sys2Proof.Machine.execOrkn c b pb disp s
  | .xork c b pb disp => Sys2Proof.Machine.execXork c b pb disp s
  | .stk c b pb disp => Sys2Proof.Machine.execStk c b pb disp s
  | .stkn c b pb disp => Sys2Proof.Machine.execStkn c b pb disp s
  | .setk c b pb disp => Sys2Proof.Machine.execSetk c b pb disp s
  | .clrk c b pb disp => Sys2Proof.Machine.execClrk c b pb disp s
  | .rise c b pb disp => Sys2Proof.Machine.execRise c b pb disp s
  | .fall c b pb disp => Sys2Proof.Machine.execFall c b pb disp s
  | .tmr c b pb disp => Sys2Proof.Machine.execTmr c b pb disp s
  | .add c gd gs gt => Sys2Proof.Machine.execAdd c gd gs gt s
  | .adc c gd gs gt => Sys2Proof.Machine.execAdc c gd gs gt s
  | .sub c gd gs gt => Sys2Proof.Machine.execSub c gd gs gt s
  | .sbc c gd gs gt => Sys2Proof.Machine.execSbc c gd gs gt s
  | .and c gd gs gt => Sys2Proof.Machine.execAnd c gd gs gt s
  | .or c gd gs gt => Sys2Proof.Machine.execOr c gd gs gt s
  | .xor c gd gs gt => Sys2Proof.Machine.execXor c gd gs gt s
  | .cmp c gs gt => Sys2Proof.Machine.execCmp c gs gt s
  | .shl c gd gs gt => Sys2Proof.Machine.execShl c gd gs gt s
  | .shr c gd gs gt => Sys2Proof.Machine.execShr c gd gs gt s
  | .asr c gd gs gt => Sys2Proof.Machine.execAsr c gd gs gt s
  | .rol c gd gs gt => Sys2Proof.Machine.execRol c gd gs gt s
  | .ror c gd gs gt => Sys2Proof.Machine.execRor c gd gs gt s
  | .mov c gd gs => Sys2Proof.Machine.execMov c gd gs s
  | .not c gd gs => Sys2Proof.Machine.execNot c gd gs s
  | .neg c gd gs => Sys2Proof.Machine.execNeg c gd gs s
  | .mulu c gd gs gt => Sys2Proof.Machine.execMulu c gd gs gt s
  | .muls c gd gs gt => Sys2Proof.Machine.execMuls c gd gs gt s
  | .divu c gd gs gt => Sys2Proof.Machine.execDivu c gd gs gt s
  | .divs c gd gs gt => Sys2Proof.Machine.execDivs c gd gs gt s
  | .addw c gd gs gt => Sys2Proof.Machine.execAddw c gd gs gt s
  | .subw c gd gs gt => Sys2Proof.Machine.execSubw c gd gs gt s
  | .cmpw c gs gt => Sys2Proof.Machine.execCmpw c gs gt s
  | .movw c gd gs => Sys2Proof.Machine.execMovw c gd gs s
  | .ldi c gd imm => Sys2Proof.Machine.execLdi c gd imm s
  | .addi c gd imm => Sys2Proof.Machine.execAddi c gd imm s
  | .adci c gd imm => Sys2Proof.Machine.execAdci c gd imm s
  | .subi c gd imm => Sys2Proof.Machine.execSubi c gd imm s
  | .sbci c gd imm => Sys2Proof.Machine.execSbci c gd imm s
  | .andi c gd imm => Sys2Proof.Machine.execAndi c gd imm s
  | .ori c gd imm => Sys2Proof.Machine.execOri c gd imm s
  | .xori c gd imm => Sys2Proof.Machine.execXori c gd imm s
  | .cmpi c gd imm => Sys2Proof.Machine.execCmpi c gd imm s
  | .tsti c gd imm => Sys2Proof.Machine.execTsti c gd imm s
  | .shli c gd imm => Sys2Proof.Machine.execShli c gd imm s
  | .shri c gd imm => Sys2Proof.Machine.execShri c gd imm s
  | .asri c gd imm => Sys2Proof.Machine.execAsri c gd imm s
  | .roli c gd imm => Sys2Proof.Machine.execRoli c gd imm s
  | .rori c gd imm => Sys2Proof.Machine.execRori c gd imm s
  | .addwi c gd imm => Sys2Proof.Machine.execAddwi c gd imm s
  | .subwi c gd imm => Sys2Proof.Machine.execSubwi c gd imm s
  | .kfr c gd b => Sys2Proof.Machine.execKfr c gd b s
  | .kto c gd b => Sys2Proof.Machine.execKto c gd b s
  | .br c cond off => Sys2Proof.Machine.execBr c cond off s
  | .brf c cond off => Sys2Proof.Machine.execBrf c cond off s
  | .jmp c target => Sys2Proof.Machine.execJmp c target s
  | .call c target => Sys2Proof.Machine.execCall c target s
  | .lcSwevt c v => Sys2Proof.Machine.execLcSwevt c v s
  | .lcStwqRead => Sys2Proof.Machine.execLcStwqRead s
  | .lcRindStore c off v => Sys2Proof.Machine.execLcRindStore c off v s
  | .lcTpoCommit c n v => Sys2Proof.Machine.execLcTpoCommit c n v s
  | .arbiterDecision id reqs dead => Sys2Proof.Machine.execArbiterDecision id reqs dead s
  | .arbCommit ag v => Sys2Proof.Machine.execArbCommit ag v s
  | .inputFreeze => Sys2Proof.Machine.execInputFreeze s
  | .updateDone clk => Sys2Proof.Machine.execUpdateDone clk s
  | .mergeDone => Sys2Proof.Machine.execMergeDone s
  | .publishCopyDone => Sys2Proof.Machine.execPublishCopyDone s
  | .overrun => Sys2Proof.Machine.execOverrun s
  | .apply => Sys2Proof.Machine.execApply s
  | .rindRefreshSkip => Sys2Proof.Machine.execRindRefreshSkip s
  | .eventDispatch => Sys2Proof.Machine.execEventDispatch s
  | .preemption c => Sys2Proof.Machine.execPreemption c s
  | .laneFault p cause => Sys2Proof.Machine.execLaneFault p cause s
  | .spareReady b => Sys2Proof.Machine.execSpareReady b s
  | .copyErr b addr half => Sys2Proof.Machine.execCopyErr b addr half s
  | .forceflt ag b v => Sys2Proof.Machine.execForceflt ag b v s
  | .breakpointHit p => Sys2Proof.Machine.execBreakpointHit p s
  | .holdKeepalive => Sys2Proof.Machine.execHoldKeepalive s
  | .holdStep ag => Sys2Proof.Machine.execHoldStep ag s
  | .holdCycle ag => Sys2Proof.Machine.execHoldCycle ag s
  | .dbgCoreHalt ag v => Sys2Proof.Machine.execDbgCoreHalt ag v s
  | .dbgCoreRun ag v => Sys2Proof.Machine.execDbgCoreRun ag v s
  | .serviceLaneFault k => Sys2Proof.Machine.execServiceLaneFault k s
  | .psnclr ag v => Sys2Proof.Machine.execPsnclr ag v s
  | .tmcModeWrite ag cell v => Sys2Proof.Machine.execTmcModeWrite ag cell v s
  | .cellCountCommit ag cell v => Sys2Proof.Machine.execCellCountCommit ag cell v s
  | .grfArm ag => Sys2Proof.Machine.execGrfArm ag s
  | .graftDigestDone => Sys2Proof.Machine.execGraftDigestDone s
  | .grfDisarm ag => Sys2Proof.Machine.execGrfDisarm ag s
  | .mapidxWrite ag v => Sys2Proof.Machine.execMapidxWrite ag v s
  | .mapdataHiWrite ag v => Sys2Proof.Machine.execMapdataHiWrite ag v s
  | .mapdataHiRead ag => Sys2Proof.Machine.execMapdataHiRead ag s
  | .graftTestPoint => Sys2Proof.Machine.execGraftTestPoint s
  | .graftAttemptFail => Sys2Proof.Machine.execGraftAttemptFail s
  | .grfApplied => Sys2Proof.Machine.execGrfApplied s
  | .graftLate => Sys2Proof.Machine.execGraftLate s
  | .nonVuvasFrame net => Sys2Proof.Machine.execNonVuvasFrame net s
  | .inFrameRx net f lands => Sys2Proof.Machine.execInFrameRx net f lands s
  | .helloRx net f => Sys2Proof.Machine.execHelloRx net f s
  | .diagRx net f => Sys2Proof.Machine.execDiagRx net f s
  | .partnerOutRx net f => Sys2Proof.Machine.execPartnerOutRx net f s
  | .schedTx => Sys2Proof.Machine.execSchedTx s
  | .safeTx => Sys2Proof.Machine.execSafeTx s
  | .releaseTx => Sys2Proof.Machine.execReleaseTx s
  | .confTx => Sys2Proof.Machine.execConfTx s
  | .releaseRequest ag m v => Sys2Proof.Machine.execReleaseRequest ag m v s
  | .safeRequest ag m v => Sys2Proof.Machine.execSafeRequest ag m v s
  | .outFrameRx net f => Sys2Proof.Machine.execOutFrameRx net f s
  | .schedRx net f => Sys2Proof.Machine.execSchedRx net f s
  | .safeFrameRx net f => Sys2Proof.Machine.execSafeFrameRx net f s
  | .releaseRx net f => Sys2Proof.Machine.execReleaseRx net f s
  | .confRx net f => Sys2Proof.Machine.execConfRx net f s
  | .takeRx net f => Sys2Proof.Machine.execTakeRx net f s
  | .stationApply => Sys2Proof.Machine.execStationApply s
  | .stationSample => Sys2Proof.Machine.execStationSample s
  | .helloTx => Sys2Proof.Machine.execHelloTx s
  | .diagTx => Sys2Proof.Machine.execDiagTx s
  | .stationTimeout => Sys2Proof.Machine.execStationTimeout s
  | .stnLeadLost => Sys2Proof.Machine.execStnLeadLost s
  | .hbTx => Sys2Proof.Machine.execHbTx s
  | .hbRx r => Sys2Proof.Machine.execHbRx r s
  | .twinLinkLost => Sys2Proof.Machine.execTwinLinkLost s
  | .takeInPulse ns => Sys2Proof.Machine.execTakeInPulse ns s
  | .dtimeRx r => Sys2Proof.Machine.execDtimeRx r s
  | .dlineRx r => Sys2Proof.Machine.execDlineRx r s
  | .cfgwRx r => Sys2Proof.Machine.execCfgwRx r s
  | .commitRx r => Sys2Proof.Machine.execCommitRx r s
  | .deltaLate => Sys2Proof.Machine.execDeltaLate s
  | .digestRx r => Sys2Proof.Machine.execDigestRx r s
  | .pubwaitExpiry => Sys2Proof.Machine.execPubwaitExpiry s
  | .switchReq r => Sys2Proof.Machine.execSwitchReq r s
  | .switchAck r => Sys2Proof.Machine.execSwitchAck r s
  | .cmdReset r => Sys2Proof.Machine.execCmdReset r s
  | .cmdHandover r => Sys2Proof.Machine.execCmdHandover r s
  | .cmdDiverge r => Sys2Proof.Machine.execCmdDiverge r s
  | .cmdHold r => Sys2Proof.Machine.execCmdHold r s
  | .cmdResume r => Sys2Proof.Machine.execCmdResume r s
  | .cmdGrfDigest r => Sys2Proof.Machine.execCmdGrfDigest r s
  | .cmdGrfGo r => Sys2Proof.Machine.execCmdGrfGo r s
  | .twnPreset ag v => Sys2Proof.Machine.execTwnPreset ag v s
  | .twnSwitch ag => Sys2Proof.Machine.execTwnSwitch ag s
  | .twnResync ag => Sys2Proof.Machine.execTwnResync ag s
  | .flineRx r => Sys2Proof.Machine.execFlineRx r s
  | .fmarkRx r => Sys2Proof.Machine.execFmarkRx r s
  | .timSet ag => Sys2Proof.Machine.execTimSet ag s
  | .timStep ag => Sys2Proof.Machine.execTimStep ag s
  | .loadrtc ag => Sys2Proof.Machine.execLoadrtc ag s
  | .rtcLoad => Sys2Proof.Machine.execRtcLoad s
  | .offsetMeasurement ag v => Sys2Proof.Machine.execOffsetMeasurement ag v s
  | .holdoverExpiry => Sys2Proof.Machine.execHoldoverExpiry s
  | .tciEdge n rising => Sys2Proof.Machine.execTciEdge n rising s
  | .tciTsRead ag n => Sys2Proof.Machine.execTciTsRead ag n s
  | .tpoArm ag n v => Sys2Proof.Machine.execTpoArm ag n v s
  | .tpoUnarm ag n v => Sys2Proof.Machine.execTpoUnarm ag n v s
  | .tpoEdge n => Sys2Proof.Machine.execTpoEdge n s
  | .tpoDone n => Sys2Proof.Machine.execTpoDone n s
  | .ethEnable ag n en => Sys2Proof.Machine.execEthEnable ag n en s
  | .ethTransitionDone n => Sys2Proof.Machine.execEthTransitionDone n s
  | .mdioGo ag n v => Sys2Proof.Machine.execMdioGo ag n v s
  | .mdioDone n data => Sys2Proof.Machine.execMdioDone n data s
  | .ethTxFrame n => Sys2Proof.Machine.execEthTxFrame n s
  | .txtsRead ag n => Sys2Proof.Machine.execTxtsRead ag n s
  | .ethRxFrame n f ok => Sys2Proof.Machine.execEthRxFrame n f ok s
  | .linkChange n up speed => Sys2Proof.Machine.execLinkChange n up speed s
  | .canEnable ag n en => Sys2Proof.Machine.execCanEnable ag n en s
  | .canTransitionDone n => Sys2Proof.Machine.execCanTransitionDone n s
  | .canRxFrame n f age => Sys2Proof.Machine.execCanRxFrame n f age s
  | .rxfullAck ag n m v => Sys2Proof.Machine.execRxfullAck ag n m v s
  | .txrdy ag n m v => Sys2Proof.Machine.execTxrdy ag n m v s
  | .txcan ag n m v => Sys2Proof.Machine.execTxcan ag n m v s
  | .canTxSelect n => Sys2Proof.Machine.execCanTxSelect n s
  | .canTxEnd n r age => Sys2Proof.Machine.execCanTxEnd n r age s
  | .canRecover ag n => Sys2Proof.Machine.execCanRecover ag n s
  | .canRecovered n => Sys2Proof.Machine.execCanRecovered n s
  | .rndEnable ag en => Sys2Proof.Machine.execRndEnable ag en s
  | .rndChen ag v => Sys2Proof.Machine.execRndChen ag v s
  | .enableDone fn => Sys2Proof.Machine.execEnableDone fn s
  | .rindRefresh crcOk => Sys2Proof.Machine.execRindRefresh crcOk s
  | .rindApply crcOk => Sys2Proof.Machine.execRindApply crcOk s
  | .rindSafeFrame crcOk => Sys2Proof.Machine.execRindSafeFrame crcOk s
  | .rindReleaseFrame crcOk => Sys2Proof.Machine.execRindReleaseFrame crcOk s
  | .rindDirectFrame crcOk => Sys2Proof.Machine.execRindDirectFrame crcOk s
  | .rindConfigFrame crcOk => Sys2Proof.Machine.execRindConfigFrame crcOk s
  | .rindSample levels => Sys2Proof.Machine.execRindSample levels s
  | .rindReport rx => Sys2Proof.Machine.execRindReport rx s
  | .rindTimeout => Sys2Proof.Machine.execRindTimeout s
  | .demagEnd c => Sys2Proof.Machine.execDemagEnd c s
  | .thermalShutdown c on => Sys2Proof.Machine.execThermalShutdown c on s
  | .rndCmdSafe ag => Sys2Proof.Machine.execRndCmdSafe ag s
  | .rndCmdRelease ag => Sys2Proof.Machine.execRndCmdRelease ag s
  | .rindLinkLost => Sys2Proof.Machine.execRindLinkLost s
  | .rindFaultClear ag => Sys2Proof.Machine.execRindFaultClear ag s
  | .vfldLost => Sys2Proof.Machine.execVfldLost s
  | .vfldBack => Sys2Proof.Machine.execVfldBack s
  | .wdtPeriodCommit ag v => Sys2Proof.Machine.execWdtPeriodCommit ag v s
  | .wdtConfigCommit ag warn v => Sys2Proof.Machine.execWdtConfigCommit ag warn v s
  | .wdtService ag v => Sys2Proof.Machine.execWdtService ag v s
  | .wdtCheckin ag v => Sys2Proof.Machine.execWdtCheckin ag v s
  | .wdtWindowOpen => Sys2Proof.Machine.execWdtWindowOpen s
  | .warn => Sys2Proof.Machine.execWarn s
  | .wdtExpiry => Sys2Proof.Machine.execWdtExpiry s
  | .wdpulseEnd => Sys2Proof.Machine.execWdpulseEnd s
  | .keepLoad ag page => Sys2Proof.Machine.execKeepLoad ag page s
  | .keepCommit ag page => Sys2Proof.Machine.execKeepCommit ag page s
  | .pipinc ag page => Sys2Proof.Machine.execPipinc ag page s
  | .pipread ag page => Sys2Proof.Machine.execPipread ag page s
  | .pipinit ag page => Sys2Proof.Machine.execPipinit ag page s
  | .unlockRd ag => Sys2Proof.Machine.execUnlockRd ag s
  | .unlockWr ag => Sys2Proof.Machine.execUnlockWr ag s
  | .keepLock ag => Sys2Proof.Machine.execKeepLock ag s
  | .setpwRd ag => Sys2Proof.Machine.execSetpwRd ag s
  | .setpwWr ag => Sys2Proof.Machine.execSetpwWr ag s
  | .setbp ag => Sys2Proof.Machine.execSetbp ag s
  | .keepCmdExecute => Sys2Proof.Machine.execKeepCmdExecute s
  | .commitDone vf => Sys2Proof.Machine.execCommitDone vf s
  | .keepBackgroundWrite page vf => Sys2Proof.Machine.execKeepBackgroundWrite page vf s
  | .rtcSecondTick => Sys2Proof.Machine.execRtcSecondTick s
  | .compWindow temp => Sys2Proof.Machine.execCompWindow temp s
  | .oscStop => Sys2Proof.Machine.execOscStop s
  | .pd0PowerUp => Sys2Proof.Machine.execPd0PowerUp s
  | .vbatChangeover toVbat => Sys2Proof.Machine.execVbatChangeover toVbat s
  | .rtcSet ag => Sys2Proof.Machine.execRtcSet ag s
  | .addh ag => Sys2Proof.Machine.execAddh ag s
  | .subh ag => Sys2Proof.Machine.execSubh ag s
  | .fromnet ag => Sys2Proof.Machine.execFromnet ag s
  | .rtcXfer => Sys2Proof.Machine.execRtcXfer s
  | .flr => Sys2Proof.Machine.execFlr s
  | .perst => Sys2Proof.Machine.execPerst s
  | .flrDone => Sys2Proof.Machine.execFlrDone s
  | .pcieLinkUp speed width => Sys2Proof.Machine.execPcieLinkUp speed width s
  | .pcieLinkDown => Sys2Proof.Machine.execPcieLinkDown s
  | .aerUe => Sys2Proof.Machine.execAerUe s
  | .aerCe => Sys2Proof.Machine.execAerCe s
  | .mbxH2dSet v => Sys2Proof.Machine.execMbxH2dSet v s
  | .mbxH2dClear ag v => Sys2Proof.Machine.execMbxH2dClear ag v s
  | .mbxD2hSet ag v => Sys2Proof.Machine.execMbxD2hSet ag v s
  | .mbxD2hClear v => Sys2Proof.Machine.execMbxD2hClear v s
  | .svcBadFrame => Sys2Proof.Machine.execSvcBadFrame s
  | .svcGapTimeout => Sys2Proof.Machine.execSvcGapTimeout s
  | .identify seq => Sys2Proof.Machine.execIdentify seq s
  | .updOpen seq f ok => Sys2Proof.Machine.execUpdOpen seq f ok s
  | .updPiece seq f ok => Sys2Proof.Machine.execUpdPiece seq f ok s
  | .updStatus seq => Sys2Proof.Machine.execUpdStatus seq s
  | .updAbort seq => Sys2Proof.Machine.execUpdAbort seq s
  | .diagDump seq f => Sys2Proof.Machine.execDiagDump seq f s
  | .modeReq seq f => Sys2Proof.Machine.execModeReq seq f s
  | .unknownCmd seq cmd => Sys2Proof.Machine.execUnknownCmd seq cmd s
  | .qspRead ag => Sys2Proof.Machine.execQspRead ag s
  | .qspProgram ag => Sys2Proof.Machine.execQspProgram ag s
  | .qspErase4k ag => Sys2Proof.Machine.execQspErase4k ag s
  | .qspErase64k ag => Sys2Proof.Machine.execQspErase64k ag s
  | .qspDone bank err => Sys2Proof.Machine.execQspDone bank err s
  | .hcmdOpen ag => Sys2Proof.Machine.execHcmdOpen ag s
  | .hcmdPiece ag => Sys2Proof.Machine.execHcmdPiece ag s
  | .hcmdAbort ag => Sys2Proof.Machine.execHcmdAbort ag s
  | .arbAdvance ag v => Sys2Proof.Machine.execArbAdvance ag v s
  | .secureBoot ag v => Sys2Proof.Machine.execSecureBoot ag v s
  | .dbgLock ag v => Sys2Proof.Machine.execDbgLock ag v s
  | .keyrev ag v => Sys2Proof.Machine.execKeyrev ag v s
  | .hcmdDone ok => Sys2Proof.Machine.execHcmdDone ok s
  | .keyUnwrap ag => Sys2Proof.Machine.execKeyUnwrap ag s
  | .keyClear ag => Sys2Proof.Machine.execKeyClear ag s
  | .xcmdGo ag => Sys2Proof.Machine.execXcmdGo ag s
  | .evtset ag v => Sys2Proof.Machine.execEvtset ag v s
  | .fusArbBit ag v => Sys2Proof.Machine.execFusArbBit ag v s
  | .fusSecureBoot ag v => Sys2Proof.Machine.execFusSecureBoot ag v s
  | .fusDbgLock ag v => Sys2Proof.Machine.execFusDbgLock ag v s
  | .fusKeyrev ag v => Sys2Proof.Machine.execFusKeyrev ag v s
  | .fusProgramDone ok => Sys2Proof.Machine.execFusProgramDone ok s
  | .scrubRead k key ue ce => Sys2Proof.Machine.execScrubRead k key ue ce s
  | .scrubWriteback key => Sys2Proof.Machine.execScrubWriteback key s
  | .rcalRequest => Sys2Proof.Machine.execRcalRequest s
  | .rtcTrimWindow e discarded => Sys2Proof.Machine.execRtcTrimWindow e discarded s
  | .rateAverage mean => Sys2Proof.Machine.execRateAverage mean s
  | .telemetrySample temps volts => Sys2Proof.Machine.execTelemetrySample temps volts s
  | .lclr ag => Sys2Proof.Machine.execLclr ag s
  | .hbMiss => Sys2Proof.Machine.execHbMiss s
  | .pllLock p => Sys2Proof.Machine.execPllLock p s
  | .canRxError n lec big => Sys2Proof.Machine.execCanRxError n lec big s
  | .currentLimit c on => Sys2Proof.Machine.execCurrentLimit c on s

end Sys2Proof.Machine
end

