-- ==== Sys2Proof/Machine/Words.lean ====
section
/-! DEFINITION. Instruction words (05 R161): the word a core stands at, what executing a word does, and the words that no row of the table spells. -/

-- one declaration at a time: many at once take a thread and its stack each
set_option Elab.async false

namespace Sys2Proof.Machine

/-- What core `c` does when it executes the instruction word `w`: the command that it spells (05 R161); a word with an unassigned code or a reserved operand bit
at 1 leaves registers, flags and memory writes free (04 R160). -/
def execWord (c : Core) (w : BitVec 24) (s : State) : Res State :=
  match decodeLimlis c w with
  | some i => Sys2Proof.Machine.exec i s
  | none => .next (s.badInstr c)

namespace State

/-- The instruction word at which core `c` stands, the lowest byte first (02 R42). -/
def wordAt (s : State) (c : Nat) : BitVec 24 := BitVec.ofNat 24 (s.rdLE (s.instrKey c (s.cx c).pc) 3)

/-- A core that stands at a word which no row of the table spells executes it (04 R160; DESIGN CHOICE, log 50: the other words are executed by the commands
of their rows, which their sender sends). -/
def stray (s : State) (c : Core) : State :=
  if s.canIssue c && (decodeLimlis c (s.wordAt c)).isNone then s.badInstr c else s

/-- Every core that stands at such a word executes it. -/
def strays (s : State) : State := (List.finRange 73).foldl stray s

end State
end Sys2Proof.Machine
end

