-- ==== Sys2Proof/Machine/Step.lean ====
section
/-! DEFINITION. One step: the command at the front of the queue, or one tick of 8 ns where none waits (log 1). -/

-- one declaration at a time: many at once take a thread and its stack each
set_option Elab.async false

namespace Sys2Proof.Machine

namespace State

/-- What time alone does, by one tick of the 125 MHz clock: the time base counts (12 R391), the watchdog counts (15 R479), the Rind's fault bit follows its
causes (14 R474), a MODE_REQ whose outcome is known is answered (18 R554), the two clk in which a stopped lane still issues are over (06 R637), and a core that
stands at a word that is no instruction executes it (04 R160). -/
def tick (s : State) : State :=
  (((({ s with now := s.now + 32 }.timTick).wdtTick 32).rndFault).svcPoll).stopsOver.strays

/-- `s` with the command that a word of the table's bits spells put at the front of its queue; no row has bits. -/
def withFetchWord (s : State) (nbits w : Nat) : State :=
  match decodeTableWord nbits w with
  | some c => { s with pending := c :: s.pending }
  | none => s

end State

/-- Take the command at the front of the queue and run it with the rest of the queue; an empty queue lets 8 ns pass (DESIGN CHOICE, log 1). -/
def step (s : State) : Host.Outcome State Fault Refusal :=
  match s.pending with
  | [] => .next s.tick
  | c :: rest => exec c { s with pending := rest }

end Sys2Proof.Machine
end

