-- ==== Sys2Proof/Safety.lean ====
section
/-! DEFINITION. The terms in which statements speak of a safe run: the canonical form of memory and registers, what a command leaves alone, and when a core
executes an instruction. -/

-- one declaration at a time: many at once take a thread and its stack each
set_option Elab.async false

namespace Sys2Proof.Machine

/-- Memory and registers are in their canonical form. -/
def Inv (s : State) : Prop := Memory.wf s.mem = true ∧ Sparse.wf regReset s.regs = true

/-! ## What an occurrence of an event leaves alone (02 R67–R72) -/

/-- The counters of occurrences that found their destination full. -/
def lossCounters : List Nat := [Reg.EVT_TASK_OVR, Reg.EVT_LOG_DROP, Reg.EVT_STW_OVF]

/-- From `s` to `t` only the registers `R`, the loss counters, and the queues and sequence numbers of the event system changed. -/
structure Only (s t : State) (R : List Nat) : Prop where
  regs : ∀ k, k ∉ R → k ∉ lossCounters → t.reg k = s.reg k
  rest : { t with regs := s.regs, hidden := s.hidden, evt := s.evt, freeCtr := s.freeCtr } = s

/-- Register key of the EVT_RAW word of event source `e`. -/
def rawReg (e : Nat) : Nat := Reg.EVT_RAW (evPage e)
/-- The EVT_RAW bit of event source `e` is 1. -/
def raw (s : State) (e : Nat) : Bool := s.rb (rawReg e) (e - (pageInfo (evPage e)).ev)
/-- From `s` to `t` event source `e` has occurred: its EVT_RAW bit is 1, but where the core clock stands still and the router with it (03 R124). -/
def Raised (s t : State) (e : Nat) : Prop := s.pwr.coreRun = true → raw t e = true

/-! ## When a write to a register takes effect, and what a command leaves alone (02 R43, R44, R57, R629; 03 R83; 00 R11) -/

/-- A write by agent `ag` to the register at device address `a` passes: the core clock runs, its page's domain is ON, its class holds the write right of the page's OWNER or the ROM's
boot window grants it (03 R113), SERVICE and the modes of a standby do not bar it, and the register exists for that agent. -/
structure Writes (s : State) (ag : Agent) (a : Nat) : Prop where
  inPage : 0x01000000 ≤ a ∧ a < 0x01025000 ∧ a % 4 = 0
  clock : s.pwr.coreRun = true
  power : s.domOn (pageInfo ((a - 0x01000000) / 0x1000)).dom = true
  unlocked : ag = .debug → s.rb Reg.FUS_CTRL 1 = false
  right : s.bootGrant ag a true = true ∨ (s.bootWindow ag = false ∧ s.rb (Reg.OWNER ((a - 0x01000000) / 0x1000)) (State.rightBits ag).2 = true)
  service : s.mode ≠ Mode.service ∨ ag = .steward ∨ (a - 0x01000000) / 0x1000 ∈ [0x00, 0x19, 0x1A, 0x1B, 0x17, 0x18]
  exists' : ((target ((a - 0x01000000) / 0x1000) (a % 0x1000)).any fun t => !t.row.stone || ag == .steward) = true
  standby : s.shut = false ∨ s.inCfgSet a = false

/-- A read by agent `ag` of the register at device address `a` passes: the core clock runs, its page's domain is ON, its class holds the read right of the page's OWNER or the ROM's
boot window grants it (03 R113), and the register exists. -/
structure Reads (s : State) (ag : Agent) (a : Nat) : Prop where
  inPage : 0x01000000 ≤ a ∧ a < 0x01025000
  clock : s.pwr.coreRun = true
  power : s.domOn (pageInfo ((a - 0x01000000) / 0x1000)).dom = true
  unlocked : ag = .debug → s.rb Reg.FUS_CTRL 1 = false
  right : s.bootGrant ag a false = true ∨ (s.bootWindow ag = false ∧ s.rb (Reg.OWNER ((a - 0x01000000) / 0x1000)) (State.rightBits ag).1 = true)
  exists' : (target ((a - 0x01000000) / 0x1000) (a % 0x1000 / 4 * 4)).isSome = true

/-- The registers in which a write to a register of the configuration set shows at the twin: TWN_STAT, whose full copy starts again, and the event of that
(11 R386). -/
def copyMarks : List Nat := [Reg.TWN_STAT, rawReg 104]

/-- From `s` to `t` only the registers `R`, the loss counters, the queues of the event system, the agents' staging buffers and what the twin notes of a
configuration write changed. -/
structure Did (s t : State) (R : List Nat) : Prop where
  regs : ∀ k, k ∉ R → k ∉ lossCounters → k ∉ copyMarks → t.reg k = s.reg k
  rest : { t with regs := s.regs, hidden := s.hidden, evt := s.evt, freeCtr := s.freeCtr, stage := s.stage, twn := s.twn } = s

/-- The counter at `k` has counted one occurrence, unless FREEZE holds its page (02 R55). -/
def Counted (s t : State) (k : Nat) : Prop := s.rb (Reg.PAGE_CTRL ((k - 0x01000000) / 0x1000)) 3 = false → t.reg k = s.reg k + 1

/-- The copies of one Vuvas frame that leave: on network A, on network B with its bit in the flags, where each is enabled (10 R317, R320). -/
def frameCopies (s : State) (type flags src epoch seq time : Nat) (segs : List (List Byte)) : List TxItem :=
  (if s.netOn .a then [.vuvas .a (s.vuvHead .a ++ State.vuvBytes type flags src epoch seq time segs)] else []) ++
  (if s.netOn .b then [.vuvas .b (s.vuvHead .b ++ State.vuvBytes type (flags + 4) src epoch seq time segs)] else [])

/-! ## When a core executes an instruction, and what that leaves alone (04 R126, R149, R157, R158, R160; 05 R191; 06 R227, R240, R637; 19 R582) -/

/-- Core `c` executes the word at its PC as an instruction of kind `k`: it may issue, and not as the last before a stop, no instruction is between its two beats
and none that has hit a breakpoint is behind it, no forced fault or breakpoint comes before, the word is readable, and the instruction stands where the manual
allows it. -/
structure Executes (s : State) (c : Nat) (k : Kind) : Prop where
  issues : s.canIssue c = true
  goesOn : (s.core c).stop = none ∨ 1 < (s.core c).grace
  whole : (s.cx c).beat = none
  passed : (s.cx c).atBrk = false
  unforced : (s.core c).forced = false
  unbroken : (s.cx c).skipBp = true ∨ 68 ≤ c ∨ s.bpMatch ((s.scanOf c).getD 0) (s.cx c).pc = false
  word : s.eccMark (s.instrKey c (s.cx c).pc) ≠ 2
  placed : State.misplaced (s.cx c) k = false

/-- The context without a lock whose limit has passed (04 R158). -/
def unexpired (x : Ctx) : Ctx := { x with lock := x.lock.filter fun l => l.limit != 0 }

/-- The context without a lock whose last memory instruction has executed (04 R157). -/
def unspent (x : Ctx) : Ctx := { x with lock := x.lock.filter fun l => l.mem != 0 }

/-- No repetition is left after this one (05 R170). -/
def lastRep (x : Ctx) : Bool := match x.rep with | some r => decide (r.count ≤ r.done + 1) | none => true

/-- The context once an instruction of kind `k` has executed and before its own results: the counts, the next address, the results that land. -/
def ctxAfter (x : Ctx) (c : Nat) (k : Kind) (goes : Goes) : Ctx :=
  { (State.advance' (State.countLock (unexpired x) k goes (lastRep x)) (pcSize c) goes (lastRep x)).land with skipBp := false, beat := none }

/-- From `s` to `t` core `c` has executed one instruction that touches its own context alone; HOLD's single step may end with it (06 R230), arbiters change hands
(07 R259), and the cycle's note of Pantry accesses may grow (06 R242). -/
structure CoreOnly (s t : State) (c : Nat) : Prop where
  regs : s.scn.hold ≠ .step → ∀ k, t.reg k = s.reg k
  ctxs : ∀ d x, d * 8 + x ≠ c * 8 + (s.core c).cur → t.ctx d x = s.ctx d x
  core : t.core c = { s.core c with grace := (s.core c).grace - 1, credit := false }
  cores : ∀ d, d ≠ c → t.core d = s.core d
  rest : { t with regs := s.regs, hidden := s.hidden, evt := s.evt, freeCtr := s.freeCtr, ctxs := s.ctxs, cores := s.cores, arbs := s.arbs,
                  scn := { t.scn with hold := s.scn.hold }, img := { t.img with acc := s.img.acc } } = s

/-- Core `c` has executed an instruction of kind `k` whose results at once are `f`, on a context with what lands written, and whose delayed results
are `fly`. -/
structure Ran (s t : State) (c : Nat) (k : Kind) (goes : Goes) (f : Ctx → Ctx) (fly : List (Dest × Half)) : Prop where
  only : CoreOnly s t c
  ctx : t.cx c = unspent { f (ctxAfter (s.cx c) c k goes) with
    flights := (f (ctxAfter (s.cx c) c k goes)).flights ++ fly.map fun d => ⟨2, d.1, d.2⟩ }

/-! ## Results of the byte and word instructions, in numbers (04 R128; 05 R181–R186) -/

/-- Flags of a result `r` whose exact unsigned value is `u` and exact signed value `i`: C is the carry, Z, N, and V where the signed value does not fit. -/
def flagsOf {w : Nat} (r : BitVec w) (c : Bool) (i : Int) (z : Ctx) : Ctx :=
  { z with fc := c, fz := decide (r.toNat = 0), fn := decide (2 ^ w ≤ 2 * r.toNat), fv := decide (i < -2 ^ (w - 1) ∨ 2 ^ (w - 1) ≤ i) }

/-- Z and N of a byte. -/
def znOf (r : Byte) (z : Ctx) : Ctx := { z with fz := decide (r.toNat = 0), fn := decide (128 ≤ r.toNat) }

/-- The pair of registers `d`, `d + 1` set to `v`, the low byte in `d` (04 R127). -/
def pairSet (d : GReg) (v : Nat) (z : Ctx) : Ctx := (z.setReg d.toNat (BitVec.ofNat 8 v)).setReg (d.toNat + 1) (BitVec.ofNat 8 (v / 256))

/-! ## What a memory instruction sees and stores (04 R135–R139, R149; 05 R175–R178) -/

/-- Core `c` gets bank arbiter `id` and that of its Bunch at once: no other lane holds one of them, and no merge, publish copy or cell update uses the banks
(07 R252, R259, R266; 08 R280). -/
def grants (s : State) (c id : Nat) : Bool :=
  !s.bankBusy id && !(s.arb id).owner.any (· != c) && !(s.arb (c / 17)).owner.any (· != c)

/-- The byte that a load of core `c` in context `x` sees at data address `a`: the lane's own staged entries over the image, a byte stored by one of the last
two instructions at its old value. None where more than a read happens or may come before it: timer cells, lane control, the far window, IMS = 3, a marked
word, a bank that the lane does not get at once, a Pantry access while a lock is open or beside another lane's store (06 R242). -/
def seen (s : State) (c : Nat) (x : Ctx) (a : Nat) : Option Byte :=
  let old := fun (k : Nat) (v : Byte) => ((x.recent.find? (·.key == k)).map (·.old)).getD v
  let free := fun (id k : Nat) => s.eccMark k = 0 ∧ grants s c id = true
  match placeOf c s.activeHalf x (a % 65536) with
  | .scratch k => if s.eccMark k = 2 then none else some (old k (s.rd k))
  | .sram k => some (old k (s.rd k))
  | .const k => some (s.rd k)
  | .zero => some 0
  | .input o => if free (0x10 + o / 128 % 16) (Key.input + o) then some (s.rd (Key.input + o)) else none
  | .status o => if free (0x10 + o / 8 % 16) (Key.status + o) then some (s.rd (Key.status + o)) else none
  | .output o => if free (0x10 + o / 128 % 16) (Key.output + o) then some (old (Key.output + o) (s.overlay c (.img o) (s.rd (Key.output + o)))) else none
  | .exch o => if free (0x10 + o / 128 % 16) (Key.exch + o) then some (old (Key.exch + o) (s.overlay c (.exch o) (s.rd (Key.exch + o)))) else none
  | .pantry k => if free (0x20 + State.groupOf k) k ∧ (s.cx c).lock = none ∧ s.panClash c k false = false then some (old k (s.rd k)) else none
  | .cell .. | .control _ | .far _ | .bad _ => none

/-- The bytes `k` remembered as stored by the current instruction, with the value that the next two still see (04 R149). -/
def noted (s : State) (c k : Nat) (old : Byte) : State := s.setCx c { s.cx c with recent := (s.cx c).recent ++ [⟨0, k, old⟩] }

/-- The state after core `c` in context `x` has stored the bits `mask` of `v` at data address `a`: at once in a scratch, in service RAM or in the Pantry, as a
staged entry for the images and the exchange memory, not at all where the map is read-only. None at the places that `seen` leaves out, and where the buffer is
full. -/
def stored (s : State) (c : Nat) (x : Ctx) (a : Nat) (v mask : Byte) : Option State :=
  let staged := fun (w : Staged) (k : Nat) =>
    if x.task.isSome then some s
    else if (s.core c).swb.length < 512 then
      some (noted (s.setCore c { s.core c with swb := (s.core c).swb ++ [⟨w, mask, v &&& mask⟩], peak := max (s.core c).peak ((s.core c).swb.length + 1) })
        c k (s.overlay c w (s.rd k)))
    else none
  match placeOf c s.activeHalf x (a % 65536) with
  | .scratch k => if s.eccMark k = 2 then none else some ((noted s c k (s.rd k)).wr k (State.putBits (s.rd k) mask v))
  | .sram k => some ((noted s c k (s.rd k)).wr k (State.putBits (s.rd k) mask v))
  | .output o => staged (.img o) (Key.output + o)
  | .exch o => staged (.exch o) (Key.exch + o)
  | .input _ | .status _ | .zero | .const _ => some s
  | .pantry k =>
    if s.eccMark k = 0 ∧ grants s c (0x20 + State.groupOf k) = true ∧ (s.cx c).lock = none ∧ s.panClash c k true = false then
      some ((((noted s c k (s.rd k)).wr k (State.putBits (s.rd k) mask v)).dirty k x.task.isSome).panNote c k true)
    else none
  | .cell .. | .control _ | .far _ | .bad _ => none

end Sys2Proof.Machine
end

