-- ==== Sys2Proof/Certificates/Slice0/Obligations.lean ====
section
/-! DEFINITION. The statements for the provers. -/

-- one declaration at a time: many at once take a thread and its stack each
set_option Elab.async false

open Sys2Proof Sys2Proof.Machine

/-- The byte instructions (04 R128; 05 R181, R182, R186): sums and differences with their flags, the logical and bit operations, the shifts and rotations. -/
def Obligations.ByteOperations : Prop :=
  (∀ (c : Core) (d a b : GReg) (imm : Byte) (s : State), Executes s c .plain →
    let x := s.cx c
    let cin : Nat := if x.fc then 1 else 0
    let plus := fun (d : GReg) (u v : Byte) (n : Nat) (z : Ctx) =>
      flagsOf (u + v + BitVec.ofNat 8 n) (decide (256 ≤ u.toNat + v.toNat + n)) (u.toInt + v.toInt + n) (z.setReg d.toNat (u + v + BitVec.ofNat 8 n))
    let minus := fun (d : GReg) (u v : Byte) (n : Nat) (z : Ctx) =>
      flagsOf (u - v - BitVec.ofNat 8 n) (decide (v.toNat + n ≤ u.toNat)) (u.toInt - v.toInt - n) (z.setReg d.toNat (u - v - BitVec.ofNat 8 n))
    let test := fun (u v : Byte) (z : Ctx) => flagsOf (u - v) (decide (v.toNat ≤ u.toNat)) (u.toInt - v.toInt) z
    (∃ t, exec (.add c d a b) s = .next t ∧ Ran s t c .plain .seq (plus d (x.reg a.toNat) (x.reg b.toNat) 0) []) ∧
    (∃ t, exec (.adc c d a b) s = .next t ∧ Ran s t c .plain .seq (plus d (x.reg a.toNat) (x.reg b.toNat) cin) []) ∧
    (∃ t, exec (.addi c d imm) s = .next t ∧ Ran s t c .plain .seq (plus d (x.reg d.toNat) imm 0) []) ∧
    (∃ t, exec (.adci c d imm) s = .next t ∧ Ran s t c .plain .seq (plus d (x.reg d.toNat) imm cin) []) ∧
    (∃ t, exec (.sub c d a b) s = .next t ∧ Ran s t c .plain .seq (minus d (x.reg a.toNat) (x.reg b.toNat) 0) []) ∧
    (∃ t, exec (.sbc c d a b) s = .next t ∧ Ran s t c .plain .seq (minus d (x.reg a.toNat) (x.reg b.toNat) (1 - cin)) []) ∧
    (∃ t, exec (.subi c d imm) s = .next t ∧ Ran s t c .plain .seq (minus d (x.reg d.toNat) imm 0) []) ∧
    (∃ t, exec (.sbci c d imm) s = .next t ∧ Ran s t c .plain .seq (minus d (x.reg d.toNat) imm (1 - cin)) []) ∧
    (∃ t, exec (.neg c d a) s = .next t ∧ Ran s t c .plain .seq (minus d 0 (x.reg a.toNat) 0) []) ∧
    (∃ t, exec (.cmp c a b) s = .next t ∧ Ran s t c .plain .seq (test (x.reg a.toNat) (x.reg b.toNat)) []) ∧
    (∃ t, exec (.cmpi c d imm) s = .next t ∧ Ran s t c .plain .seq (test (x.reg d.toNat) imm) [])) ∧
  (∀ (c : Core) (d a b : GReg) (imm : Byte) (n : BitVec 3) (s : State), Executes s c .plain →
    let x := s.cx c
    let u := x.reg a.toNat
    let v := x.reg b.toNat
    let w := x.reg d.toNat
    let put := fun (r : Byte) (z : Ctx) => znOf r (z.setReg d.toNat r)
    (∃ t, exec (.and c d a b) s = .next t ∧ Ran s t c .plain .seq (put (u &&& v)) []) ∧
    (∃ t, exec (.or c d a b) s = .next t ∧ Ran s t c .plain .seq (put (u ||| v)) []) ∧
    (∃ t, exec (.xor c d a b) s = .next t ∧ Ran s t c .plain .seq (put (u ^^^ v)) []) ∧
    (∃ t, exec (.not c d a) s = .next t ∧ Ran s t c .plain .seq (put (BitVec.ofNat 8 (255 - u.toNat))) []) ∧
    (∃ t, exec (.mov c d a) s = .next t ∧ Ran s t c .plain .seq (fun z => z.setReg d.toNat u) []) ∧
    (∃ t, exec (.ldi c d imm) s = .next t ∧ Ran s t c .plain .seq (fun z => z.setReg d.toNat imm) []) ∧
    (∃ t, exec (.andi c d imm) s = .next t ∧ Ran s t c .plain .seq (put (w &&& imm)) []) ∧
    (∃ t, exec (.ori c d imm) s = .next t ∧ Ran s t c .plain .seq (put (w ||| imm)) []) ∧
    (∃ t, exec (.xori c d imm) s = .next t ∧ Ran s t c .plain .seq (put (w ^^^ imm)) []) ∧
    (∃ t, exec (.tsti c d imm) s = .next t ∧ Ran s t c .plain .seq (znOf (w &&& imm)) []) ∧
    (∃ t, exec (.kfr c d n) s = .next t ∧ Ran s t c .plain .seq (fun z => { z with fk := w.toNat.testBit n.toNat }) []) ∧
    (∃ t, exec (.kto c d n) s = .next t ∧ Ran s t c .plain .seq
      (fun z => z.setReg d.toNat (BitVec.ofNat 8 (w.toNat - bn (w.toNat.testBit n.toNat) * 2 ^ n.toNat + bn x.fk * 2 ^ n.toNat))) [])) ∧
  (∀ (c : Core) (d a b : GReg) (imm : Byte) (s : State), Executes s c .plain →
    let x := s.cx c
    let put := fun (r : Byte) (cy : Bool → Bool) (z : Ctx) => { znOf r (z.setReg d.toNat r) with fc := cy z.fc }
    let shl := fun (u : Byte) (k : Nat) => put (BitVec.ofNat 8 (u.toNat * 2 ^ k))
      (fun old => if k = 0 then old else if k < 8 then u.toNat.testBit (8 - k) else decide (k = 8) && u.toNat.testBit 7)
    let shr := fun (u : Byte) (k : Nat) => put (BitVec.ofNat 8 (u.toNat / 2 ^ k))
      (fun old => if k = 0 then old else if k < 8 then u.toNat.testBit (k - 1) else decide (k = 8) && u.toNat.testBit 0)
    let asr := fun (u : Byte) (k : Nat) => put (BitVec.ofInt 8 (u.toInt / 2 ^ k))
      (fun old => if k = 0 then old else if k ≤ 8 then u.toNat.testBit (k - 1) else u.toNat.testBit 7)
    let rol := fun (u : Byte) (k : Nat) => let r := BitVec.ofNat 8 (u.toNat * 2 ^ (k % 8) + u.toNat / 2 ^ (8 - k % 8))
      put r (fun old => if k % 8 = 0 then old else r.toNat.testBit 0)
    let ror := fun (u : Byte) (k : Nat) => let r := BitVec.ofNat 8 (u.toNat / 2 ^ (k % 8) + u.toNat * 2 ^ (8 - k % 8))
      put r (fun old => if k % 8 = 0 then old else r.toNat.testBit 7)
    let u := x.reg a.toNat
    let k := (x.reg b.toNat).toNat
    let w := x.reg d.toNat
    (∃ t, exec (.shl c d a b) s = .next t ∧ Ran s t c .plain .seq (shl u k) []) ∧
    (∃ t, exec (.shr c d a b) s = .next t ∧ Ran s t c .plain .seq (shr u k) []) ∧
    (∃ t, exec (.asr c d a b) s = .next t ∧ Ran s t c .plain .seq (asr u k) []) ∧
    (∃ t, exec (.rol c d a b) s = .next t ∧ Ran s t c .plain .seq (rol u k) []) ∧
    (∃ t, exec (.ror c d a b) s = .next t ∧ Ran s t c .plain .seq (ror u k) []) ∧
    (∃ t, exec (.shli c d imm) s = .next t ∧ Ran s t c .plain .seq (shl w imm.toNat) []) ∧
    (∃ t, exec (.shri c d imm) s = .next t ∧ Ran s t c .plain .seq (shr w imm.toNat) []) ∧
    (∃ t, exec (.asri c d imm) s = .next t ∧ Ran s t c .plain .seq (asr w imm.toNat) []) ∧
    (∃ t, exec (.roli c d imm) s = .next t ∧ Ran s t c .plain .seq (rol w imm.toNat) []) ∧
    (∃ t, exec (.rori c d imm) s = .next t ∧ Ran s t c .plain .seq (ror w imm.toNat) []))

/-- MULU, MULS, DIVU and DIVS on an even pair: pair and flags are in flight for the third instruction after (05 R183, R184; 04 R149). -/
def Obligations.MultiplyAndDivide : Prop :=
  ∀ (c : Core) (d a b : GReg) (s : State), Executes s c .plain → d.toNat % 2 = 0 →
    let u := (s.cx c).reg a.toNat
    let v := (s.cx c).reg b.toNat
    let pair := fun (lo hi : Nat) (cy z n o : Bool) => [(Dest.g d, BitVec.ofNat 16 lo), (Dest.g (d + 1), BitVec.ofNat 16 hi), (Dest.cznv cy z n o, (0 : Half))]
    let quot := fun (q r : Nat) => pair q r false (decide (q = 0)) (decide (128 ≤ q)) false
    (∃ t, exec (.mulu c d a b) s = .next t ∧ Ran s t c .plain .seq id
      (let p := u.toNat * v.toNat
       pair (p % 256) (p / 256) (decide (256 ≤ p)) (decide (p = 0)) (decide (32768 ≤ p)) false)) ∧
    (∃ t, exec (.muls c d a b) s = .next t ∧ Ran s t c .plain .seq id
      (let i := u.toInt * v.toInt
       let p := (i % 65536).toNat
       pair (p % 256) (p / 256) (decide (i < -128 ∨ 127 < i)) (decide (p = 0)) (decide (32768 ≤ p)) false)) ∧
    (∃ t, exec (.divu c d a b) s = .next t ∧ Ran s t c .plain .seq id
      (if v.toNat = 0 then pair 255 u.toNat false false true true ++ [(Dest.d, 0)] else quot (u.toNat / v.toNat) (u.toNat % v.toNat))) ∧
    (∃ t, exec (.divs c d a b) s = .next t ∧ Ran s t c .plain .seq id
      (if v.toNat = 0 then pair 255 u.toNat false false true true ++ [(Dest.d, 0)]
       else if u.toInt = -128 ∧ v.toInt = -1 then pair 128 0 false false true true
       else quot ((u.toInt.tdiv v.toInt) % 256).toNat ((u.toInt.tmod v.toInt) % 256).toNat))

/-- The word instructions on even fields, modulo 65,536 with flags on 16 bits; with odd fields the instruction issues too, a lane's goes on behind it, and no other
core or context changes (05 R185, R186; 04 R148, R160). Choices of the model: log 14. -/
def Obligations.WordArithmetic : Prop :=
  ∀ (c : Core) (d a b : GReg) (imm : Byte) (s : State), Executes s c .plain →
    let x := s.cx c
    let pr := fun (r : GReg) => BitVec.ofNat 16 ((x.reg r.toNat).toNat + 256 * (x.reg (r.toNat + 1)).toNat)
    let plus := fun (u v : Half) (z : Ctx) => flagsOf (u + v) (decide (65536 ≤ u.toNat + v.toNat)) (u.toInt + v.toInt) (pairSet d (u + v).toNat z)
    let minus := fun (u v : Half) (z : Ctx) => flagsOf (u - v) (decide (v.toNat ≤ u.toNat)) (u.toInt - v.toInt) (pairSet d (u - v).toNat z)
    (d.toNat % 2 = 0 → a.toNat % 2 = 0 → b.toNat % 2 = 0 →
      (∃ t, exec (.addw c d a b) s = .next t ∧ Ran s t c .plain .seq (plus (pr a) (pr b)) []) ∧
      (∃ t, exec (.subw c d a b) s = .next t ∧ Ran s t c .plain .seq (minus (pr a) (pr b)) []) ∧
      (∃ t, exec (.cmpw c a b) s = .next t ∧ Ran s t c .plain .seq
        (flagsOf (pr a - pr b) (decide ((pr b).toNat ≤ (pr a).toNat)) ((pr a).toInt - (pr b).toInt)) []) ∧
      (∃ t, exec (.movw c d a) s = .next t ∧ Ran s t c .plain .seq (pairSet d (pr a).toNat) []) ∧
      (∃ t, exec (.addwi c d imm) s = .next t ∧ Ran s t c .plain .seq (plus (pr d) (BitVec.ofNat 16 imm.toNat)) []) ∧
      (∃ t, exec (.subwi c d imm) s = .next t ∧ Ran s t c .plain .seq (minus (pr d) (BitVec.ofNat 16 imm.toNat)) [])) ∧
    (d.toNat % 2 = 1 → ∀ i ∈ [Instr.addw c d a b, .subw c d a b, .movw c d a, .addwi c d imm, .subwi c d imm, .mulu c d a b, .divs c d a b],
      ∃ t, exec i s = .next t ∧ (c.val < 68 → (s.scn.hold ≠ .step → t.mode = s.mode) ∧ (∀ e, e ≠ c.val → t.core e = s.core e) ∧
        (x.rep = none → x.slot = .none → (t.cx c).pc = (x.pc + 1) % 16384) ∧ ∀ e y, e * 8 + y ≠ c * 8 + (s.core c).cur → t.ctx e y = s.ctx e y))

/-- The bit stack: pushes at depth 8 and pops at depth 0 set their sticky flag and go on (04 R129, R130; 05 R180). -/
def Obligations.BitStack : Prop :=
  ∀ (c : Core) (s : State), Executes s c .plain →
    let k := (s.cx c).fk
    let push := fun (z : Ctx) =>
      { z with ks0 := BitVec.ofNat 8 (2 * z.ks0.toNat + bn k), depth := min 8 (z.depth + 1), ovf := z.ovf || decide (8 ≤ z.depth) }
    let pop := fun (f : Bool → Bool) (z : Ctx) =>
      if z.depth = 0 then { z with unf := true, fk := f false }
      else { z with ks0 := BitVec.ofNat 8 (z.ks0.toNat / 2), depth := z.depth - 1, fk := f (decide (z.ks0.toNat % 2 = 1)) }
    (∃ t, exec (.pshk c) s = .next t ∧ Ran s t c .plain .seq push []) ∧
    (∃ t, exec (.popk c) s = .next t ∧ Ran s t c .plain .seq (pop id) []) ∧
    (∃ t, exec (.andpk c) s = .next t ∧ Ran s t c .plain .seq (pop (k && ·)) []) ∧
    (∃ t, exec (.orpk c) s = .next t ∧ Ran s t c .plain .seq (pop (k || ·)) []) ∧
    (∃ t, exec (.xorpk c) s = .next t ∧ Ran s t c .plain .seq (pop (k != ·)) []) ∧
    (∃ t, exec (.notk c) s = .next t ∧ Ran s t c .plain .seq (fun z => { z with fk := !k }) []) ∧
    (∃ t, exec (.onek c) s = .next t ∧ Ran s t c .plain .seq (fun z => { z with fk := true }) []) ∧
    (∃ t, exec (.zerok c) s = .next t ∧ Ran s t c .plain .seq (fun z => { z with fk := false }) [])

/-- NOP only lets results land: one whose distance has run out is written, the latest issued standing where several meet, the others come one instruction nearer
(04 R149, R151; 05 R163). -/
def Obligations.ResultsLand : Prop :=
  ∀ (c : Core) (s : State), Executes s c .plain → (s.cx c).rep = none → (s.cx c).slot = .none →
    ∃ t, exec (.nop c) s = .next t ∧ CoreOnly s t c ∧
      (t.cx c).pc = ((s.cx c).pc + 1) % (if c.val < 68 then 16384 else 32768) ∧
      (t.cx c).flights = ((s.cx c).flights.filter fun f => decide (1 < f.left)).map (fun f => { f with left := f.left - 1 }) ∧
      (∀ r : GReg, (∀ f ∈ (s.cx c).flights, f.left ≤ 1 → f.dest ≠ .g r) → (t.cx c).reg r.toNat = (s.cx c).reg r.toNat) ∧
      (∀ (r : GReg) (f : Flight) (l m : List Flight), (s.cx c).flights = l ++ f :: m → f.left ≤ 1 → f.dest = .g r →
        (∀ g ∈ m, g.left ≤ 1 → g.dest ≠ .g r) → (t.cx c).reg r.toNat = f.val.setWidth 8)

/-- Loads of a byte, of a pair, and of a bit combined with K (05 R175–R177, R172, R173, R635; 04 R149): the result is in flight for the third instruction after, a
repeated one combines the bits in turn and moves its base pair with the last; an LDP whose beats come apart holds the low byte until it goes on. Choices of the model: log 18 and 19. -/
def Obligations.Loads : Prop :=
  ∀ (c : Core) (g : GReg) (pb : PReg) (d : BitVec 9) (b : BitVec 3) (e : BitVec 11) (s : State), Executes s c .mem →
    let x := s.cx c
    let p := pb.toNat
    (¬ (x.rep.isSome ∧ g.toNat / 2 = p) →
      (∀ v, seen s c x (eaByte x p d.toNat 1) = some v →
        ∃ t, exec (.ld c g pb d) s = .next t ∧ Ran s t c .mem .seq (baseNext x p (repOf x).2)
          [(.g g, BitVec.ofNat 16 v.toNat), (.zn (decide (v.toNat = 0)) (decide (128 ≤ v.toNat)), 0)]) ∧
      (∀ v w, g.toNat % 2 = 0 → seen s c x (eaByte x p d.toNat 2) = some v → seen s c x (eaByte x p d.toNat 2 + 1) = some w →
        (∃ t, exec (.ldp c g pb ⟨d, false⟩) s = .next t ∧ Ran s t c .mem .seq (baseNext x p ((repOf x).2 * 2))
          [(.g g, BitVec.ofNat 16 v.toNat), (.g (g + 1), BitVec.ofNat 16 w.toNat),
            (.zn (decide (v.toNat + 256 * w.toNat = 0)) (decide (128 ≤ w.toNat)), 0)]) ∧
        ∃ t, exec (.ldp c g pb ⟨d, true⟩) s = .next t ∧ (t.cx c).beat = some v ∧ (t.cx c).pc = x.pc ∧ (t.cx c).g = x.g ∧ (t.cx c).flights = x.flights ∧ t.mem = s.mem)) ∧
    (∀ v, seen s c x (eaBit x p e.toNat b.toNat).1 = some v →
      ∀ q ∈ [(Instr.ldk c b pb e, fun (_ m : Bool) => m), (.ldkn c b pb e, fun _ m => !m), (.andk c b pb e, fun k m => k && m),
          (.andkn c b pb e, fun k m => k && !m), (.ork c b pb e, fun k m => k || m), (.orkn c b pb e, fun k m => k || !m), (.xork c b pb e, fun k m => k != m)],
        let acc := q.2 (repAcc x) (v.toNat.testBit (eaBit x p e.toNat b.toNat).2)
        ∃ t, exec q.1 s = .next t ∧
          Ran (s.setCx c { x with rep := x.rep.map fun r => { r with kRead := repK x, kAcc := acc } }) t c .mem .seq
            (baseNext x p ((b.toNat + (repOf x).2) / 8)) (if lastRep x then [(.k, if acc then 1 else 0)] else []))

/-- Stores of a byte, of a pair, and of a bit under K (05 R175–R179; 04 R135–R139, R149): a scratch and the Pantry take the byte at once, the images, the exchange memory and
the timer cells a staged entry, a read-only place nothing. Choices of the model: log 14 and 18 and 19. -/
def Obligations.Stores : Prop :=
  ∀ (c : Core) (g : GReg) (pb : PReg) (d : BitVec 9) (b : BitVec 3) (e : BitVec 11) (s : State), Executes s c .mem →
    let x := s.cx c
    let p := pb.toNat
    let bit := BitVec.ofNat 8 (2 ^ (eaBit x p e.toNat b.toNat).2)
    let put := fun (v : Bool) => stored s c x (eaBit x p e.toNat b.toNat).1 (if v then 0xFF else 0) bit
    let move := baseNext x p ((b.toNat + (repOf x).2) / 8)
    (∀ u, stored s c x (eaByte x p d.toNat 1) (x.reg g.toNat) 0xFF = some u →
      ∃ t, exec (.st c g pb d) s = .next t ∧ Ran u t c .mem .seq (baseNext x p (repOf x).2) []) ∧
    (∀ k, placeOf c s.activeHalf x (eaByte x p d.toNat 1) = .scratch k → s.eccMark k ≠ 2 →
      ∃ t, exec (.st c g pb d) s = .next t ∧ ∀ j, t.rd j = if j = k then x.reg g.toNat else s.rd j) ∧
    (∀ u w, g.toNat % 2 = 0 → stored s c x (eaByte x p d.toNat 2) (x.reg g.toNat) 0xFF = some u →
      stored u c x (eaByte x p d.toNat 2 + 1) (x.reg (g.toNat + 1)) 0xFF = some w →
      ∃ t, exec (.stp c g pb ⟨d, false⟩) s = .next t ∧ Ran w t c .mem .seq (baseNext x p ((repOf x).2 * 2)) []) ∧
    (∀ q ∈ [(Instr.stk c b pb e, fun k => some k), (.stkn c b pb e, fun k => some !k), (.setk c b pb e, fun k => if k then some true else none),
        (.clrk c b pb e, fun k => if k then some false else none)],
      ∀ u, (q.2 (repK x)).elim (some s) put = some u →
        ∃ t, exec q.1 s = .next t ∧
          Ran (u.setCx c { u.cx c with rep := (u.cx c).rep.map fun r => { r with kRead := repK x, kAcc := repK x } }) t c .mem .seq move []) ∧
    (∀ v u, x.rep = none → seen s c x (eaBit x p e.toNat b.toNat).1 = some v → put x.fk = some u →
      ∀ q ∈ [(Instr.rise c b pb e, fun (k m : Bool) => k && !m), (.fall c b pb e, fun k m => !k && m)],
        ∃ t, exec q.1 s = .next t ∧
          Ran u t c .mem .seq move [(.k, if q.2 x.fk (v.toNat.testBit (eaBit x p e.toNat b.toNat).2) then 1 else 0)]) ∧
    (x.rep = none → b.toNat < 4 →
      (∀ n i, placeOf c s.activeHalf x (eaBit x p e.toNat 0).1 = .cell n i → x.task = none → (s.core c).swb.length < 512 →
        let k := Key.cells + 8 * n + 7
        let on := BitVec.ofNat 8 (2 ^ b.toNat)
        ∃ t, exec (.tmr c b pb e) s = .next t ∧
          Ran (noted (s.setCore c { s.core c with swb := (s.core c).swb ++ [⟨.cell n, on, if x.fk then on else 0⟩],
                                                  peak := max (s.core c).peak ((s.core c).swb.length + 1) })
            c k (s.overlay c (.cell n) (s.rd k))) t c .mem .seq move []) ∧
      ((∀ n i, placeOf c s.activeHalf x (eaBit x p e.toNat 0).1 ≠ .cell n i) ∨ x.task.isSome →
        ∃ t, exec (.tmr c b pb e) s = .next t ∧ Ran s t c .mem .seq move []))

/-- Branches and jumps (04 R143–R146; 05 R168, R187–R189): the delay slot comes next, and after it the target, or the next address where the condition does not
hold; CALL writes the address after the slot at once. REP (05 R169, R170): the count, 32 at most, shows in RC at once; 0 skips the next instruction; a
repeated instruction stays at its address until its last repetition. -/
def Obligations.BranchesAndRepetition : Prop :=
  (∀ (c : Core) (cond : BitVec 4) (off target : BitVec 14) (pb : PReg) (s : State),
    let x := s.cx c
    let size := if c.val < 68 then 16384 else 32768
    let goes := fun (i : Instr) (p : Option Nat) (f : Ctx → Ctx) =>
      ∃ t, exec i s = .next t ∧ Ran s t c .branch (.slot p) f [] ∧ (t.cx c).pc = (x.pc + 1) % size ∧ (t.cx c).slot = p.elim .untaken .taken
    let rel := (((x.pc : Int) + off.toInt) % (size : Int)).toNat
    let abs := target.toNat + (if 68 ≤ c.val ∧ x.cpg then 16384 else 0)
    (Executes s c .branch →
      (cond.toNat < 15 → goes (.br c cond off)
        (if [true, x.fz, !x.fz, x.fc, !x.fc, x.fn, !x.fn, x.fv, !x.fv, x.fc && !x.fz, !x.fc || x.fz, x.fn == x.fv, x.fn != x.fv,
            !x.fz && (x.fn == x.fv), x.fz || (x.fn != x.fv)].getD cond.toNat false then some rel else none) id) ∧
      (cond.toNat < 4 → goes (.brf c cond off) (if [x.fk, !x.fk, x.fd, !x.fd].getD cond.toNat false then some rel else none) id) ∧
      goes (.jmp c target) (some abs) id ∧
      goes (.call c target) (some abs) (pairSet 30 ((x.pc + 2) % size)) ∧
      goes (.jmpr c pb) (some (((x.reg (2 * pb.toNat)).toNat + 256 * (x.reg (2 * pb.toNat + 1)).toNat) % size)) id) ∧
    (Executes s c .plain → x.rep = none →
      ∃ t, exec (.nop c) s = .next t ∧ (t.cx c).slot = .none ∧ ∀ p, x.slot = .taken p → (t.cx c).pc = p)) ∧
  (∀ (c : Core) (n : BitVec 6) (g : GReg) (s : State),
    let x := s.cx c
    let size := if c.val < 68 then 16384 else 32768
    (Executes s c .repPrefix → ∀ q ∈ [(Instr.repImm c n, n.toNat), (.repReg c g, (x.reg g.toNat).toNat), (.repRc c, x.rc.toNat)],
      (q.1 = .repImm c n → n.toNat ≤ 32) →
      let k := min 32 q.2
      ∃ t, exec q.1 s = .next t ∧
        Ran s t c .repPrefix (if k = 0 then .skip else .seq)
          (fun y => { y with rc := BitVec.ofNat 8 k, rep := if k = 0 then none else some ⟨k, 0, false, false⟩ }) [] ∧
        (t.cx c).pc = (x.pc + (if k = 0 then 2 else 1)) % size ∧ (t.cx c).rep.map (·.count) = if k = 0 then none else some k) ∧
    (Executes s c .plain → x.slot = .none → ∀ r, x.rep = some r →
      ∃ t, exec (.nop c) s = .next t ∧
        if r.done + 1 < r.count then (t.cx c).pc = x.pc ∧ (t.cx c).rep = some { r with done := r.done + 1 }
        else (t.cx c).pc = (x.pc + 1) % size ∧ (t.cx c).rep = none))

/-- SEAL and LCK (04 R156–R158; 06 R231): the seal counts down with each instruction, a lock that is open keeps its bank group and takes the new counts, and its
limit of 8 ends it. Choices of the model: log 12 and 27. -/
def Obligations.SealAndLock : Prop :=
  ∀ (c : Core) (n : BitVec 4) (m : BitVec 3) (s : State),
    let x := s.cx c
    (Executes s c .mark →
      (1 ≤ n.toNat → n.toNat ≤ 8 → ∃ t, exec (.seal c n) s = .next t ∧ Ran s t c .mark .seq (fun y => { y with sealed := n.toNat }) [] ∧
        (t.cx c).sealed = n.toNat) ∧
      (1 ≤ m.toNat → m.toNat ≤ 4 → ∃ t, exec (.lck c m) s = .next t ∧ CoreOnly s t c ∧
        (t.cx c).lock = some ⟨m.toNat, 8, ((x.lock.filter fun l => l.limit != 0).map (·.group)).getD none⟩)) ∧
    (Executes s c .plain → ∃ t, exec (.nop c) s = .next t ∧ (t.cx c).sealed = x.sealed - 1 ∧
      (x.rep = none → (t.cx c).lock.map (·.limit) = ((x.lock.filter fun l => l.limit != 0 && l.mem != 0).map fun l => l.limit - 1))) ∧
    (∃ t, exec (.lockTimeout c) s = .next t ∧ (t.cx c).lock = (x.lock.filter fun l => l.limit != 0) ∧
      { t with ctxs := s.ctxs, arbs := s.arbs } = s ∧
      ∀ g, x.lock.map (fun l => (l.limit, l.group)) = some (0, some g) → (t.arb (0x20 + g)).owner = none)

/-- MOVS (04 R132, R133): the special registers of each kind of core by number, 0 for a number the core does not have; a read of CYC0 or CTS0 latches the six
bytes. MOVT (04 R132, R149): the register shows the value to the next instruction, a window moves for the third on, a number that the core does not have or
that is RO takes nothing. SVREL and SVFLT belong to the Steward. Choices of the model: log 18. -/
def Obligations.SpecialRegisters : Prop :=
  (∀ (c : Core) (gd : GReg) (sr : Byte) (s : State), Executes s c .plain →
    let x := s.cx c
    let k := (s.scanOf c).getD 0
    let t := x.task
    let all : List (Nat × Nat) :=
      [(0x00, bn x.fc + 2 * bn x.fz + 4 * bn x.fn + 8 * bn x.fv + 16 * bn x.fk + 32 * bn x.fd), (0x01, x.rc.toNat), (0x02, x.ks0.toNat),
        (0x03, x.depth + 64 * bn x.unf + 128 * bn x.ovf), (0x10, s.scn.cyc), (0x18, s.scn.cts)] ++
      [1, 2, 3, 4, 5].flatMap fun i => [(0x10 + i, x.cycL.toNat / 256 ^ i), (0x18 + i, x.ctsL.toNat / 256 ^ i)]
    let lane : List (Nat × Nat) :=
      [(0x04, x.pbk.toNat), (0x05, x.tbk.toNat), (0x06, x.ims.toNat), (0x08, k), (0x09, c.val), (0x0A, if s.laneRole k = 1 then (s.core c).stepNo else 0),
        (0x0B, t.elim 0 (·.evn.toNat)), (0x0C, t.elim 0 (·.slot + 128)), (0x0D, t.elim 0 (·.prio))] ++
      [0, 1, 2, 3].flatMap fun i =>
        let w := s.reg (if i < 2 then Reg.DBG_BPA k else Reg.DBG_BPB k)
        [(0x20 + 2 * i, w.toNat / 2 ^ (16 * (i % 2))), (0x21 + 2 * i, w.toNat / 2 ^ (16 * (i % 2) + 8))]
    let service : List (Nat × Nat) :=
      [(0x08, if c.val = 72 then 0xC0 else 0x80 + (c.val - 68)), (0x09, 0xFF), (0x30, x.far0.toNat), (0x31, x.far1.toNat), (0x32, x.sbk.toNat), (0x33, bn x.cpg)] ++
      if c.val = 72 then [(0x40, s.svrel.toNat), (0x41, s.svflt.toNat)] else []
    let v := (((all ++ if c.val < 68 then lane else service).find? fun p => p.1 == sr.toNat).map (·.2)).getD 0
    ∃ u, exec (.movs c gd sr) s = .next u ∧
      Ran s u c .plain .seq (fun y => { y.setReg gd.toNat (BitVec.ofNat 8 v) with
        cycL := if sr.toNat = 0x10 then BitVec.ofNat 48 s.scn.cyc else x.cycL
        ctsL := if sr.toNat = 0x18 then BitVec.ofNat 48 s.scn.cts else x.ctsL }) []) ∧
  (∀ (c : Core) (gs : GReg) (sr : Byte) (s : State), Executes s c .plain →
    let v := (s.cx c).reg gs.toNat
    let bit := fun i => v.toNat.testBit i
    let all : List (Nat × (Ctx → Ctx) × List Dest) :=
      [(0x00, fun y => { y with fc := bit 0, fz := bit 1, fn := bit 2, fv := bit 3, fk := bit 4, fd := bit 5 }, []), (0x01, fun y => { y with rc := v }, []),
        (0x02, fun y => { y with ks0 := v }, []), (0x03, fun y => { y with depth := min 8 (v.toNat % 16), unf := bit 6, ovf := bit 7 }, [])]
    let lane : List (Nat × (Ctx → Ctx) × List Dest) :=
      [(0x04, fun y => { y with pbk := v }, [.pbk]), (0x05, fun y => { y with tbk := BitVec.ofNat 2 v.toNat }, [.tbk]),
        (0x06, fun y => { y with ims := BitVec.ofNat 2 v.toNat }, [.ims])]
    let service : List (Nat × (Ctx → Ctx) × List Dest) :=
      [(0x30, fun y => { y with far0 := v }, []), (0x31, fun y => { y with far1 := v }, [.far]), (0x32, fun y => { y with sbk := BitVec.ofNat 6 v.toNat }, [.sbk]),
        (0x33, fun y => { y with cpg := bit 0 }, [])]
    let e := ((all ++ if c.val < 68 then lane else service).find? fun p => p.1 == sr.toNat).getD (0, id, [])
    (c.val ≠ 72 ∨ sr.toNat ≠ 0x40 ∧ sr.toNat ≠ 0x41 →
      ∃ t, exec (.movt c sr gs) s = .next t ∧
        Ran s t c .plain .seq e.2.1 (e.2.2.map fun w => (w, if w = .far then BitVec.ofNat 16 ((s.cx c).far0.toNat + 256 * v.toNat) else BitVec.ofNat 16 v.toNat))) ∧
    (c.val = 72 → sr.toNat = 0x41 →
      ∃ t, exec (.movt c sr gs) s = .next t ∧ Ran { s with svflt := s.svflt &&& ~~~BitVec.ofNat 4 v.toNat } t c .plain .seq id []) ∧
    (c.val = 72 → sr.toNat = 0x40 →
      ∃ t, exec (.movt c sr gs) s = .next t ∧ t.svrel = BitVec.ofNat 4 v.toNat ∧ ∀ i < 4,
        (bit i → s.svrel.getLsbD i = false → (t.core (68 + i)).run = .exec ∧ (t.ctx (68 + i) 0).pc = 0 ∧ (t.ctx (68 + i) 0).slot = .none) ∧
        (bit i = false → s.svrel.getLsbD i → (t.core (68 + i)).run = .stopped ∧ t.ctx (68 + i) 0 = s.ctx (68 + i) 0) ∧
        (bit i = s.svrel.getLsbD i → t.core (68 + i) = s.core (68 + i) ∧ t.ctx (68 + i) 0 = s.ctx (68 + i) 0)))

/-- HALT and EVRET (05 R164, R166; 06 R215): a solving lane ends its segment, an event task ends and the highest suspended one goes on, a service lane stops,
the Steward waits for its queue. STEWARD_WAKE ends that wait once an entry is queued. STEP (05 R165; 06 R203, R207): a solving lane waits at the merge, at
step number 15 its segment ends; elsewhere STEP is a NOP. BRK (05 R167; 06 R234): a NOP where breakpoints or BRK are not enabled. Choices of the model: log
12 and 18. -/
def Obligations.EndOfWorkAndBrk : Prop :=
  (∀ (c : Core) (s : State),
    (Executes s c .ending →
      let cur := (s.core c).cur
      let suspended := (List.range 8).filter fun x => x != cur && (s.ctx c x).task.isSome
      (c.val < 68 → (s.cx c).task = none → ∃ t, exec (.halt c) s = .next t ∧ (t.core c).run = .segEnd ∧ (t.core c).doneAt = s.now ∧
        (t.cx c).flights = [] ∧ (t.cx c).sealed = 0 ∧ (t.cx c).lock = none ∧ (∀ d, d ≠ c.val → t.core d = s.core d) ∧ t.mem = s.mem) ∧
      (c.val < 68 → cur < 8 → (s.cx c).task.isSome → ∀ i ∈ [Instr.halt c, .evret c], ∃ t, exec i s = .next t ∧ t.ctx c cur = { pc := (t.ctx c cur).pc } ∧ t.mem = s.mem ∧
        (∀ x, x ≠ cur → t.ctx c x = s.ctx c x) ∧ (∀ d, d ≠ c.val → t.core d = s.core d) ∧
        ((t.core c).run, (t.core c).cur) = match suspended.getLast? with | some x => (.exec, x) | none => (.idle, cur)) ∧
      (68 ≤ c.val → ∃ t, exec (.halt c) s = .next t ∧ (t.cx c).flights = [] ∧ t.mem = s.mem ∧
        (t.core c).run = if c.val < 72 then .stopped else if s.evt.stwq = [] then .waitQueue else .exec) ∧
      (68 ≤ c.val ∨ (s.cx c).task = none → ∃ t, exec (.evret c) s = .next t ∧ Ran s t c .ending .seq id [])) ∧
    (∃ t, exec .stewardWake s = .next t ∧
      { t with cores := s.cores } = s ∧ (∀ d, d ≠ 72 → t.core d = s.core d) ∧
      t.core 72 = { s.core 72 with run := if (s.core 72).run = .waitQueue ∧ s.evt.stwq ≠ [] then .exec else (s.core 72).run })) ∧
  (∀ (c : Core) (code : BitVec 14) (s : State), Executes s c .mark →
    let solving := c.val < 68 ∧ (s.cx c).task = none ∧ ∃ k, s.scanOf c = some k ∧ s.laneRole k = 1
    (¬ solving → ∃ t, exec (.step c) s = .next t ∧ Ran s t c .mark .seq id []) ∧
    (solving → ∃ t, exec (.step c) s = .next t ∧ (t.core c).run = (if (s.core c).stepNo = 15 then .segEnd else .atMerge) ∧
      (t.core c).stepNo = (s.core c).stepNo ∧ (t.cx c).sealed = 0 ∧ (t.cx c).lock = none ∧ (∀ d, d ≠ c.val → t.core d = s.core d) ∧ t.mem = s.mem) ∧
    (68 ≤ c.val ∨ s.rb Reg.DBG_CTRL 0 = false ∨ s.rb Reg.DBG_CTRL 1 = false ∨ (s.mode ≠ Mode.run ∧ s.mode ≠ Mode.hold) →
      ∃ t, exec (.brk c code) s = .next t ∧ Ran s t c .mark .seq id []))

/-- The lane-control window (04 R141, R142; 12 R418; 14 R462): LC_SWEVT raises its event, LC_STWQ hands out the queue's oldest entry, LC_RIND writes a bit or,
at its last byte, all of RND_DOUT, LC_TPO arms a pulse output at its last byte; outside an event task LC_RIND and LC_TPO take nothing. Choices of the model:
log 8 and 10 and 19. -/
def Obligations.LaneControl : Prop :=
  ∀ (c : Core) (v off : Byte) (n : Fin 8) (s : State),
    let task := c.val < 68 ∧ (s.cx c).task.isSome
    (v.toNat < 16 → ∃ t, exec (.lcSwevt c v) s = .next t ∧ Raised s t (240 + v.toNat) ∧ Only s t [rawReg (240 + v.toNat)]) ∧
    (∃ t, exec .lcStwqRead s = .next t ∧ { t with rdata := s.rdata, rbuf := s.rbuf, evt := s.evt } = s ∧ t.evt.stwq = s.evt.stwq.drop 1 ∧
      t.rdata.toNat = match s.evt.stwq with | [] => 0 | (e, q) :: _ => e.toNat + 256 * q.toNat + 2 ^ 31) ∧
    (¬ task → exec (.lcRindStore c off v) s = .next s ∧ exec (.lcTpoCommit c n v) s = .next s) ∧
    (task → off.toNat < 32 → ∃ t, exec (.lcRindStore c off v) s = .next t ∧ (∀ k, k ≠ Reg.RND_DOUT → t.reg k = s.reg k) ∧
      (∀ i < 32, t.rb Reg.RND_DOUT i = if i = off.toNat then v.toNat.testBit 0 else s.rb Reg.RND_DOUT i) ∧
      { t with regs := s.regs, rndQ := s.rndQ } = s) ∧
    (task → off.toNat = 0x23 → ∃ t, exec (.lcRindStore c off v) s = .next t ∧
      (t.reg Reg.RND_DOUT).toNat = (s.lcStaged (s.ctxAgent c) 0x120).toNat % 2 ^ 24 + 2 ^ 24 * v.toNat ∧ (∀ k, k ≠ Reg.RND_DOUT → t.reg k = s.reg k)) ∧
    (task → s.domOn 9 →
      let w := fun j => (s.lcStaged (s.ctxAgent c) (0x200 + 16 * n.val + 4 * j)).toNat
      w 0 < 10 ^ 9 → (s.tpoOf n).writers.length ≤ 1 →
        ∃ t, exec (.lcTpoCommit c n v) s = .next t ∧ (t.tpoOf n).armed = true ∧ (t.tpoOf n).start = (w 1 + 2 ^ 32 * (w 2 % 2 ^ 16)) * 10 ^ 9 + w 0 ∧
          (t.tpoOf n).c = w 2 / 2 ^ 16 ∧ (t.tpoOf n).inv = (w 3).testBit 1 ∧ (t.tpoOf n).each = (w 3).testBit 2 ∧
          (t.tpoOf n).p = (s.reg (Reg.TPO_PERIOD n)).toNat ∧ (t.tpoOf n).w = (s.reg (Reg.TPO_WIDTH n)).toNat)

/-- An access that no check stops (00 R9–R11; 02 R49, R68; 12 R391): the read of TIM_NOW's lowest part latches its three words for the agent, a read of an RCL
register clears it, a write takes the RW bits of the register and clears the W1C bits written 1. An address outside every region reads 0 and is recorded (02
R43, R80). Choices of the model: log 8 and 16. -/
def Obligations.RegisterAccess : Prop :=
  ∀ (p : Fin 37) (v : Word) (s : State),
    (Reads s .host Reg.TIM_NOW_NS → ∃ t, exec (.lowPartLatch .host (BitVec.ofNat 32 Reg.TIM_NOW_NS) ⟨4, false⟩) s = .next t ∧
      t.rdata = BitVec.ofNat 64 (s.tim.ns % 2 ^ 32) ∧
      Sparse.get regReset t.rbuf (Reg.TIM_NOW_NS + 4) = BitVec.ofNat 32 s.tim.sec ∧
      Sparse.get regReset t.rbuf (Reg.TIM_NOW_NS + 8) = BitVec.ofNat 32 (s.tim.sec / 2 ^ 32) ∧ { t with rdata := s.rdata, rbuf := s.rbuf } = s) ∧
    (∀ a : Word, a.toNat < 0x01000000 → s.pwr.coreRun = true → ∃ t, exec (.lowPartLatch .host a ⟨1, false⟩) s = .next t ∧ t.rdata = 0 ∧ t.reg Reg.EVT_BADADDR = a ∧
      t.reg Reg.EVT_BADINFO = 0x80000000 ∧ Raised s t 6 ∧ Only { s with rdata := 0 } t [Reg.EVT_BADADDR, Reg.EVT_BADINFO, rawReg 6]) ∧
    (Reads s .host Reg.ARB_MAXWAIT → ∃ t, exec (.rclRead .host (BitVec.ofNat 32 Reg.ARB_MAXWAIT)) s = .next t ∧
      t.rdata = (s.reg Reg.ARB_MAXWAIT).setWidth 64 ∧ t.reg Reg.ARB_MAXWAIT = 0 ∧ ∀ k, k ≠ Reg.ARB_MAXWAIT → t.reg k = s.reg k) ∧
    (Writes s .host (Reg.EVT_MASK p) → s.sys.hostWait = false →
      ∃ t, exec (.registerWrite .host (BitVec.ofNat 32 (Reg.EVT_MASK p)) ⟨4, false⟩ (v.setWidth 64)) s = .next t ∧
        (t.reg (Reg.EVT_MASK p)).toNat % 2 ^ (pageInfo p).nevt = v.toNat % 2 ^ (pageInfo p).nevt ∧ Did s t [Reg.EVT_MASK p]) ∧
    (Writes s .host (Reg.PAGE_STAT p) → s.sys.hostWait = false →
      ∃ t, exec (.registerWrite .host (BitVec.ofNat 32 (Reg.PAGE_STAT p)) ⟨4, false⟩ (v.setWidth 64)) s = .next t ∧
        (∀ i < 32, t.rb (Reg.PAGE_STAT p) i = (s.rb (Reg.PAGE_STAT p) i && !(i == 3 && v.toNat.testBit 3))) ∧ Did s t [Reg.PAGE_STAT p]) ∧
    (∀ ag, Writes s ag Reg.HST_BAR0WIN → ∃ t, exec (.bar0winWrite ag v) s = .next t ∧ t.reg Reg.HST_BAR0WIN = BitVec.ofNat 32 (v.toNat % 256) ∧
      Did s t [Reg.HST_BAR0WIN])

/-- The header of a page (02 R53–R55; 00 R15): EN and READY together where the block needs no time, a soft reset takes READY until it ends, FREEZE, and the
hidden counts that its end adds. OWNER takes rights and LOCK from the Steward alone, until LOCK is 1; any other write sets WIGN (02 R53, R56; 18 R570).
Choices of the model: log 11. -/
def Obligations.PageHeaders : Prop :=
  (∀ (ag : Agent) (p : Fin 37) (en : Bool) (s : State),
    (Writes s ag (Reg.PAGE_CTRL p) →
      (p.val ∉ [0x11, 0x12, 0x13, 0x14, 0x15, 0x16, 0x1E, 0x1F, 0x20, 0x21, 0x23] → ∃ t, exec (.pageEnable ag p en) s = .next t ∧
        t.rb (Reg.PAGE_CTRL p) 0 = en ∧ t.rb (Reg.PAGE_STAT p) 0 = (en && decide (p.val ∉ s.softRst)) ∧ Did s t [Reg.PAGE_CTRL p, Reg.PAGE_STAT p]) ∧
      (p.val ∈ [0x16, 0x23] → ∃ t, exec (.pageEnable ag p en) s = .next t ∧ Did s t []) ∧
      ((pageInfo p).softrst = true → p.val ∉ s.softRst → ∃ t, exec (.softRst ag p) s = .next t ∧ t.softRst = p.val :: s.softRst ∧
        t.rb (Reg.PAGE_STAT p) 0 = false ∧ t.rb (Reg.PAGE_STAT p) 1 = true ∧ Did { s with softRst := t.softRst } t [Reg.PAGE_STAT p]) ∧
      ((pageInfo p).softrst = false ∨ p.val ∈ s.softRst → ∃ t, exec (.softRst ag p) s = .next t ∧ t.rb (Reg.PAGE_STAT p) 3 = true ∧
        Did s t [Reg.PAGE_STAT p]) ∧
      (∃ t, exec (.freezeSet ag p) s = .next t ∧ t.rb (Reg.PAGE_CTRL p) 3 = true ∧ Did s t [Reg.PAGE_CTRL p]) ∧
      (Sparse.wf (fun _ => 0) s.hidden = true → ∃ t, exec (.freezeClear ag p) s = .next t ∧ t.rb (Reg.PAGE_CTRL p) 3 = false ∧
        (∀ k, k / 0x1000 * 0x1000 = Reg.page p → k ≠ Reg.PAGE_CTRL p → t.reg k = s.reg k + Sparse.get (fun _ => 0) s.hidden k) ∧
        (∀ k, k / 0x1000 * 0x1000 ≠ Reg.page p → t.reg k = s.reg k) ∧ ∀ e ∈ t.hidden, e.1 / 0x1000 * 0x1000 ≠ Reg.page p)) ∧
    (p.val ∉ s.softRst → exec (.softRstEnd p) s = .next s) ∧
    (p.val ∈ s.softRst → ∃ t, exec (.softRstEnd p) s = .next t ∧ p.val ∉ t.softRst ∧
      t.rb (Reg.PAGE_STAT p) 0 = (if p.val ∈ [0x11, 0x12, 0x13, 0x14] then decide ((s.fn (100 + p)).toward = none ∧ (s.fn (100 + p)).base = 1)
        else s.rb (Reg.PAGE_CTRL p) 0) ∧
      (p.val ∉ [0x10, 0x11, 0x12, 0x13, 0x14] → t.reg (Reg.EVT_RAW p) = 0 ∧ ∀ o, 0x900 ≤ o → o < 0x1000 → t.reg (Reg.page p + o) = regReset (Reg.page p + o)))) ∧
  (∀ (ag : Agent) (p : Fin 37) (v : Word) (s : State), Writes s ag (Reg.OWNER p) →
    let bits := if p.val = 0x23 then 0x30 else 0x3F
    let u := fun (w : Word) => if ag = .steward ∧ s.rb (Reg.OWNER p) 31 = false then s.setReg (Reg.OWNER p) ((w &&& bits) ||| (w &&& 0x80000000))
      else s.setRb (Reg.PAGE_STAT p) 3 true
    exec (.ownerWrite ag p v) s = .next (u v) ∧ exec (.ownerLock ag p) s = .next (u (s.reg (Reg.OWNER p) ||| 0x80000000)))

/-- The shadow sets (02 R58–R62): GO arms the swap unless one is pending, a copy or a Graft runs, or the device stands by; at a boundary a bad map refuses it.
The swap exchanges the words of every page that takes part; the copy writes its active words over the shadow ones. -/
def Obligations.ConfigurationSwap : Prop :=
  ∀ (ag : Agent) (p : Fin 37) (s : State),
    let busy := s.rb Reg.SYS_CFGSWAP 1 ∨ s.rb Reg.SYS_CFGSWAP 3 ∨ s.rf Reg.GRF_STAT 2 0 ≠ 0
    let follows := s.mode = Mode.syncing ∨ s.mode = Mode.tracking
    let part := p.val ∈ [0x03, 0x04, 0x0A, 0x0B, 0x0D] ∧ s.rb (Reg.PAGE_CTRL p) 2
    (Writes s ag Reg.SYS_CFGSWAP →
      (busy ∨ follows → ∃ t, exec (.cfgswapGo ag) s = .next t ∧ t.rb (Reg.PAGE_STAT 0) 3 = true ∧ Did s t [Reg.PAGE_STAT 0]) ∧
      (¬ busy → ¬ follows → (s.mode ∈ [Mode.run, Mode.hold, Mode.stnRun, Mode.stnSafe] → s.mapErr true = 0) →
        ∃ t, exec (.cfgswapGo ag) s = .next t ∧ t.rb Reg.SYS_CFGSWAP 0 = true ∧ t.rb Reg.SYS_CFGSWAP 1 = true ∧
          Did { s with grf := { s.grf with goHold := s.grf.swapped } } t [Reg.SYS_CFGSWAP]) ∧
      (¬ busy → s.mode ∈ [Mode.run, Mode.hold, Mode.stnRun, Mode.stnSafe] → s.mapErr true ≠ 0 →
        ∃ t, exec (.cfgswapGo ag) s = .next t ∧ t.rb (Reg.PAGE_STAT 0) 3 = true ∧ Raised s t 27 ∧ Did s t [Reg.PAGE_STAT 0, rawReg 27]) ∧
      (¬ busy → ∃ t, exec (.cfgswapCopy ag) s = .next t ∧ t.rb Reg.SYS_CFGSWAP 3 = true ∧ Did s t [Reg.SYS_CFGSWAP]) ∧
      (busy → ∃ t, exec (.cfgswapCopy ag) s = .next t ∧ t.rb (Reg.PAGE_STAT 0) 3 = true ∧ Did s t [Reg.PAGE_STAT 0])) ∧
    (s.rb Reg.SYS_CFGSWAP 1 = false ∨ s.mode ∈ [Mode.run, Mode.hold, Mode.stnRun, Mode.stnSafe, Mode.syncing, Mode.tracking] → exec .configSwap s = .next s) ∧
    (s.rb Reg.SYS_CFGSWAP 1 = true → Inv s → s.mode ∈ [Mode.config, Mode.service, Mode.stop, Mode.safeHalt] → s.grf.goHold = none → s.pwr.coreRun = true → ∃ t, exec .configSwap s = .next t ∧ t.rb Reg.SYS_CFGSWAP 0 = false ∧ t.rb Reg.SYS_CFGSWAP 1 = false ∧
      t.mem = s.mem ∧ (part → ∀ o ∈ State.rsOffs p, t.reg (Reg.page p + o) = s.reg (Reg.page p + o + 0x400) ∧ t.reg (Reg.page p + o + 0x400) = s.reg (Reg.page p + o))) ∧
    (s.rb Reg.SYS_CFGSWAP 3 = false → exec .copyDone s = .next s) ∧
    (s.rb Reg.SYS_CFGSWAP 3 = true → s.pwr.coreRun = true → ∃ t, exec .copyDone s = .next t ∧ t.rb Reg.SYS_CFGSWAP 3 = false ∧
      { t with regs := s.regs } = s ∧ (part → ∀ o ∈ State.rsOffs p, t.reg (Reg.page p + o + 0x400) = s.reg (Reg.page p + o)) ∧
      ∀ o, o < 0x500 → t.reg (Reg.page p + o) = s.reg (Reg.page p + o) ∨ o = 0x0C ∨ Reg.page p + o = Reg.SYS_CFGSWAP) ∧
    (∃ t, exec .mapCheck s = .next t ∧ (∀ k, k ≠ Reg.SCN_STAT → t.reg k = s.reg k) ∧ { t with regs := s.regs } = s ∧
      t.rb Reg.SCN_STAT 0 = decide (t.rf Reg.SCN_STAT 7 4 = 0) ∧ t.rb Reg.SCN_STAT 1 = decide (t.rf Reg.SCN_STAT 11 8 = 0) ∧
      (s.rf Reg.SCN_PERIOD 19 0 < 50 ∨ 1000000 < s.rf Reg.SCN_PERIOD 19 0 → t.rf Reg.SCN_STAT 7 4 = 1))

/-- Event registers (02 R52, R67–R74): a 1 written to EVT_PEND clears the EVT_RAW bit, a software raise sets one bit per source, the log writer moves its oldest
record into the ring, LOG_RIDX frees what has been read, a pending MSI-X vector sends its message once the host can take it. Choices of the model: log 10
and 44. -/
def Obligations.EventRegisters : Prop :=
  ∀ (ag : Agent) (p : Fin 37) (v : Word) (vec : BitVec 5) (s : State),
    (Writes s ag (Reg.EVT_PEND p) → ∃ t, exec (.evtPendClear ag p v) s = .next t ∧
      t.reg (Reg.EVT_RAW p) = s.reg (Reg.EVT_RAW p) &&& ~~~v ∧ Did s t [Reg.EVT_RAW p]) ∧
    (Writes s ag Reg.EVT_SWRAISE → v.toNat < 2 ^ 16 → ∃ t, exec (.evtSwraise ag v) s = .next t ∧
      (∀ i < 16, raw t (240 + i) = (v.toNat.testBit i || raw s (240 + i))) ∧ Did s t [rawReg 240]) ∧
    (s.evt.logq = [] ∨ s.pwr.coreRun = false → exec .logWrite s = .next s) ∧
    (∀ r l, s.evt.logq = r :: l → s.pwr.coreRun = true →
      let w := s.rf Reg.EVT_LOG_WIDX 9 0
      let used := s.rf Reg.EVT_LOG_WIDX 26 16
      ∃ t, exec .logWrite s = .next t ∧ t.evt = { s.evt with logq := l } ∧ t.rf Reg.EVT_LOG_WIDX 9 0 = (w + 1) % 1024 ∧
        (used < 1024 → t.rf Reg.EVT_LOG_WIDX 26 16 = used + 1 ∧ t.reg Reg.EVT_LOG_RIDX = s.reg Reg.EVT_LOG_RIDX) ∧
        (1024 ≤ used → t.rf Reg.EVT_LOG_RIDX 9 0 = (s.rf Reg.EVT_LOG_RIDX 9 0 + 1) % 1024) ∧
        (∀ k, t.rd k = if Key.ring + 16 * w ≤ k ∧ k < Key.ring + 16 * w + 16 then
            ([r.source, r.flags, r.seq.setWidth 8, (r.seq >>> 8).setWidth 8] ++ (List.range 8).map (fun i => (r.time >>> (8 * i)).setWidth 8) ++
              (List.range 4).map fun i => (r.detail >>> (8 * i)).setWidth 8).getD (k - Key.ring - 16 * w) 0
          else s.rd k)) ∧
    (Writes s ag Reg.EVT_LOG_RIDX → ∃ t, exec (.logRidxWrite ag v) s = .next t ∧ t.reg Reg.EVT_LOG_RIDX = BitVec.ofNat 32 (v.toNat % 1024) ∧
      t.rf Reg.EVT_LOG_WIDX 26 16 = (s.rf Reg.EVT_LOG_WIDX 9 0 + 1024 - v.toNat % 1024) % 1024 ∧ Did s t [Reg.EVT_LOG_RIDX, Reg.EVT_LOG_WIDX]) ∧
    (let ready := s.evt.msix.getLsbD vec.toNat ∧ s.rb Reg.HST_LINK 5 ∧ s.rb Reg.HST_LINK 4 ∧ (s.rd (Key.msix + 16 * vec.toNat + 12)).toNat % 2 = 1;
      (¬ ready → exec (.msixMessage vec) s = .next s) ∧
      (ready → s.rdLE (Key.msix + 16 * vec.toNat) 8 ≠ 0 → ∃ t, exec (.msixMessage vec) s = .next t ∧ t.wire = s.wire ++ [.msix vec.toNat] ∧
        t.evt.msix.getLsbD vec.toNat = false ∧ { t with wire := s.wire, evt := { t.evt with msix := s.evt.msix } } = s))

/-- Requests for a mode (03 R86, R87, R91, R122): a transition of the table is accepted, any other refused as not in the table, a second request while one waits
refused as busy; SYS_MODESTAT shows target, result and reason. A change of mode takes the target's code and raises MODE_CHANGE (R85, R90). -/
def Obligations.ModeChanges : Prop :=
  ∀ (ag : Agent) (v : Word) (s : State),
    let goal := v.toNat % 16
    let waits := s.sys.trans.any (·.request)
    let always := [(Mode.config, Mode.service, 7), (Mode.stop, Mode.service, 7), (Mode.stnSafe, Mode.service, 7), (Mode.service, Mode.config, 8),
      (Mode.stop, Mode.config, 11), (Mode.run, Mode.stop, 14), (Mode.run, Mode.hold, 15), (Mode.safeHalt, Mode.config, 19), (Mode.syncing, Mode.stop, 23),
      (Mode.tracking, Mode.stop, 24), (Mode.stnRun, Mode.stnSafe, 29), (Mode.stnRun, Mode.config, 30), (Mode.stnSafe, Mode.config, 30)]
    let checked := [(Mode.config, Mode.stop), (Mode.config, Mode.stnSafe), (Mode.stop, Mode.run), (Mode.hold, Mode.run), (Mode.hold, Mode.stop)]
    (Writes s ag Reg.SYS_MODEREQ →
      (waits = true → ∃ t, exec (.sysModereq ag v) s = .next t ∧ t.reg Reg.SYS_MODESTAT = BitVec.ofNat 32 (goal + 16 * 3 + 256 * 3) ∧ Raised s t 3 ∧
        Did s t [Reg.SYS_MODESTAT, rawReg 3]) ∧
      (waits = false → (∀ r, (s.mode, goal, r) ∉ always) → (s.mode, goal) ∉ checked → ∃ t, exec (.sysModereq ag v) s = .next t ∧
        t.reg Reg.SYS_MODESTAT = BitVec.ofNat 32 (goal + 16 * 3 + 256) ∧ Raised s t 3 ∧ Did s t [Reg.SYS_MODESTAT, rawReg 3]) ∧
      (waits = false → ∀ r, (s.mode, goal, r) ∈ always → ∃ t, exec (.sysModereq ag v) s = .next t ∧ t.reg Reg.SYS_MODESTAT = BitVec.ofNat 32 (goal + 16) ∧
        t.sys.trans = s.sys.trans ++ [⟨r, goal, s.mode, true, goal⟩] ∧ Did { s with sys := t.sys } t [Reg.SYS_MODESTAT])) ∧
    (s.sys.trans = [] → s.sys.auto = false → exec .modeChange s = .next s) ∧
    (∀ x l, s.sys.trans = x :: l → x.row ≠ 25 → x.row ≠ 27 → x.request = false → x.target < 12 → ∃ t, exec .modeChange s = .next t ∧
      t.reg Reg.SYS_MODE = BitVec.ofNat 32 x.target ∧ Raised s t 0)

/-- Power domains (03 R118, R119): a request starts the transition that its present state allows and DOM_DONE ends it with event 8, an OFF domain bringing up on
the way to standby. Domains 0 and 1 take none. Choices of the model: log 9 and 26. -/
def Obligations.PowerDomains : Prop :=
  ∀ (ag : Agent) (d : Fin 15) (v : Word) (s : State),
    (d.val < 2 → exec (.domainRequest ag d v) s = .next s) ∧
    (2 ≤ d.val → d.val ≠ 14 → Writes s ag (Reg.PWR_REQ d) → s.domRefused d (v.toNat % 4) = false → s.fn d = {} →
      ∀ q ∈ [(0, 2, 1), (4, 2, 5), (2, 1, 3), (0, 1, 1), (2, 0, 6), (4, 0, 6)], (s.domState d, v.toNat % 4) = (q.1, q.2.1) →
        ∃ t, exec (.domainRequest ag d v) s = .next t ∧ t.domState d = q.2.2 ∧ (t.fn d).toward = some q.2.1 ∧ (t.reg (Reg.PWR_REQ d)).toNat = q.2.1) ∧
    (2 ≤ d.val → Writes s ag (Reg.PWR_REQ d) → s.domRefused d (v.toNat % 4) = true → v.toNat % 4 ≠ 3 → ∃ t, exec (.domainRequest ag d v) s = .next t ∧
      Raised s t 9 ∧ t.rb (Reg.PAGE_STAT 1) 3 = true ∧ t.domState d = s.domState d ∧ t.fns = s.fns) ∧
    ((s.fn d).toward = none → exec (.domDone d) s = .next s) ∧
    (d.val ≠ 14 → ∀ g, (s.fn d).toward = some g → g ≠ 1 ∨ s.domState d = 3 →
      ∃ t, exec (.domDone d) s = .next t ∧ Raised s t 8 ∧ (t.fn d).toward = none ∧
        t.domState d = (if s.domState d = 1 ∨ s.domState d = 5 then 2 else if s.domState d = 3 then 4 else 0))

/-- Clocks and supplies (03 R124; 15 R479; 21 R607): the core PLL's lock carries the core clock, another PLL's loss is counted and raised; the reference is good
within 2,000 ppm; the supply warnings raise their events; a failing main supply leaves every domain but PD0 OFF. Choices of the model: log 10 and 26. -/
def Obligations.ClocksAndSupplies : Prop :=
  ∀ (p : Fin 6) (ppm : Half) (vbat : Bool) (s : State),
    (p.val ≠ 0 → ∃ t, exec (.pllUnlock p) s = .next t ∧ t.rb Reg.CLK_LOCK p = false ∧ Raised s t 13 ∧ t.pwr = s.pwr ∧
      Only s t [Reg.CLK_LOCK, Reg.CLK_REFSTAT, Reg.CLK_UNLOCK_CNT, rawReg 13]) ∧
    (∃ t, exec (.pllUnlock 0) s = .next t ∧ t.pwr.coreRun = false ∧ t.rb Reg.CLK_LOCK 0 = false) ∧
    (∃ t, exec (.pllLock p) s = .next t ∧ t.rb Reg.CLK_LOCK p = true ∧ t.pwr.coreRun = (s.pwr.coreRun || decide (p.val = 0)) ∧
      Only { s with pwr := t.pwr } t (if p.val < 4 then [Reg.CLK_LOCK] else [Reg.CLK_LOCK, Reg.CLK_REFSTAT])) ∧
    (s.rtc.xtal = true → ∃ t, exec (.ref25Measurement ppm) s = .next t ∧ t.reg Reg.CLK_REF25PPM = BitVec.ofNat 32 ppm.toNat ∧
      t.rb Reg.CLK_REFSTAT 0 = decide (-2000 ≤ ppm.toInt ∧ ppm.toInt ≤ 2000) ∧ Only s t [Reg.CLK_REF25PPM, Reg.CLK_REFSTAT]) ∧
    (∀ q ∈ [(Instr.supplyWarn p, 10), (.vbatLow, 11)], ∃ t, exec q.1 s = .next t ∧ Raised s t q.2 ∧ Only s t [rawReg q.2]) ∧
    (∃ t, exec (.mainSupplyFail vbat) s = .next t ∧ t.reg Reg.SYS_MODE = 0 ∧ t.pwr.mainOk = false ∧ t.pwr.coreRun = false ∧ t.pwr.onVbat = vbat ∧
      t.sys.trans = [] ∧ (∀ d, 1 ≤ d → d ≤ 13 → t.domState d = 0) ∧ ∀ k, Key.keep ≤ k → k < Key.keep + 0x200000 → t.rd k = s.rd k)

/-- Resets (03 R95–R101): RST_N low for 1 µs and SYS_RESET with its key begin one, which keeps what its kind keeps and sets the cause; POWER_ON after BACKUP is
a cold one. What is kept of registers and memory is the model's reading of 03 R99 and R100. Choices of the model: log 21. -/
def Obligations.Resets : Prop :=
  ∀ (ag : Agent) (v : Word) (ns : Nat) (s : State),
    let begun := fun (t : State) (cold : Bool) (bit : Nat) => t.sys = { inReset := true } ∧ t.wire = s.wire ∧ t.pending = s.pending ∧
      t.reg Reg.SYS_RESETCAUSE = BitVec.ofNat 32 (2 ^ bit + 128 * bn cold + 256 * s.rf Reg.SYS_RESETCAUSE 4 0 + 32768 * s.rf Reg.SYS_RESETCAUSE 7 7) ∧
      t.reg Reg.SYS_GEN = s.reg Reg.SYS_GEN + 1 ∧ t.mode = Mode.boot ∧
      (∀ k, k ∉ [Reg.SYS_RESETCAUSE, Reg.SYS_GEN, rawReg 0, Reg.PAGE_STAT 1, Reg.PWR_STAT 14] →
        t.reg k = if State.keptReg cold k then s.reg k else regReset k) ∧
      t.domState 14 = s.domState 14 ∧ (s.mode ∉ [Mode.backup, Mode.boot] → raw t 0 = true) ∧
      (∀ k, t.rd k = if State.keptMem cold k then s.rd k else 0) ∧ t.cores = [] ∧ t.ctxs = []
    (s.pwr.mainOk = false ∨ ns < 480 → exec (.rstNLow ns) s = .next s) ∧
    (s.pwr.mainOk = true → s.sys.inReset = false → 1000 ≤ ns → ∃ t, exec (.rstNLow ns) s = .next t ∧ begun t true 1) ∧
    (Writes s ag Reg.SYS_RESET → s.sys.inReset = false → v.toNat < 2 ^ 9 → v.toNat % 256 = 0xD7 →
      ∃ t, exec (.sysReset ag v) s = .next t ∧ t.sys = { inReset := true } ∧ t.mode = Mode.boot ∧ t.cores = [] ∧ t.reg Reg.SYS_GEN = s.reg Reg.SYS_GEN + 1 ∧
        ∀ k, t.rd k = if State.keptMem (v.toNat.testBit 8) k then s.rd k else 0) ∧
    (Writes s ag Reg.SYS_RESET → v.toNat < 2 ^ 9 → v.toNat % 256 ≠ 0xD7 → ∃ t, exec (.sysReset ag v) s = .next t ∧ t.rb (Reg.PAGE_STAT 0) 3 = true ∧
      Did s t [Reg.PAGE_STAT 0]) ∧
    (s.pwr.mainOk = true → ∀ b, exec (.powerOn b) s = .next s) ∧
    (s.pwr.mainOk = false → s.pwr.vbat = true → ∃ t, exec (.powerOn true) s = .next t ∧ t.pwr.mainOk = true ∧ t.pwr.onVbat = false ∧ t.sys.inReset = true ∧
      t.mode = Mode.boot ∧ t.rb Reg.SYS_RESETCAUSE 17 = true ∧ t.rb Reg.SYS_RESETCAUSE 7 = true) ∧
    (s.pwr.mainOk = false → s.pwr.vbat = false → ∀ b, ∃ t, exec (.powerOn b) s = .next t ∧ t.pwr.mainOk = true ∧ t.sys.inReset = true ∧ t.mode = Mode.boot ∧
      t.reg Reg.SYS_RESETCAUSE = regReset Reg.SYS_RESETCAUSE)

/-- BOOT (03 R104–R117): the ROM brings the domains up, a fuse error ends it with code 3, with the host-boot strap it waits at step 5; the host's GO loads a
good Stone and goes on to step 8, a bad image leaves code 4; step 12 done, the device enters the mode that straps and project say. Choices of the model: log
4 and 22. -/
def Obligations.Boot : Prop :=
  ∀ (ag : Agent) (obs : BootObs) (v : Word) (us : BitVec 24) (s : State),
    let phase := s.rf Reg.SYS_BOOTSTAT 3 0
    (s.sys.inReset = false ∨ s.pwr.mainOk = false → exec (.romStart obs) s = .next s) ∧
    (s.sys.inReset = true → s.pwr.mainOk = true → s.rb Reg.SYS_RESETCAUSE 7 = true →
      (obs.fuseOk = false → ∃ t, exec (.romStart obs) s = .next t ∧ t.sys.inReset = false ∧ t.rf Reg.SYS_BOOTSTAT 15 12 = 3 ∧ t.rf Reg.SYS_BOOTSTAT 3 0 = 15) ∧
      (obs.fuseOk = true → obs.selfTest = .clean → obs.straps.getLsbD 3 = true → s.keep.torn = none → ∃ t, exec (.romStart obs) s = .next t ∧
        t.sys.inReset = false ∧ t.sys.hostWait = true ∧ t.rf Reg.SYS_BOOTSTAT 3 0 = 5 ∧ t.reg Reg.SYS_STRAPS = obs.straps.setWidth 32 ∧
        ∀ d, 1 ≤ d → d ≤ 13 → t.domState d = 2)) ∧
    (Writes s ag Reg.SYS_HOSTBOOT → s.sys.hostWait = false → ∃ t, exec (.hostbootGo ag v) s = .next t ∧
      t.reg Reg.SYS_HOSTBOOT = (v &&& 0x801FFFFF) ||| (s.reg Reg.SYS_HOSTBOOT &&& 0x80000000) ∧ Did s t [Reg.SYS_HOSTBOOT]) ∧
    (let len := v.toNat % 2 ^ 21
      let img := s.sramRd 0 len
      Writes s ag Reg.SYS_HOSTBOOT → s.sys.hostWait = true → v.toNat.testBit 31 = true → len ≤ 0x100000 → len % 4 = 0 →
        (drupeFields img = none → ∃ t, exec (.hostbootGo ag v) s = .next t ∧ t.rf Reg.SYS_BOOTSTAT 15 12 = 4 ∧ t.sys.hostWait = true ∧
          t.rb Reg.SYS_HOSTBOOT 31 = false) ∧
        (∀ e f, phase = 5 → s.rb Reg.SYS_STRAPS 3 = true → s.sess.state ≠ 2 → drupeFields img = some e → len = 256 + 4096 * e.npiece →
          s.verifyImage 1 img = .good f → ∃ t, exec (.hostbootGo ag v) s = .next t ∧ t.rf Reg.SYS_BOOTSTAT 3 0 = 8 ∧ t.sys.hostWait = true ∧
            (t.core 72).run = .exec ∧ (t.reg Reg.UPD_VER_STONE).toNat = f.fwver % 2 ^ 32)) ∧
    (s.mode ≠ Mode.boot ∨ s.sys.inReset = true ∨ s.sys.hostWait = true ∨ phase < 10 ∨ 12 < phase → exec (.bootDone us) s = .next s) ∧
    (s.mode = Mode.boot → s.sys.inReset = false → s.sys.hostWait = false → 10 ≤ phase → phase ≤ 12 → ∃ t, exec (.bootDone us) s = .next t ∧
      t.reg Reg.SYS_BOOTTIME = BitVec.ofNat 32 us.toNat ∧ Raised s t 1 ∧ t.sys.upd = none ∧
      t.mode = if s.rb Reg.SYS_STRAPS 2 ∨ s.rb Reg.SYS_BOOTSTAT 10 then Mode.service
        else if s.rb Reg.SYS_STRAPS 3 ∨ s.rb Reg.SYS_BOOTSTAT 8 = false ∨ s.sys.start = 0 then Mode.config
        else if s.rb Reg.SYS_STRAPS 1 then Mode.stnSafe else Mode.stop)

/-- Arbitration (07 R261, R262, R264, R247): without a requester at its limit the highest priority wins, the first from the pointer on among equals, the pointer
goes past the winner, each loser's wait counts; one at its limit wins against any priority. ARB_COMMIT takes the shadow set over, PSNCLR clears a mark.
Choices of the model: log 27. -/
def Obligations.Arbitration : Prop :=
  ∀ (ag : Agent) (id w : Nat) (reqs : List Nat) (v : Word) (s : State),
    let n := State.arbSize id
    let a := s.arb id
    let dist := fun i => (i + n - a.ptr) % n
    let decides := 0 < n ∧ a.owner = none ∧ s.bankBusy id = false ∧ s.pwr.coreRun = true
    (decides → a.ptr < n → w ∈ reqs → w < n →
      (∀ i ∈ reqs, i < n → s.arbWait id i < s.arbLimit id ∧ s.arbPrio id i ≤ s.arbPrio id w ∧ (s.arbPrio id i = s.arbPrio id w → dist w ≤ dist i)) →
        ∃ t, exec (.arbiterDecision id reqs false) s = .next t ∧ (t.arb id).ptr = (w + 1) % n ∧ Sparse.get (fun _ => 0) (t.arb id).waits w = 0 ∧
          (∀ i ∈ reqs, i < n → i ≠ w → Sparse.get (fun _ => 0) (t.arb id).waits i = min (s.arbLimit id) (Sparse.get (fun _ => 0) a.waits i + 1)) ∧
          ∀ j, j ≠ id → t.arb j = s.arb j) ∧
    (decides → ∀ l, a.limit = w :: l → s.arbLimit id ≤ s.arbWait id w → w ∈ reqs → w < n →
      ∃ t, exec (.arbiterDecision id reqs false) s = .next t ∧ (t.arb id).ptr = (w + 1) % n) ∧
    (a.owner.isSome ∨ s.bankBusy id = true → exec (.arbiterDecision id reqs false) s = .next s) ∧
    (Writes s ag Reg.ARB_COMMIT → v = 1 → ∃ t, exec (.arbCommit ag v) s = .next t ∧ t.rb (Reg.PAGE_STAT 0x0A) 2 = false ∧ Raised s t 54 ∧ t.arbs = s.arbs ∧
      ∀ o ∈ State.rsOffs 0x0A, t.reg (Reg.page 0x0A + o) = s.reg (Reg.page 0x0A + o + 0x400)) ∧
    (Writes s ag Reg.IMG_PSNCLR → ∃ t, exec (.psnclr ag v) s = .next t ∧
      Did { s with img := { s.img with poison := if v.toNat.testBit 31 then State.setMark s.img.poison (v.toNat % 2 ^ 16) false else s.img.poison } } t [])

/-- INPUT FREEZE at a boundary not handled yet (06 R192, R193, R207; 04 R134; 08 R277), of a device without a twin, a pending transition, swap, copy or Graft:
the cycle takes the boundary's number and time; in RUN the lanes start to solve and the cells are updated. Before the next boundary nothing happens. Choices
of the model: log 23. -/
def Obligations.InputFreeze : Prop :=
  ∀ (n : Nat) (s : State), s.cycleAt s.netT = some n →
    (∀ b, s.scn.lastB = some b → n ≤ b → exec .inputFreeze s = .next s) ∧
    (s.mode ∈ [Mode.boot, Mode.service, Mode.config, Mode.backup] → exec .inputFreeze s = .next s) ∧
    ((∀ b, s.scn.lastB = some b → b < n) → s.mode ∈ [Mode.run, Mode.stop] → s.isStn = false → s.rb (Reg.PAGE_CTRL 0x0E) 0 = false → s.lead = true → s.twn = {} →
      s.scn.copies = [] → s.scn.applied = true → s.scn.interrupted = false → s.sys.trans = [] → s.sys.auto = false → s.rb Reg.SYS_CFGSWAP 1 = false →
      s.reg Reg.GRF_STAT = 0 → s.grf.dispStop = false → s.pwr.coreRun = true →
        ∃ t, exec .inputFreeze s = .next t ∧ t.scn.cyc = n % 2 ^ 48 ∧ t.scn.tn = s.boundaryAt n ∧ t.scn.cts = s.boundaryAt n / 1000 % 2 ^ 48 ∧
          t.scn.lastB = some n ∧ Raised s t 16 ∧
          (s.mode = Mode.run → t.tmc.updating = true ∧ (s.lanesWith 1 ≠ [] → t.rf Reg.SCN_STAT 14 12 = 1 ∧ t.scn.published = false)) ∧
          (s.mode = Mode.stop → t.rf Reg.SCN_STAT 14 12 = 0 ∧ t.scn.published = true))

/-- The rest of a cycle (06 R193, R201, R203, R205, R218; 08 R278): the merge writes the staged entries and sends the lanes on, APPLY is due once, the copy of
the output image ends, an overrun stops the device, the update of the cells ends. Choices of the model: log 23 and 24. -/
def Obligations.CycleEvents : Prop :=
  ∀ (clk : BitVec 11) (s : State),
    (s.scn.merging = false → exec .mergeDone s = .next s) ∧
    (∀ l o : Nat, ∀ m v : Byte, s.scn.merging = true → s.pwr.coreRun = true → l ∈ s.lanesWith 1 → (∀ k ∈ s.lanesWith 1, k ≠ l → (s.core (s.physOf k)).swb = []) →
      ((s.core (s.physOf l)).swb = [] ∨ ((s.core (s.physOf l)).swb = [⟨.img o, m, v⟩] ∧ s.eccMark (Key.output + o) = 0)) →
      (∃ k ∈ s.lanesWith 1, (s.core (s.physOf k)).run ≠ .segEnd) → s.scn.hold ≠ .step → ∃ t, exec .mergeDone s = .next t ∧
      t.scn.merging = false ∧ t.rb Reg.IMG_STAT 0 = false ∧
      (∀ j, t.rd j = if j = Key.output + o ∧ (s.core (s.physOf l)).swb ≠ [] then (s.rd j &&& ~~~m) ||| (v &&& m) else s.rd j) ∧
      ∀ k ∈ s.lanesWith 1, (∀ j ∈ s.lanesWith 1, s.physOf j = s.physOf k → j = k) → (s.core (s.physOf k)).run = .atMerge →
        (t.core (s.physOf k)).run = .exec ∧ (t.core (s.physOf k)).stepNo = ((s.core (s.physOf k)).stepNo + 1) % 16 ∧ (t.core (s.physOf k)).swb = []) ∧
    (s.scn.applied = true ∨ s.scn.interrupted = true → exec .apply s = .next s) ∧
    (s.scn.applied = false → s.scn.interrupted = false → s.scn.pubDue = false → s.pwr.coreRun = true → s.rf Reg.GRF_STAT 2 0 ≠ 2 → ∃ t, exec .apply s = .next t ∧ t.scn.applied = true ∧
      (s.cyclePublished = true → Raised s t 18) ∧ (s.rf Reg.SCN_STAT 14 12 ∈ [1, 2, 3, 4] → t.rf Reg.SCN_STAT 14 12 = 3)) ∧
    (s.scn.pubDue = false → s.rb Reg.IMG_STAT 1 = false → exec .publishCopyDone s = .next s) ∧
    (s.scn.pubDue = false → s.rb Reg.IMG_STAT 1 = true → s.pwr.coreRun = true → ∃ t, exec .publishCopyDone s = .next t ∧ t.rb Reg.IMG_STAT 1 = false ∧
      ∀ i < 0x4000, t.rd (Key.publish + i) = s.rd (Key.output + i)) ∧
    (s.solving = false → exec .overrun s = .next s) ∧
    (s.solving = true → s.mode ∈ [Mode.run, Mode.hold, Mode.tracking, Mode.stnRun] → ∃ t, exec .overrun s = .next t ∧ t.mode = Mode.safeHalt ∧ Raised s t 19 ∧
      t.scn.published = true ∧ t.scn.applied = true ∧ t.rf Reg.SYS_HALTCAUSE 7 0 = 1) ∧
    (s.tmc.updating = false → exec (.updateDone clk) s = .next s) ∧
    (s.tmc.updating = true → s.pwr.coreRun = true → ∃ t, exec (.updateDone clk) s = .next t ∧ t.tmc = { s.tmc with updating := false } ∧ Raised s t 58 ∧
      t.reg Reg.TMC_UPD_LAST = BitVec.ofNat 32 (min clk.toNat 1600) ∧
      Only { s with tmc := t.tmc } t [Reg.TMC_STAT, Reg.TMC_UPD_LAST, Reg.TMC_UPD_MAX, rawReg 58])

/-- Event tasks (06 R211–R214; 04 R153, R154): the slot that comes next starts in a fresh context of its priority, on an idle lane at once; a preemption takes
effect where no seal, lock or delay slot holds it off. Choices of the model: log 12. -/
def Obligations.EventTasks : Prop :=
  ∀ (c : Core) (s : State),
    (s.mode ∉ [Mode.run, Mode.stnRun] ∨ s.grf.dispStop = true ∨ s.slotNext = none ∨ s.pwr.coreRun = false → exec .eventDispatch s = .next s) ∧
    (∀ n k ev arg q, s.mode ∈ [Mode.run, Mode.stnRun] → s.grf.dispStop = false → s.pwr.coreRun = true → s.slotNext = some (n, k) → s.evt.slots.find? (·.1 == n) = some (n, ev, arg, q) →
      let p := s.physOf k
      let prio := s.rf (Reg.SCN_SLOT_CFG n) 18 16
      ∃ t, exec .eventDispatch s = .next t ∧ t.evt = { s.evt with slots := s.evt.slots.filter (·.1 != n) } ∧
        t.ctx p prio = { pc := s.rf (Reg.SCN_SLOT_CFG n) 13 0, task := some ⟨n, ev, prio, arg, q⟩ } ∧
        (∀ d x, d * 8 + x ≠ p * 8 + prio → t.ctx d x = s.ctx d x) ∧
        ((s.lanePrio p).isNone = true → (t.core p).run = .exec ∧ (t.core p).cur = prio) ∧ ((s.lanePrio p).isSome = true → t.core p = s.core p) ∧ t.regs = s.regs) ∧
    (68 ≤ c.val → exec (.preemption c) s = .next s) ∧
    (c.val < 68 → ∀ pr, s.lanePrio c = some pr →
      let x := s.cx c
      let free := s.pwr.coreRun = true ∧ (s.core c).run = .exec ∧ (s.core c).cur < pr ∧ x.sealed = 0 ∧ x.lock = none ∧ x.slot = .none ∧ x.beat = none
      (free → ∃ t, exec (.preemption c) s = .next t ∧ t = { s.setCore c { s.core c with cur := pr } with arbs := t.arbs } ∧
        (∀ i, (t.arb i).owner ≠ some c.val) ∧ ∀ i, i ∉ s.owned c → t.arb i = s.arb i) ∧ (¬ free → exec (.preemption c) s = .next s))

/-- Host errors of an instruction (04 R160; 05 R161, R162, R170, R191): the words that spell an instruction are those that its encoding gives; registers, flags and
memory writes of another word, and of one with an odd pair or an unassigned condition, are open, and control goes on behind it; of an instruction that stands where
it may not, what becomes of the core's own context is open, and no memory changes; no other core or context changes. A core that may not issue executes nothing.
Choices of the model: log 12, 14 and 50. -/
def Obligations.LaneHostErrors : Prop :=
  ∀ (c : Core) (d a b : GReg) (imm : Byte) (pb : PReg) (disp : PairAt) (n : BitVec 6) (cond : BitVec 4) (off : BitVec 14) (s : State),
    let odd := [Instr.ldp c d pb disp, .stp c d pb disp, .mulu c d a b, .muls c d a b, .divu c d a b, .divs c d a b, .addw c d a b, .subw c d a b,
      .movw c d a, .cmpw c d a, .addwi c d imm, .subwi c d imm]
    let x := s.cx c
    let others := fun (t : State) => (∀ e, e ≠ c.val → t.core e = s.core e) ∧ ∀ e y, e * 8 + y ≠ c.val * 8 + (s.core c).cur → t.ctx e y = s.ctx e y
    let anyOf := fun (o : Res State) => ∃ t, o = .next t ∧ (c.val < 68 → others t ∧ (x.rep = none → (t.cx c).pc = (x.pc + 1) % 16384))
    let bad := fun (i : Instr) => anyOf (exec i s)
    let lost := fun (i : Instr) => ∃ t, exec i s = .next t ∧ others t ∧ t.mem = s.mem ∧ (s.scn.hold ≠ .step → t.regs = s.regs)
    (∀ w i, decodeLimlis c w = some i → encodeLimlis i = some w ∧ execWord c w s = exec i s) ∧
    (∀ w i, encodeLimlis i = some w → (∀ e g p v, i ≠ .ldp e g p ⟨v, true⟩ ∧ i ≠ .stp e g p ⟨v, true⟩) → ∃ e, decodeLimlis e w = some i) ∧
    (Executes s c .plain → x.slot = .none → ∀ w, decodeLimlis c w = none → anyOf (execWord c w s)) ∧
    (Executes s c .plain → x.slot = .none → (d.toNat % 2 = 1 → ∀ i ∈ odd, bad i) ∧ (cond.toNat = 15 → bad (.br c cond off)) ∧ (3 < cond.toNat → bad (.brf c cond off)) ∧
      (x.rep = none → 32 < n.toNat → ∃ t k, exec (.repImm c n) s = .next t ∧ others t ∧ t.mem = s.mem ∧ k < 64 ∧
        (t.cx c).rep.map (·.count) = (if k = 0 then none else some k) ∧ (t.cx c).pc = (x.pc + (if k = 0 then 2 else 1)) % (if c.val < 68 then 16384 else 32768))) ∧
    (Executes s c .plain → x.slot ≠ .none → ∀ i ∈ [Instr.jmp c off, .call c off, .jmpr c pb, .repReg c a, .halt c], lost i) ∧
    (Executes s c .plain → x.rep.isSome → ∀ i ∈ [Instr.jmp c off, .call c off, .jmpr c pb, .repReg c a, .seal c 1, .lck c 1, .step c], lost i) ∧
    (s.canIssue c = false → ∀ i ∈ odd ++ [.nop c, .jmp c off, .add c d a b, .step c, .halt c], exec i s = .next s)

/-- Faults of lanes and the spare (06 R219, R222, R224, R225, R240; 19 R582): the record takes lane, cause, step and PC, an event lane's fault has its contents
copied to the Bunch's spare, and where no spare is left the device enters SAFE-HALT. The copy's end, its failure, a forced fault, a service lane's fault.
Choices of the model: log 25. -/
def Obligations.LaneFaultsAndSpares : Prop :=
  ∀ (ag : Agent) (p : Fin 68) (cause : BitVec 4) (i : Fin 5) (b : Fin 4) (addr : BitVec 14) (half : Bool) (v : Word) (s : State),
    let c := cause.toNat
    let w := p.val + 2 ^ 7 + c * 2 ^ 8 + (s.core p).stepNo % 16 * 2 ^ 12 + (s.cx p).pc % 2 ^ 14 * 2 ^ 16
    let idle := ∀ e ∈ s.scn.copies, e.1 = b.val → e.2.running = false
    (c = 0 ∨ 6 < c → exec (.laneFault p cause) s = .next s) ∧
    (1 ≤ c → c ≤ 6 → b.val = p.val / 17 → ∃ t, exec (.laneFault p cause) s = .next t ∧ Raised s t (32 + 4 * b) ∧
      (s.rb (Reg.BUN_FLT0 b) 7 = false → t.reg (Reg.BUN_FLT0 b) = BitVec.ofNat 32 w ∧ t.reg (Reg.BUN_FLT0_CYC b) = BitVec.ofNat 32 s.scn.cyc) ∧
      (c ≠ 4 ∨ s.scanOf p = none → (t.core p).faulty = true) ∧
      (∀ k, s.scanOf p = some k → c = 4 → s.mode = Mode.run → t.mode = Mode.safeHalt ∧ t.rf Reg.SYS_HALTCAUSE 7 0 = 4 ∧ Raised s t 22) ∧
      (∀ k, s.scanOf p = some k → c ≠ 4 → s.laneRole k ≠ 1 →
        (s.spareFree b = true → t.scn.copies = s.scn.copies ++ [(b.val, ⟨p, k, true, false⟩)] ∧ t.rb (Reg.BUN_SPARE b) 9 = false ∧
          t.rb (Reg.BUN_COPYSTAT b) 0 = true ∧ t.mode = s.mode) ∧
        (s.spareFree b = false → s.mode = Mode.run → t.mode = Mode.safeHalt ∧ t.rf Reg.SYS_HALTCAUSE 7 0 = 2 ∧ Raised s t (35 + 4 * b)))) ∧
    (∃ t, exec (.serviceLaneFault i) s = .next t ∧ t.core (68 + i) = { s.core (68 + i) with run := .stopped, faulty := true } ∧
      (∀ d, d ≠ 68 + i.val → t.core d = s.core d) ∧ (∀ j < 4, t.svflt.getLsbD j = (s.svflt.getLsbD j || decide (j = i.val))) ∧
      Did { s with cores := t.cores, svflt := t.svflt } t [Reg.BGD_UE_CNT, Reg.BGD_UE_WHERE, Reg.BGD_UE_ADDR]) ∧
    (idle → exec (.spareReady b) s = .next s ∧ exec (.copyErr b addr half) s = .next s) ∧
    (∀ y, s.scn.copies.find? (·.1 == b.val) = some (b.val, y) → y.running = true →
      (∃ t, exec (.copyErr b addr half) s = .next t ∧ (t.reg (Reg.BUN_COPYERR b)).toNat = addr.toNat + 2 ^ 15 * bn half ∧ Raised s t (34 + 4 * b) ∧
        t.rb (Reg.BUN_COPYSTAT b) 2 = true ∧ t.rb (Reg.BUN_COPYSTAT b) 0 = false ∧ t.mem = s.mem ∧ t.cores = s.cores) ∧
      (s.ecc = [] → Inv s → y.lane ≠ s.spareOf b → ∃ t, exec (.spareReady b) s = .next t ∧ Raised s t (33 + 4 * b) ∧ t.rb (Reg.BUN_COPYSTAT b) 1 = true ∧
        t.rb (Reg.BUN_COPYSTAT b) 0 = false ∧ (s.rf Reg.GRF_STAT 2 0 = 2 → t.rf Reg.GRF_STAT 2 0 = 1) ∧ t.cores = s.cores ∧
        (∀ j < 0x10000, t.rd (Key.instr (s.spareOf b) s.activeHalf 0 + j) = s.rd (Key.instr y.lane s.activeHalf 0 + j)) ∧
        ∀ j < 0x1000, t.rd (Key.const (s.spareOf b) s.activeHalf + j) = s.rd (Key.const y.lane s.activeHalf + j))) ∧
    (Writes s ag (Reg.BUN_FORCEFLT b) → ∃ t, exec (.forceflt ag b v) s = .next t ∧ Did { s with cores := t.cores } t [] ∧
      (v.toNat.testBit 7 = false → t.cores = s.cores) ∧
      (v.toNat.testBit 7 = true → v.toNat % 32 < 17 → t.core (17 * b + v.toNat % 32) = { s.core (17 * b + v.toNat % 32) with forced := true } ∧
        ∀ d, d ≠ 17 * b.val + v.toNat % 32 → t.core d = s.core d))

/-- HOLD and the debug unit (06 R227, R229–R232, R237): a breakpoint and BRK hold the device with the place recorded, a single step gives each halted lane one
instruction, a single cycle waits for the next boundary or lets the interrupted one go on; the debug port halts and starts service cores. Choices of the
model: log 24 and 25. -/
def Obligations.HoldAndDebug : Prop :=
  ∀ (ag : Agent) (p : Fin 68) (c : Core) (code : BitVec 14) (v : Word) (n : Nat) (s : State),
    let free := s.mode = Mode.hold ∧ s.rb Reg.SCN_HOLDSTAT 24 = false
    let pc := (s.cx p).pc
    (∀ k, s.scanOf p = some k → s.mode ∈ [Mode.run, Mode.hold] → s.scn.hold = .none → (s.core p).run = .exec →
      (s.cx p).skipBp = false → (s.cx p).atBrk = false → (s.core p).held = false →
      (s.bpMatch k pc = false → exec (.breakpointHit p) s = .next s) ∧
      (s.bpMatch k pc = true → ∃ t, exec (.breakpointHit p) s = .next t ∧ t.mode = Mode.hold ∧ Raised s t 24 ∧ (t.core p).held = true ∧
        t.reg Reg.DBG_BRKREC = BitVec.ofNat 32 (k + 256 * pc + 2 ^ 31) ∧ t.rf Reg.SCN_STAT 14 12 = 5 ∧ t.mem = s.mem)) ∧
    (Executes s c .mark → c.val < 68 → s.rb Reg.DBG_CTRL 0 = true → s.rb Reg.DBG_CTRL 1 = true → s.mode ∈ [Mode.run, Mode.hold] → s.scn.hold = .none →
      ∃ t, exec (.brk c code) s = .next t ∧ t.mode = Mode.hold ∧ Raised s t 24 ∧ (t.reg Reg.DBG_BRKCODE).toNat = code.toNat ∧ (t.core c).held = true) ∧
    (s.mode ≠ Mode.hold → exec .holdKeepalive s = .next s) ∧
    (s.cycleAt s.netT = some n → (∀ b, s.scn.lastB = some b → b < n) → s.mode = Mode.hold → s.scn.hold = .none → s.isStn = false →
      s.rb (Reg.PAGE_CTRL 0x0E) 0 = false → s.lead = true → s.twn = {} → s.scn.copies = [] → s.scn.applied = true → s.scn.interrupted = false →
      s.sys.trans = [] → s.sys.auto = false → s.reg Reg.GRF_STAT = 0 → s.grf.dispStop = false → s.pwr.coreRun = true →
      ∃ t, exec .holdKeepalive s = .next t ∧ t.scn.lastB = some n ∧ t.mode = Mode.hold ∧ t.scn.cyc = s.scn.cyc ∧ t.cores = s.cores) ∧
    (Writes s ag Reg.SCN_HOLDCMD →
      (¬ free → ∀ i ∈ [Instr.holdStep ag, .holdCycle ag], ∃ t, exec i s = .next t ∧ t.rb (Reg.PAGE_STAT 4) 3 = true ∧ Did s t [Reg.PAGE_STAT 4]) ∧
      (free → (∀ k < 64, (s.core (s.physOf k)).credit = false) → s.scn.merging = false → ∃ t, exec (.holdStep ag) s = .next t ∧ t.mem = s.mem ∧
        (∀ k < 64, (s.core (s.physOf k)).held = true → (s.core (s.physOf k)).run = .exec →
          (t.core (s.physOf k)).credit = true ∧ t.rb Reg.SCN_HOLDSTAT 24 = true ∧ t.scn.hold = .step) ∧
        ((∀ k < 64, (s.core (s.physOf k)).held = false ∨ (s.core (s.physOf k)).run ≠ .exec) → t.rb Reg.SCN_HOLDSTAT 24 = false ∧ Raised s t 25 ∧
          t.scn.hold = .none)) ∧
      (free → ∃ t, exec (.holdCycle ag) s = .next t ∧ t.rb Reg.SCN_HOLDSTAT 24 = true ∧ t.mem = s.mem ∧
        (s.scn.interrupted = false → t.rf Reg.SCN_HOLDSTAT 1 0 = 0 ∧ Did { s with scn := { s.scn with hold := .waiting } } t [Reg.SCN_HOLDSTAT]) ∧
        (s.scn.interrupted = true → t.scn.hold = .running ∧ t.scn.interrupted = false ∧ t.scn.tn = s.boundaryAt s.nextB ∧
          ∀ k < 64, (t.core (s.physOf k)).held = false))) ∧
    (∀ h, Writes s ag (if h then Reg.DBG_CORE_HALT else Reg.DBG_CORE_RUN) → ∃ t,
      exec (if h then .dbgCoreHalt ag v else .dbgCoreRun ag v) s = .next t ∧
      (ag ≠ .debug → t.rb (Reg.PAGE_STAT 0x24) 3 = true ∧ Did s t [Reg.PAGE_STAT 0x24]) ∧
      (ag = .debug → (∀ d, t.core d = if 68 ≤ d ∧ d < 73 ∧ v.toNat.testBit (d - 68) then { s.core d with dbgHalt := h } else s.core d) ∧
        (∀ i < 5, t.rb Reg.DBG_CORE_STAT i = if v.toNat.testBit i then h else s.rb Reg.DBG_CORE_STAT i) ∧
        Did { s with cores := t.cores } t [Reg.DBG_CORE_STAT]))

/-- Timer cells written over the fabric (08 R285–R288, R292): a new mode clears the cell, byte 5 commits the count that bytes 0–4 have staged; where no commit
is allowed the cell keeps its bytes and TMC shows WIGN. Choices of the model: log 28. -/
def Obligations.TimerCells : Prop :=
  ∀ (ag : Agent) (cell : BitVec 12) (v : Byte) (s : State),
    let k := Key.cells + 8 * cell.toNat
    let m := v.toNat % 16
    let allowed := s.mode ∈ [Mode.config, Mode.stop, Mode.safeHalt, Mode.hold] ∧ s.stby = false
    let b := Sparse.get (fun _ => {}) s.tmc.bufs (State.agentNum ag)
    let w := (if b.sTag = cell.toNat + 1 then b.sBuf.toNat else s.cellCount cell.toNat) % 2 ^ 40 + v.toNat * 2 ^ 40
    let old := (s.rd (k + 6)).toNat % 16
    s.domOn 8 = true → s.rb (Reg.OWNER 0x0B) (State.rightBits ag).2 = true → (ag = .debug → s.rb Reg.FUS_CTRL 1 = false) →
    (s.mode ≠ Mode.service ∨ ag = .steward) → s.pwr.coreRun = true → s.bootWindow ag = false → Inv s →
      (¬ allowed → exec (.tmcModeWrite ag cell v) s = .next (s.setRb (Reg.PAGE_STAT 0x0B) 3 true) ∧
        ∃ t, exec (.cellCountCommit ag cell v) s = .next t ∧ t.mem = s.mem ∧ t.rb (Reg.PAGE_STAT 0x0B) 3 = true) ∧
      (allowed →
        (∃ t, exec (.tmcModeWrite ag cell v) s = .next t ∧ (∀ j, j < k ∨ k + 8 ≤ j → t.rd j = s.rd j) ∧ t.regs = s.regs ∧
          (m < 9 → t.rd (k + 6) = v ∧ (∀ j < 6, t.rd (k + j) = 0) ∧ t.rd (k + 7) = 0 ∧
            Sparse.get (fun _ => 0) t.tmc.base cell.toNat = if m = 8 then (s.netUs : Int) else 0)) ∧
        ∃ t, exec (.cellCountCommit ag cell v) s = .next t ∧ (∀ j, j < k ∨ k + 8 ≤ j ∨ j = k + 6 → t.rd j = s.rd j) ∧ t.regs = s.regs ∧
          (t.rd (k + 7)).getLsbD 6 = false ∧ (old ∈ [1, 2, 3, 4] ∨ old ∈ [5, 6, 7] ∧ v.toNat < 4 → t.rdLE k 6 = w) ∧
          (old = 8 → Sparse.get (fun _ => 0) t.tmc.base cell.toNat = (s.netUs : Int) - w))

/-- Arming a Graft (09 R293–R298, R316): a refused ARM says why, an accepted one waits for the digest; the map memory takes its entries while none is under way.
Choices of the model: log 29 and 31. -/
def Obligations.GraftArming : Prop :=
  ∀ (ag : Agent) (v : Word) (r : List Byte) (s : State),
    let state := s.rf Reg.GRF_STAT 2 0
    let idx := s.rf Reg.GRF_MAPIDX 15 0
    let may := s.mode ∈ [Mode.run, Mode.stop, Mode.tracking, Mode.stnRun]
    let good := s.mapErr true = 0 ∧ s.rf Reg.GRF_MAPLEN 16 0 ≤ 65536
    let busy := state ≠ 0 ∨ s.rb Reg.SYS_CFGSWAP 1 = true ∨ s.rb Reg.SYS_CFGSWAP 3 = true
    (Writes s ag Reg.GRF_CTRL →
      (∀ q ∈ [(¬ may, 1), (may ∧ s.mapErr true ≠ 0, 2), (may ∧ s.mapErr true = 0 ∧ 65536 < s.rf Reg.GRF_MAPLEN 16 0, 3), (may ∧ good ∧ busy, 4), (may ∧ good ∧ ¬ busy ∧ s.rb (Reg.PAGE_CTRL 0x04) 2 = false, 5)], q.1 →
        ∃ t, exec (.grfArm ag) s = .next t ∧ t.rf Reg.GRF_STAT 7 4 = 7 ∧ t.rf Reg.GRF_STAT 11 8 = q.2 ∧ t.rf Reg.GRF_STAT 2 0 = state ∧ Raised s t 63 ∧
          Did s t [Reg.GRF_STAT, rawReg 63]) ∧
      (may → good → ¬ busy → s.rb (Reg.PAGE_CTRL 0x04) 2 = true → s.domOn (7 - s.activeHalf) = true → ∃ t, exec (.grfArm ag) s = .next t ∧
        t.reg Reg.GRF_STAT = 1 ∧ Did s t [Reg.GRF_STAT]) ∧
      (state = 1 ∨ state = 2 → ∃ t, exec (.grfDisarm ag) s = .next t ∧ t.rf Reg.GRF_STAT 2 0 = 0 ∧ t.rf Reg.GRF_STAT 7 4 = 4 ∧
        Did { s with grf := { s.grf with dispStop := false } } t [Reg.GRF_STAT]) ∧
      (state ≠ 1 → state ≠ 2 → ∃ t, exec (.grfDisarm ag) s = .next t ∧ t.rb (Reg.PAGE_STAT 0x0C) 3 = true ∧ Did s t [Reg.PAGE_STAT 0x0C])) ∧
    (state ≠ 1 → exec .graftDigestDone s = .next s) ∧
    (state = 1 → ∃ t, exec .graftDigestDone s = .next t ∧ t.rf Reg.GRF_STAT 2 0 = 2 ∧ t.reg64 Reg.GRF_DIGEST_LO = (crc64 s.packageBytes).toNat ∧
      t.reg Reg.GRF_TMAP = BitVec.ofNat 32 s.tmap ∧
      ∀ k, k ∉ [Reg.GRF_STAT, Reg.GRF_TMAP, Reg.GRF_DIGEST_LO, Reg.GRF_DIGEST_LO + 4] → t.reg k = s.reg k) ∧
    (Writes s ag Reg.GRF_MAPIDX →
      (state ≠ 0 → ∃ t, exec (.mapidxWrite ag v) s = .next t ∧ t.rb (Reg.PAGE_STAT 0x0C) 3 = true ∧ Did s t [Reg.PAGE_STAT 0x0C]) ∧
      (state = 0 → ∃ t, exec (.mapidxWrite ag v) s = .next t ∧ t.rf Reg.GRF_MAPIDX 15 0 = v.toNat % 65536 ∧ Did s t [Reg.GRF_MAPIDX])) ∧
    (Writes s ag Reg.GRF_MAPDATA_HI →
      (state ≠ 0 → ∃ t, exec (.mapdataHiWrite ag v) s = .next t ∧ t.rb (Reg.PAGE_STAT 0x0C) 3 = true ∧ Did s t [Reg.PAGE_STAT 0x0C]) ∧
      (state = 0 → Inv s → ∃ t, exec (.mapdataHiWrite ag v) s = .next t ∧ t.rdLE (Key.map + 8 * idx + 4) 4 = v.toNat ∧
        t.rdLE (Key.map + 8 * idx) 4 = (Sparse.get stageReset s.stage (State.agentNum ag * 2 ^ 32 + Reg.GRF_MAPDATA_LO)).toNat ∧
        (∀ k, k < Key.map + 8 * idx ∨ Key.map + 8 * idx + 8 ≤ k → t.rd k = s.rd k) ∧ t.rf Reg.GRF_MAPIDX 15 0 = (idx + 1) % 65536)) ∧
    (Reads s ag Reg.GRF_MAPDATA_HI → ∃ t, exec (.mapdataHiRead ag) s = .next t ∧ t.rf Reg.GRF_MAPIDX 15 0 = (idx + 1) % 65536 ∧ t.mem = s.mem ∧
      t.rdata = (Sparse.get regReset s.rbuf (State.agentNum ag * 2 ^ 32 + Reg.GRF_MAPDATA_HI)).setWidth 64) ∧
    (∀ p, s.twnOn = true → twnParse r = some p → p.type = 9 → byteAt p.data 0 = 8 → ∃ t, exec (.cmdGrfDigest r) s = .next t ∧
      t.reg64 Reg.GRF_PARTNER_DIGEST_LO = ofLE (sub p.data 4 8) ∧ Only s t [Reg.GRF_PARTNER_DIGEST_LO, Reg.GRF_PARTNER_DIGEST_LO + 4])

/-- A Graft applied (09 R301, R304, R306, R309, R312, R313): at the test point, with no event task running and time for the map, the halves swap and the map
moves and clears the Pantry; else the attempt is postponed and, at its limit, abandoned. Choices of the model: log 29 and 32. -/
def Obligations.GraftAttempts : Prop :=
  ∀ (r : List Byte) (s : State),
    let waited := s.rf Reg.GRF_STAT 23 16
    let state := s.rf Reg.GRF_STAT 2 0
    let e := s.mapEntry 0
    let postponed := fun (i : Instr) => ∃ t, exec i s = .next t ∧ t.rf Reg.GRF_STAT 23 16 = (waited + 1) % 256 ∧ Raised s t 61 ∧
      (waited + 1 < s.rf Reg.GRF_MAXWAIT 7 0 → t.rf Reg.GRF_STAT 2 0 = state) ∧
      (s.rf Reg.GRF_MAXWAIT 7 0 ≤ waited + 1 → t.rf Reg.GRF_STAT 2 0 = 0 ∧ t.rf Reg.GRF_STAT 7 4 = 2 ∧ Raised s t 62) ∧
      Only { s with grf := { s.grf with dispStop := false } } t [Reg.GRF_STAT, rawReg 61]
    (s.attempting = false → exec .graftTestPoint s = .next s ∧ exec .graftAttemptFail s = .next s) ∧
    (s.slotsRunning ≠ [] → exec .graftTestPoint s = .next s) ∧
    (s.attempting = true → s.mapFits = true → exec .graftAttemptFail s = .next s) ∧
    (s.attempting = true → s.mapFits = false → postponed .graftAttemptFail ∧ (s.slotsRunning = [] → postponed .graftTestPoint)) ∧
    (s.attempting = true → s.mapFits = true → s.slotsRunning = [] → s.ecc = [] → Inv s → ∃ t, exec .graftTestPoint s = .next t ∧ t.grf.half = !s.grf.half ∧
      (s.mode ≠ Mode.stop → ∀ b, s.scn.lastB = some b → t.grf.cyc = b + 1) ∧ t.rf Reg.GRF_STAT 2 0 = 3 ∧ t.grf.dispStop = true ∧
      (s.rf Reg.GRF_MAPLEN 16 0 = 0 → t.mem = s.mem ∧ t.reg Reg.GRF_IDX = 0) ∧
      (s.rf Reg.GRF_MAPLEN 16 0 = 1 → State.entryOk e = true → t.reg Reg.GRF_IDX = 1 ∧
        let len := byteAt e 1 + 1
        let dst := fun i => Key.pantry + (State.dstOf e + i) % 2 ^ 22
        (State.opOf e = 0 → t.mem = s.mem) ∧
        (State.opOf e = 1 → (∀ i < len, t.rd (dst i) = s.rd (Key.pantry + (State.srcOf e + i) % 2 ^ 22)) ∧ ∀ k, (∀ i < len, k ≠ dst i) → t.rd k = s.rd k) ∧
        (State.opOf e = 2 → State.dstOf e < 2 ^ 22 → (∀ i < len, t.rd (dst i) = 0) ∧ ∀ k, (∀ i < len, k ≠ dst i) → t.rd k = s.rd k))) ∧
    (state ≠ 3 → exec .grfApplied s = .next s ∧ exec .graftLate s = .next s) ∧
    (state = 3 → (∃ t, exec .grfApplied s = .next t ∧ t.rf Reg.GRF_STAT 2 0 = 0 ∧ t.rf Reg.GRF_STAT 7 4 = 1 ∧ Raised s t 60 ∧
        t.reg64 Reg.GRF_CYCLE_LO = s.grf.cyc % 2 ^ 48 ∧ (s.rb (Reg.PAGE_CTRL 0x0C) 3 = false → t.reg Reg.GRF_APPLIED_CNT = s.reg Reg.GRF_APPLIED_CNT + 1) ∧
        Only { s with grf := { s.grf with dispStop := false } } t [Reg.GRF_STAT, rawReg 60, Reg.GRF_CYCLE_LO, Reg.GRF_CYCLE_LO + 4, Reg.GRF_APPLIED_CNT]) ∧
      (s.mode = Mode.tracking → ∃ t, exec .graftLate s = .next t ∧ t.mode = Mode.syncing ∧ Raised s t 98)) ∧
    (∀ p, s.twnOn = true → twnParse r = some p → p.type = 9 → byteAt p.data 0 = 9 →
      (s.mode = Mode.tracking → state = 2 → s.rf Reg.GRF_MAPLEN 16 0 = 0 → s.grf.told = true → ∃ t, exec (.cmdGrfGo r) s = .next t ∧ t.rf Reg.GRF_STAT 2 0 = 3 ∧ t.grf.half = !s.grf.half) ∧
      (s.mode = Mode.tracking → state = 2 → s.grf.told = false → exec (.cmdGrfGo r) s = .next { s with grf := { s.grf with goDue := true } }) ∧
      (s.mode ≠ Mode.tracking → s.mode ≠ Mode.hold → exec (.cmdGrfGo r) s = .next s))

/-- Switched functions with a transition of their own (00 R15–R18; 02 R53; 13 R433; 14 R454, R455): a request takes EN at once and READY at the end, with BUSY
set between; one that comes meanwhile is held, and starts when the function is free again. Choices of the model: log 11. -/
def Obligations.SwitchedFunctions : Prop :=
  ∀ (ag : Agent) (n : Fin 4) (c : Fin 32) (en : Bool) (v : Word) (s : State),
    (∀ q ∈ [(Instr.ethEnable ag n en, 0x1E + n.val), (.canEnable ag n en, 0x11 + n.val), (.rndEnable ag en, 0x15)] ++
        (([0x11, 0x12, 0x13, 0x14, 0x15, 0x1E, 0x1F, 0x20, 0x21] : List (Fin 37)).map fun p => (Instr.pageEnable ag p en, p.val)),
      Writes s ag (Reg.PAGE_CTRL q.2) →
        (s.fn (100 + q.2) = {} → s.rb (Reg.PAGE_CTRL q.2) 0 = en → ∃ t, exec q.1 s = .next t ∧ Did s t []) ∧
        (s.fn (100 + q.2) = {} → s.rb (Reg.PAGE_CTRL q.2) 0 = !en → ∃ t, exec q.1 s = .next t ∧ t.rb (Reg.PAGE_CTRL q.2) 0 = en ∧
          t.rb (Reg.PAGE_STAT q.2) 0 = (en && s.rb (Reg.PAGE_STAT q.2) 0) ∧ t.rb (Reg.PAGE_STAT q.2) 1 = true ∧ t.fn (100 + q.2) = { s.fn (100 + q.2) with toward := some (bn en) } ∧
          (∀ i, i ≠ 100 + q.2 → t.fn i = s.fn i) ∧ t.mem = s.mem) ∧
        ((s.fn (100 + q.2)).toward.isSome = true → (s.fn (100 + q.2)).held.length < 4 → ∃ t, exec q.1 s = .next t ∧ t.rb (Reg.PAGE_CTRL q.2) 0 = en ∧
          t.fn (100 + q.2) = { s.fn (100 + q.2) with held := (s.fn (100 + q.2)).held ++ [bn en] } ∧ t.rb (Reg.PAGE_STAT q.2) 1 = true ∧
          Did { s with fns := t.fns } t [Reg.PAGE_CTRL q.2, Reg.PAGE_STAT q.2])) ∧
    (Writes s ag Reg.RND_CHEN → ∃ t, exec (.rndChen ag v) s = .next t ∧ t.reg Reg.RND_CHEN = v ∧
      let on := v.toNat.testBit c
      (on ≠ s.rb Reg.RND_CHEN c → s.fn (200 + c) = {} → s.rind.chOn.getLsbD c ≠ on → t.fn (200 + c) = { toward := some (bn on) }) ∧
      (on = s.rb Reg.RND_CHEN c → t.fn (200 + c) = s.fn (200 + c))) ∧
    (∀ q ∈ [(Instr.ethTransitionDone n, 0x1E + n.val)] ++ (if (s.cn n).sel = none then [(.canTransitionDone n, 0x11 + n.val)] else []),
      ((s.fn (100 + q.2)).toward = none → exec q.1 s = .next s) ∧
      ∀ g, (s.fn (100 + q.2)).toward = some g → ∃ t, exec q.1 s = .next t ∧ t.rb (Reg.PAGE_STAT q.2) 0 = (g == 1 && !s.softRst.contains q.2) ∧
        t.fn (100 + q.2) = { s.fn (100 + q.2) with toward := none, base := g } ∧ (∀ k, k ≠ Reg.PAGE_STAT q.2 → t.reg k = s.reg k) ∧
        { t with regs := s.regs, fns := s.fns } = s) ∧
    ((s.cn n).sel.isSome = true → exec (.canTransitionDone n) s = .next s) ∧
    (∀ id ∈ [121, 200 + c.val], (s.fn id).toward = none → exec (.enableDone id) s = .next s) ∧
    (s.rind.demag ≠ 0 → (s.fn 121).toward = some 0 → exec (.enableDone 121) s = .next s) ∧
    (s.rind.demag.getLsbD c = true → (s.fn (200 + c)).toward = some 0 → exec (.enableDone (200 + c)) s = .next s) ∧
    (∀ g, (s.fn 121).toward = some g → g = 1 ∨ s.rind.demag = 0 → ∃ t, exec (.enableDone 121) s = .next t ∧ t.rb (Reg.PAGE_STAT 0x15) 0 = (g == 1 && !s.softRst.contains 0x15) ∧
      (t.fn 121).toward = none ∧ Raised s t 165) ∧
    (∀ g, (s.fn (200 + c)).toward = some g → g = 1 ∨ s.rind.demag.getLsbD c = false → ∃ t, exec (.enableDone (200 + c)) s = .next t ∧
      t.rind.chOn.getLsbD c = (g == 1) ∧ (t.fn (200 + c)).toward = none ∧ Raised s t 165 ∧ (g ≠ 1 → t.rb Reg.RND_INSTATE c = false)) ∧
    (∀ id, (s.fn id).toward.isSome = true ∨ (s.fn id).held = [] → exec (.heldRequestStart id) s = .next s) ∧
    (∀ p g l, p ∈ [0x11, 0x12, 0x13, 0x14, 0x15, 0x1E, 0x1F, 0x20, 0x21] → (s.fn (100 + p)).toward = none → (s.fn (100 + p)).held = g :: l →
      ∃ t, exec (.heldRequestStart (100 + p)) s = .next t ∧
        t.fn (100 + p) = { s.fn (100 + p) with toward := if (s.fn (100 + p)).base = g then none else some g, held := l }) ∧
    (∀ g l, (s.fn (200 + c)).toward = none → (s.fn (200 + c)).held = g :: l → ∃ t, exec (.heldRequestStart (200 + c)) s = .next t ∧
      t.fn (200 + c) = { s.fn (200 + c) with toward := if s.rind.chOn.getLsbD c = (g == 1) then none else some g, held := l })

/-- Reception by a controller (10 R317, R319, R327, R332, R335, R343, R352; 11 R362): a frame that a check refuses is only counted; an IN copy of the next cycle
enters its station's block and is marked; HELLO starts a joining, DIAG is stored, an OUT frame of the partner tells of its epoch. Choices of the model: log
34. -/
def Obligations.VuvasReception : Prop :=
  ∀ (net : Net) (f : List Byte) (lands : Bool) (s : State),
    let port := Reg.TLM_ETH_RX (s.netPort net)
    let any := [Instr.inFrameRx net f lands, .helloRx net f, .diagRx net f, .partnerOutRx net f]
    let okCnt := match net with | .a => Reg.VUV_RX_OK_A | .b => Reg.VUV_RX_OK_B
    let bit : Byte := match net with | .a => 1 | .b => 2
    (s.netOn net = false → exec (.nonVuvasFrame net) s = .next s ∧ ∀ i ∈ any, exec i s = .next s) ∧
    (s.netOn net = true → s.netClash = false →
      (∃ t, exec (.nonVuvasFrame net) s = .next t ∧ Counted s t Reg.VUV_RX_OTHER ∧ Only s t [port, Reg.VUV_RX_OTHER]) ∧
      (s.portTakes (s.netPort net) f = false → ∀ i ∈ any, exec i s = .next s) ∧
      (s.portTakes (s.netPort net) f = true → s.vuvPart f = none → ∀ i ∈ any, ∃ t, exec i s = .next t ∧
        (if s.isPtp (s.netPort net) f then Only s t [port] else Counted s t Reg.VUV_RX_OTHER ∧ Only s t [port, Reg.VUV_RX_OTHER])) ∧
      (∀ p, s.portTakes (s.netPort net) f = true → s.vuvPart f = some p → vuvCheck p = .fmt →
        ∀ i ∈ any, ∃ t, exec i s = .next t ∧ Counted s t Reg.VUV_RX_FMT ∧ Only s t [port, Reg.VUV_RX_FMT]) ∧
      (∀ p, s.portTakes (s.netPort net) f = true → s.vuvPart f = some p → vuvCheck p = .crc → s.isStn = false → s.vuv.crc = false →
        ∀ i ∈ any, ∃ t, exec i s = .next t ∧ Counted s t Reg.VUV_RX_CRC ∧ Raised s t 74 ∧
          Only { s with vuv := { s.vuv with crc := true } } t [port, Reg.VUV_RX_CRC, rawReg 74]) ∧
      (∀ p v, s.portTakes (s.netPort net) f = true → s.vuvPart f = some p → vuvCheck p = .ok v → s.isStn = false →
        (v.type ∉ [1, 2, 6, 8] → ∀ i ∈ any, ∃ t, exec i s = .next t ∧ Only s t [port]) ∧
        (∀ g, v.type = 2 → v.segs = [g] → s.rb (Reg.VUV_STNCFG v.src) 0 = true → g.sflags / 2 % 2 = 1 →
          let pk := Key.pendStat + (v.src - 1) * 8
          let next := s.scn.lastB.map fun _ => (s.scn.cyc + 1) % 65536
          let rx := Instr.inFrameRx net f lands
          (next ≠ some v.seq → ∃ t, exec rx s = .next t ∧ Counted s t Reg.VUV_RX_SEQ ∧ Counted s t okCnt ∧ Only s t [port, okCnt, Reg.VUV_RX_SEQ]) ∧
          (next = some v.seq → (s.stnRx v.src).seq = some (BitVec.ofNat 16 v.seq) → ∃ t, exec rx s = .next t ∧ Counted s t Reg.VUV_RX_DUP ∧
            t.rd (pk + 3) = s.rd (pk + 3) ||| bit ∧ ∀ k, k ≠ pk + 3 → t.rd k = s.rd k) ∧
          (next = some v.seq → (s.stnRx v.src).seq ≠ some (BitVec.ofNat 16 v.seq) → ∃ t, exec rx s = .next t ∧
            t.rd (pk + 3) = (match net with | .a => 1 | .b => 6) ∧ t.rdLE (pk + 4) 2 = v.seq ∧ t.rb Reg.VUV_STAT (match net with | .a => 2 | .b => 3) = true ∧
            (lands = true → (∀ i < 128, t.rd (Key.recv + (v.src - 1) * 128 + i) = g.data.getD i 0) ∧ State.getMark t.img.complete v.src = true ∧
              (t.stnRx v.src).wrote = some (v.flags / 2 % 2 == 1)) ∧
            (lands = false → State.getMark t.img.writing v.src = true ∧ ∀ k, k ∉ [pk + 3, pk + 4, pk + 5] → t.rd k = s.rd k))) ∧
        (∀ g, v.type = 6 → v.segs = [g] →
          let uid := ofBE (sub g.data 0 8)
          (s.rb (Reg.VUV_STNCFG v.src) 0 = false → ∃ t, exec (.helloRx net f) s = .next t ∧ t.reg Reg.VUV_HELLO_LAST = BitVec.ofNat 32 (v.src + 2 ^ 31) ∧
            t.reg64 Reg.VUV_HELLO_UID_LO = uid ∧ t.vuv = s.vuv) ∧
          (s.rb (Reg.VUV_STNCFG v.src) 0 = true → ((s.stnRx v.src).uid = none ∨ (s.stnRx v.src).uid = some (BitVec.ofNat 64 uid)) →
            ∃ t, exec (.helloRx net f) s = .next t ∧ t.reg Reg.VUV_HELLO_LAST = BitVec.ofNat 32 (v.src + 256 + 2 ^ 31) ∧ Raised s t 69 ∧
              (t.stnRx v.src).join = 1 ∧ t.vuv.confQ = s.vuv.confQ ++ [v.src] ∧ t.mem = s.mem)) ∧
        (∀ g, v.type = 8 → v.segs = [g] → s.vuvOverlap = false →
          let o := s.rf Reg.VUV_DIAGBASE 19 6 * 64 + 64 * (v.src - 1)
          ∃ t, exec (.diagRx net f) s = .next t ∧ Raised s t 77 ∧
            (∀ i < 58, t.rd (Key.sram + (o + i) % 0x100000) = (g.data ++ beBytes 8 v.time ++ beBytes 2 v.seq).getD i 0) ∧
            ∀ k, (∀ i < 58, k ≠ Key.sram + (o + i) % 0x100000) → t.rd k = s.rd k) ∧
        (v.type = 1 → s.vuvTakes v = true → s.rb (Reg.PAGE_CTRL 0x0E) 0 = true → v.flags / 16 % 2 = 0 → s.mode ≠ Mode.tracking →
          ∃ t, exec (.partnerOutRx net f) s = .next t ∧ t.reg Reg.TWN_PARTNER = BitVec.ofNat 32 (v.epoch + 65536 * v.seq) ∧ t.twn.outSeen = true)))

/-- Frames that a controller with the lead sends (10 R317, R325, R328, R343, R346, R347): SCHED when due, SAFE for all stations outside RUN and for the stations
requested in RUN, RELEASE with its count, CONF from its queue; without the lead none. Choices of the model: log 34. -/
def Obligations.VuvasControl : Prop :=
  ∀ (ag : Agent) (m : Fin 4) (v : Word) (s : State),
    let sent := fun (t : State) (type : Nat) (segs : List (List Byte)) =>
      t.wire = s.wire ++ frameCopies s type 16 (if s.unitB then 0xF2 else 0xF1) s.epoch s.lastSeq s.netT segs
    let marks := (List.range 4).map fun p => Reg.TLM_ETH_TX p
    (s.lead = false → ∀ i ∈ [Instr.schedTx, .safeTx, .releaseTx, .confTx], exec i s = .next s) ∧
    (s.lead = true → s.isStn = false → s.netClash = false →
      (s.vuv.schedSent = true ∨ (s.vuv.outDone = false ∧ s.mode ∉ [Mode.stop, Mode.safeHalt]) → exec .schedTx s = .next s) ∧
      (s.vuv.schedSent = false → s.mode ∈ [Mode.stop, Mode.safeHalt] ∨ (s.vuv.outDone = true ∧ (s.mode = Mode.hold ∨ (s.mode = Mode.run ∧
        s.scn.cyc % max 1 (s.rf Reg.VUV_SCHED_DIV 7 0) = 0))) → ∃ t, exec .schedTx s = .next t ∧ sent t 3 [State.segBytes 0 0 s.schedData] ∧
        Only { s with wire := t.wire, vuv := { s.vuv with schedSent := true } } t (marks ++ [Reg.VUV_TX_A, Reg.VUV_TX_B])) ∧
      (s.mode ∈ [Mode.stop, Mode.safeHalt] ∨ (s.mode = Mode.hold ∧ s.rb Reg.SCN_HOLDCFG 0 = true ∧ s.vuv.outDone = true) →
        (s.vuv.safeSent = true → s.scn.safeOut = false → exec .safeTx s = .next s) ∧
        (s.vuv.safeSent = false ∨ s.scn.safeOut = true → ∃ t, exec .safeTx s = .next t ∧
          sent t 4 [] ∧ t.scn.safeOut = false ∧ t.vuv.safeSent = true ∧ t.mem = s.mem)) ∧
      (s.mode = Mode.run → s.vuv.outDone = false → ∀ i ∈ [Instr.safeTx, .releaseTx, .confTx], exec i s = .next s) ∧
      (∀ b, s.mode = Mode.run → s.vuv.outDone = true → 1 ≤ b → b ≤ 128 → (∀ i < 128, s.rb (Reg.VUV_SAFEREQ (i / 32)) (i % 32) = decide (i + 1 = b)) → ∃ t, exec .safeTx s = .next t ∧
        sent t 4 [State.segBytes b 0 []] ∧ ∀ j < 4, t.reg (Reg.VUV_SAFEREQ j) = 0) ∧
      (∀ b, s.mode = Mode.run → s.vuv.outDone = true → 1 ≤ b → b ≤ 128 → s.vuv.relDue = [b] → s.rb (Reg.VUV_REL ((b - 1) / 32)) ((b - 1) % 32) = true → ∃ t, exec .releaseTx s = .next t ∧
        sent t 5 [State.segBytes b 0 []] ∧ t.vuv.relDue = [] ∧ ((s.stnRx b).relLeft = none → Raised s t 72) ∧
        ((s.stnRx b).join = 3 → (t.stnRx b).join = if (s.rd (State.statKey b + 2)).toNat % 8 = 3 then 4 else 3) ∧
        let left := (s.stnRx b).relLeft.getD (max 1 (s.rf Reg.VUV_REL_REP 3 0)) - 1
        (t.stnRx b).relLeft = (if left = 0 then none else some left) ∧ (left = 0 → t.rb (Reg.VUV_REL ((b - 1) / 32)) ((b - 1) % 32) = false)) ∧
      (s.vuv.confQ = [] → exec .confTx s = .next s) ∧
      (∀ b l, s.mode ∈ [Mode.stop, Mode.safeHalt] ∨ (s.mode = Mode.run ∧ s.vuv.outDone = true) → s.vuv.confN < 4 → s.vuv.confQ = b :: l → ∃ t, exec .confTx s = .next t ∧
        sent t 7 [State.segBytes b 0 (s.confData b)] ∧ Raised s t 70 ∧ t.vuv.confQ = l ∧ t.vuv.confN = s.vuv.confN + 1 ∧
        ((s.stnRx b).join = 1 → (t.stnRx b).join = 2))) ∧
    (Writes s ag (Reg.VUV_REL m) → ∃ t, exec (.releaseRequest ag m v) s = .next t ∧ t.reg (Reg.VUV_REL m) = s.reg (Reg.VUV_REL m) ||| v ∧
      Did s t [Reg.VUV_REL m]) ∧
    (Writes s ag (Reg.VUV_SAFEREQ m) → ∃ t, exec (.safeRequest ag m v) s = .next t ∧ t.reg (Reg.VUV_SAFEREQ m) = s.reg (Reg.VUV_SAFEREQ m) ||| v ∧
      Did s t [Reg.VUV_SAFEREQ m])

/-- What a station accepts (10 R336–R341, R344, R348, R351): the lead table decides; an OUT segment is kept for its TIME, SCHED gives the schedule, SAFE and the
timeouts bring the safe state, RELEASE lets STATION-RUN begin at the next boundary, a CONF whose digest is right is taken. Choices of the model: log 35. -/
def Obligations.StationReception : Prop :=
  ∀ (net : Net) (f : List Byte) (s : State) (v : VFrame) (g : VSeg),
    let n := s.rf Reg.VUV_STN_ADDR 7 0
    let state := s.rf Reg.VUV_STN_STATE 2 0
    let led := v.src = s.rf Reg.VUV_STN_LEAD 7 0 ∧ v.src ≠ 0 ∧ v.epoch = s.rf Reg.VUV_STN_STATE 31 16
    let mine := v.segs = [g] ∧ g.addr = n ∧ 1 ≤ n ∧ n ≤ 128
    s.netOn net = true → s.netClash = false → s.portTakes (s.netPort net) f = true → (s.vuvPart f).map vuvCheck = some (.ok v) →
    s.isStn = true → s.mode ∈ [Mode.stnRun, Mode.stnSafe] →
    (v.type = 9 → s.rf Reg.VUV_STN_LEAD 7 0 = 0 → v.flags / 16 % 2 = 1 → ∃ t, exec (.takeRx net f) s = .next t ∧ t.rf Reg.VUV_STN_LEAD 7 0 = v.src ∧
      t.rf Reg.VUV_STN_STATE 31 16 = v.epoch ∧ t.mode = s.mode ∧ t.mem = s.mem) ∧
    (v.type = 9 → s.rf Reg.VUV_STN_LEAD 7 0 ≠ 0 → v.flags / 16 % 2 = 1 → 0 < (v.epoch + 65536 - s.rf Reg.VUV_STN_STATE 31 16) % 65536 → (v.epoch + 65536 - s.rf Reg.VUV_STN_STATE 31 16) % 65536 < 32768 →
      ∃ t, exec (.takeRx net f) s = .next t ∧ t.rf Reg.VUV_STN_LEAD 7 0 = v.src ∧ t.rf Reg.VUV_STN_STATE 31 16 = v.epoch ∧ Raised s t 85) ∧
    (s.rf Reg.VUV_STN_LEAD 7 0 ≠ 0 → 32768 ≤ (v.epoch + 65536 - s.rf Reg.VUV_STN_STATE 31 16) % 65536 →
      ∀ q ∈ [(Instr.takeRx net f, 9), (.outFrameRx net f, 1), (.schedRx net f, 3), (.safeFrameRx net f, 4), (.releaseRx net f, 5), (.confRx net f, 7)], v.type = q.2 →
        ∃ t, exec q.1 s = .next t ∧ Counted s t Reg.VUV_STN_EPOCHOLD ∧ t.mem = s.mem ∧ t.mode = s.mode ∧ t.stn = s.stn) ∧
    (led → v.type = 1 → mine → ∀ b, s.scn.lastB = some b → b % 65536 = v.seq → v.time = s.applyAt b % 2 ^ 64 →
      (s.stn.seg.map fun x => (x.epoch.toNat, x.seq.toNat)) ≠ some (v.epoch, v.seq) → ∃ t, exec (.outFrameRx net f) s = .next t ∧
        (∀ i < 128, t.rd (Key.outSeg + i) = g.data.getD i 0) ∧ (∀ k, k < Key.outSeg ∨ Key.outSeg + 128 ≤ k → t.rd k = s.rd k) ∧
        t.rf Reg.VUV_STN_STATE 15 8 = 0 ∧ t.stn.gotOut = true ∧
        (s.netT + max 6 (s.rf Reg.VUV_STN_PREP 7 0) * 1000 ≤ v.time → v.time < 2 ^ 63 →
          t.stn.seg = some ⟨BitVec.ofNat 16 v.epoch, BitVec.ofNat 16 v.seq, BitVec.ofNat 64 v.time, false, false⟩) ∧
        (v.time < s.netT + max 6 (s.rf Reg.VUV_STN_PREP 7 0) * 1000 → s.netT < 2 ^ 63 →
          t.stn.seg = some ⟨BitVec.ofNat 16 v.epoch, BitVec.ofNat 16 v.seq, BitVec.ofNat 64 v.time, true, false⟩ ∧
          Counted s t Reg.VUV_STN_LATE ∧ Raised s t 84)) ∧
    (led → v.type = 3 → v.segs = [g] → s.rb Reg.TIM_STAT 0 = false → state = 0 → ∃ t, exec (.schedRx net f) s = .next t ∧
      t.reg64 Reg.SCN_ORIGIN_LO = ofBE (sub g.data 0 8) ∧ (t.reg Reg.SCN_PERIOD).toNat = ofBE (sub g.data 8 4) % 2 ^ 20 ∧
      (t.reg Reg.SCN_SAMPLE_LEAD).toNat = ofBE (sub g.data 12 4) % 2 ^ 20 ∧ (t.reg Reg.SCN_APPLY_OFS).toNat = ofBE (sub g.data 16 4) % 2 ^ 20 ∧
      t.rf Reg.VUV_STN_STATE 2 0 = (if s.rb Reg.VUV_STN_STATE 3 then 2 else 1) ∧ Raised s t 80 ∧ t.scn.lastB = none ∧ t.mem = s.mem) ∧
    (led → v.type = 4 → 1 ≤ n → n ≤ 128 → (v.segs = [] ∨ mine) → ∃ t, exec (.safeFrameRx net f) s = .next t ∧ t.mode = Mode.stnSafe ∧
      t.stn.safeSeq = some (BitVec.ofNat 16 v.seq) ∧ (s.mode = Mode.stnRun → t.rf Reg.VUV_STN_LEAD 11 8 = 3 ∧ Raised s t 82)) ∧
    (led → v.type = 5 → mine → s.mode = Mode.stnSafe → s.rb Reg.VUV_STN_STATE 3 = true → state = 2 → s.stn.safeSeq ≠ some (BitVec.ofNat 16 v.seq) →
      (∀ x ∈ s.sys.trans, x.row ≠ 28) → ∃ t, exec (.releaseRx net f) s = .next t ∧ t.mode = Mode.stnSafe ∧
        t.sys.trans = s.sys.trans ++ [⟨28, Mode.stnRun, Mode.stnSafe, false, 0⟩] ∧ t.mem = s.mem) ∧
    (led → v.type = 7 → mine →
      let good := (crc64 (g.data.take 4 ++ g.data.drop 12)).toNat = ofBE (sub g.data 4 8)
      (¬ good → ∃ t, exec (.confRx net f) s = .next t ∧ Raised s t 87 ∧ t.mem = s.mem ∧ t.mode = s.mode) ∧
      (good → ∃ t, exec (.confRx net f) s = .next t ∧ t.mode = Mode.stnSafe ∧ Raised s t 81 ∧ t.rb Reg.VUV_STN_STATE 3 = true ∧
        (∀ i < 272, t.rd (Key.conf + i) = g.data.getD i 0) ∧ (s.mode = Mode.stnRun → t.rf Reg.VUV_STN_LEAD 11 8 = 7)))

/-- A station's own work (10 R325, R338, R339, R341, R342, R349, R350): the segment is applied at its TIME in STATION-RUN, samples go into IN frames, HELLO and
DIAG are sent when due, and silence of the controller brings the safe state and at last gives up lead, schedule and CONF. Choices of the model: log 35. -/
def Obligations.StationWork : Prop :=
  ∀ (s : State),
    let n := s.rf Reg.VUV_STN_ADDR 7 0
    let held := s.rb Reg.VUV_STN_STATE 3
    let state := s.rf Reg.VUV_STN_STATE 2 0
    let lim := (s.rd Key.conf).toNat
    let out := s.rf Reg.VUV_STN_OUTBUF 19 7 * 128
    let epoch := if s.rf Reg.VUV_STN_LEAD 7 0 = 0 then 0 else s.rf Reg.VUV_STN_STATE 31 16
    (s.stn.seg = none ∨ s.stn.seg.map (·.applied) = some true → exec .stationApply s = .next s) ∧
    (∀ g, s.stn.seg = some g → g.applied = false → s.netT < 2 ^ 63 → g.time.toNat < 2 ^ 63 →
      (s.netT < g.time.toNat → exec .stationApply s = .next s) ∧
      (g.time.toNat ≤ s.netT → g.late = true ∨ s.mode ≠ Mode.stnRun ∨ g.time.toNat + 16 ≤ s.netT →
        exec .stationApply s = .next { s with stn := { s.stn with seg := some { g with applied := true } } }) ∧
      (g.time.toNat ≤ s.netT → s.netT < g.time.toNat + 16 → g.late = false → s.mode = Mode.stnRun → s.vuvOverlap = false → Inv s → ∃ t, exec .stationApply s = .next t ∧ t.stn.released = true ∧ t.regs = s.regs ∧
        (∀ i < 128, t.rd (Key.appSeg + i) = s.rd (Key.outSeg + i)) ∧
        (∀ i < 124, t.rd (Key.sram + (out + 4 + i) % 0x100000) = s.rd (Key.outSeg + 4 + i)))) ∧
    (s.isStn = false ∨ s.mode ∉ [Mode.stnRun, Mode.stnSafe] →
      ∀ i ∈ [Instr.stationSample, .helloTx, .diagTx, .stationTimeout, .stnLeadLost], exec i s = .next s) ∧
    (s.isStn = true → s.mode ∈ [Mode.stnRun, Mode.stnSafe] → 1 ≤ n → n ≤ 128 → s.netClash = false →
      let safe := bn (s.mode == Mode.stnSafe)
      (∀ c, state ≠ 0 → held = true → s.sampleCycle = some c →
        let at' := (s.boundaryAt c - s.rf Reg.SCN_SAMPLE_LEAD 19 0 * 1000) % 2 ^ 64
        let data := leBytes 4 (s.reg Reg.RND_INSTATE).toNat ++ s.rdBytes (Key.sram + s.rf Reg.VUV_STN_INBUF 19 7 * 128 + 4) 124
        ∃ t, exec .stationSample s = .next t ∧ (∀ i < 128, t.rd (Key.inSeg + i) = data.getD i 0) ∧ t.stn.inSeq = some (BitVec.ofNat 16 c) ∧
          t.wire = s.wire ++ frameCopies s 2 (2 * safe) n epoch (c % 65536) at' [State.segBytes n (safe + 2) data]) ∧
      (state = 1 → held = false → s.stn.hello = 0 → ∃ t, exec .helloTx s = .next t ∧ t.stn.hello = 16 ∧ t.wire.length = s.wire.length + bn (s.netOn .a) + bn (s.netOn .b)) ∧
      (held = true ∨ state ≠ 1 → exec .helloTx s = .next s) ∧
      (held = true → ofBE (s.rdBytes (Key.conf + 2) 2) ≠ 0 → ofBE (s.rdBytes (Key.conf + 2) 2) ≤ s.stn.diag → ∃ t, exec .diagTx s = .next t ∧ t.stn.diag = 0 ∧
        t.wire = s.wire ++ frameCopies s 8 0 n epoch (if state = 0 then 0 else s.lastSeq) s.netT [State.segBytes n 0 s.diagData]) ∧
      (held = true → s.mode = Mode.stnRun → lim ≤ s.rf Reg.VUV_STN_STATE 15 8 → ∃ t, exec .stationTimeout s = .next t ∧ t.mode = Mode.stnSafe ∧
        Counted s t Reg.VUV_STN_TIMEOUTS ∧ t.rf Reg.VUV_STN_LEAD 11 8 = 2) ∧
      (s.rf Reg.VUV_STN_STATE 15 8 < lim → exec .stationTimeout s = .next s) ∧
      (s.rf Reg.VUV_STN_LEAD 7 0 ≠ 0 → (if held then 4 * lim else 40) ≤ s.stn.noFrame → ∃ t, exec .stnLeadLost s = .next t ∧ t.mode = Mode.stnSafe ∧
        t.rf Reg.VUV_STN_LEAD 7 0 = 0 ∧ t.rb Reg.VUV_STN_STATE 3 = false ∧ t.rf Reg.VUV_STN_STATE 2 0 = 0 ∧ Raised s t 86))

/-- The twin link (11 R356–R360, R363, R377): a heartbeat leaves with its layout and CRC, four good ones in a row bring the link up, a partner's claim with the
newer epoch takes the lead in RUN to a standby, a record with a bad CRC is counted, the loss of the link and TAKE_IN act on a standby. Choices of the model:
log 36. -/
def Obligations.TwinLink : Prop :=
  ∀ (r : List Byte) (ns : Nat) (s : State),
    let recs := [Instr.hbRx r, .dtimeRx r, .dlineRx r, .cfgwRx r, .commitRx r, .digestRx r, .switchReq r, .switchAck r, .cmdReset r, .cmdHandover r, .cmdDiverge r,
      .cmdHold r, .cmdResume r, .cmdGrfDigest r, .cmdGrfGo r, .flineRx r, .fmarkRx r]
    (s.twnOn = false → ∀ i ∈ [Instr.hbTx, .hbMiss] ++ recs, exec i s = .next s) ∧
    (s.twnOn = true →
      (∃ t w, exec .hbTx s = .next t ∧ t.wire = s.wire ++ [.twin w] ∧ { t with wire := s.wire } = s ∧
        twnParse w = some ⟨1, 0, s.scn.cyc % 65536, 0, leBytes 1 s.mode ++ leBytes 1 (bn s.lead + 2 * bn s.synced + 16) ++ leBytes 2 (s.rf Reg.TWN_STAT 31 16) ++
          leBytes 6 s.scn.cyc ++ leBytes 1 (bn (s.rb Reg.SYS_STRAPS 0)) ++ leBytes 1 (s.rf Reg.GRF_STAT 2 0) ++ leBytes 4 0⟩) ∧
      (∃ t, exec .hbMiss s = .next t ∧ Counted s t Reg.TWN_HB_MISS ∧ Only { s with twn := { s.twn with hbGood := 0 } } t [Reg.TWN_HB_MISS]) ∧
      (twnParse r = none → s.twn.linkErr = false → ∀ i ∈ recs, ∃ t, exec i s = .next t ∧ Counted s t Reg.TWN_REC_CRC ∧ Raised s t 111 ∧
        Only { s with twn := { s.twn with linkErr := true } } t [Reg.TWN_REC_CRC, rawReg 111]) ∧
      (∀ p, twnParse r = some p → p.type = 1 → byteAt p.data 1 / 16 = 1 →
        let e := ofLE (sub p.data 2 2)
        ∃ t, exec (.hbRx r) s = .next t ∧ t.twn.hbGood = min 4 (s.twn.hbGood + 1) ∧ t.mem = s.mem ∧ t.mode = s.mode ∧
          (t.reg Reg.TWN_PARTNER).toNat = e + 65536 * ofLE (sub p.data 4 2) ∧ t.rf Reg.TWN_STAT 7 4 = byteAt p.data 0 % 16 ∧
          t.rb Reg.TWN_STAT 2 = (byteAt p.data 1 % 2 == 1) ∧ (s.twn.hbGood < 3 → t.rb Reg.TWN_STAT 0 = s.rb Reg.TWN_STAT 0) ∧
          (3 ≤ s.twn.hbGood → t.rb Reg.TWN_STAT 0 = true ∧ (s.rb Reg.TWN_STAT 0 = false → Raised s t 96)) ∧
          (byteAt p.data 1 % 2 = 1 → s.lead = false → t.rf Reg.TWN_STAT 31 16 = e) ∧
          (byteAt p.data 1 % 2 = 1 → s.lead = true → s.mode = Mode.run → (∀ x ∈ s.sys.trans, x.row ≠ 26) → 0 < (e + 65536 - s.rf Reg.TWN_STAT 31 16) % 65536 → (e + 65536 - s.rf Reg.TWN_STAT 31 16) % 65536 < 32768 →
            Raised s t 101 ∧ Counted s t Reg.TWN_CLAIM_LOST ∧ t.sys.trans = s.sys.trans ++ [⟨26, Mode.syncing, Mode.run, false, 0⟩]))) ∧
    (s.rb Reg.TWN_STAT 0 = false → exec .twinLinkLost s = .next s) ∧
    (s.rb Reg.TWN_STAT 0 = true → ∃ t, exec .twinLinkLost s = .next t ∧ t.rb Reg.TWN_STAT 0 = false ∧ Raised s t 97 ∧ t.rf Reg.TWN_STAT 10 8 = 0 ∧ t.mem = s.mem ∧
      t.mode = if s.mode = Mode.tracking ∧ s.twn.outSeen then Mode.syncing else if s.mode = Mode.hold ∧ s.stby then Mode.syncing else s.mode) ∧
    (ns < 100 ∨ s.rb (Reg.PAGE_CTRL 0x0E) 0 = false ∧ 500 ≤ ns → exec (.takeInPulse ns) s = .next s) ∧
    (500 ≤ ns → s.rb (Reg.PAGE_CTRL 0x0E) 0 = true → ∃ t, exec (.takeInPulse ns) s = .next t ∧ Counted s t Reg.TWN_TAKEIN_CNT ∧
      (s.mode = Mode.tracking → t.twn.takeIn = true ∧ t.mode = s.mode) ∧ (s.mode = Mode.syncing → t.mode = Mode.stop ∧ Raised s t 110) ∧
      (s.mode ∉ [Mode.tracking, Mode.syncing] → Raised s t 109 ∧ t.mode = s.mode))

/-- Deltas, digests and the full copy (11 R365, R368, R372–R374, R383, R385): a standby stages what comes between DTIME and COMMIT and applies it as its cycle's
freeze, drops out when the counts differ or the delta is late; digests of one cycle are compared; a joining twin writes the lines of the full copy. Choices
of the model: log 36. -/
def Obligations.TwinDelta : Prop :=
  ∀ (r : List Byte) (p : TRec) (s : State), s.twnOn = true → twnParse r = some p →
    let d := s.twn.delta.getD ⟨0, 0, 0, false, false, [], [], 0, true⟩
    let space := p.addr / 2 ^ 28
    (s.mode ≠ Mode.tracking → s.mode ≠ Mode.hold → ∀ i ∈ [Instr.dtimeRx r, .dlineRx r, .cfgwRx r, .commitRx r, .deltaLate, .pubwaitExpiry], exec i s = .next s) ∧
    (s.mode ≠ Mode.syncing → ∀ i ∈ [Instr.flineRx r, .fmarkRx r], exec i s = .next s) ∧
    (s.mode = Mode.tracking →
      (p.type = 2 → ∃ t, exec (.dtimeRx r) s = .next t ∧ { t with twn := s.twn } = s ∧ t.twn.delta = some ⟨p.seq, ofLE (sub p.data 0 6), ofLE (sub p.data 6 6),
        byteAt p.data 12 % 2 == 1, byteAt p.data 12 / 2 % 2 == 1, [], [], 0, false⟩) ∧
      (p.type = 3 → space ∈ [0, 2, 4] → State.pantryLines d < 1024 → ∃ t, exec (.dlineRx r) s = .next t ∧ { t with twn := s.twn } = s ∧
        t.twn.delta = some { d with lines := d.lines ++ [(p.addr, p.data)], count := d.count + 1 }) ∧
      (p.type = 4 → d.cfgw.length < 256 → ∃ t, exec (.cfgwRx r) s = .next t ∧ { t with twn := s.twn } = s ∧
        t.twn.delta = some { d with cfgw := d.cfgw ++ [(byteAt p.data 0 * 65536 + ofLE (sub p.data 2 2), BitVec.ofNat 32 (ofLE (sub p.data 4 4)))], count := d.count + 1 }) ∧
      (p.type = 5 → p.addr ≠ d.count ∨ (d.grf = false ∧ p.seq ≠ d.seq) → ∃ t, exec (.commitRx r) s = .next t ∧ t.mode = Mode.syncing ∧ Raised s t 98 ∧
        t.rf Reg.TWN_STAT 15 12 = 5 ∧ t.twn.delta = none ∧ t.mem = s.mem) ∧
      (p.type = 5 → p.addr = d.count → p.seq = d.seq → d.grf = false → s.twn.resume = false → ∃ t, exec (.commitRx r) s = .next t ∧
        t.scn.cyc = d.cyc % 2 ^ 48 ∧ t.scn.cts = d.cts % 2 ^ 48 ∧ t.twn.committed = some d.cyc ∧ t.twn.delta = none ∧ Raised s t 16 ∧
        ∀ a bs, d.lines = [(a, bs)] → a / 2 ^ 28 = 4 → a % 2 ^ 28 < 65536 → bs.length = 64 → d.cfgw = [] → d.swap = false → s.ecc = [] →
          ∀ j < 64, t.rd (Key.pantry + 64 * (a % 2 ^ 28) + j) = bs.getD j 0) ∧
      (s.twn.committed ≠ s.scn.lastB.map (· % 2 ^ 48) → s.rb Reg.TWN_STAT 0 = true → ∃ t, exec .deltaLate s = .next t ∧ t.mode = Mode.syncing ∧ Raised s t 98 ∧
        t.rf Reg.TWN_STAT 15 12 = 4) ∧
      (s.twn.committed = s.scn.lastB.map (· % 2 ^ 48) ∨ s.rb Reg.TWN_STAT 0 = false → exec .deltaLate s = .next s) ∧
      (s.twn.sent = true ∨ s.twn.part.isSome ∨ s.scn.invalid = true → exec .pubwaitExpiry s = .next s) ∧
      (s.twn.sent = false → s.twn.part = none → s.scn.invalid = false → ∃ t, exec .pubwaitExpiry s = .next t ∧ Counted s t Reg.TWN_UNVERIFIED ∧ t.twn.free = true ∧
        t.twn.sent = s.twn.own.isSome)) ∧
    (∀ o, p.type = 6 → p.flags = 0 → s.twn.own = some o → o.invalid = false → o.cyc % 65536 = p.seq % 65536 → (s.mode = Mode.tracking ∨ (s.mode = Mode.run ∧ s.lead = true)) →
      ∃ t, exec (.digestRx r) s = .next t ∧ t.reg64 Reg.TWN_DIG_OWN_LO = o.val.toNat ∧ t.reg64 Reg.TWN_DIG_PART_LO = ofLE p.data ∧ t.twn.own = none ∧ t.twn.part = none ∧
        (o.val.toNat = ofLE p.data → t.twn.matched = true ∧ t.mode = s.mode) ∧
        (o.val.toNat ≠ ofLE p.data → t.twn.matched = false ∧ Raised s t 98 ∧ t.rf Reg.TWN_STAT 15 12 = 1 ∧
          t.mode = if s.mode = Mode.tracking then Mode.syncing else s.mode)) ∧
    (s.mode = Mode.syncing →
      (p.type = 7 → space = 4 → p.addr % 2 ^ 28 < 65536 → ∃ t, exec (.flineRx r) s = .next t ∧
        (∀ j < 64, t.rd (Key.pantry + 64 * (p.addr % 2 ^ 28) + j) = p.data.getD j 0) ∧
        (∀ k, k < Key.pantry + 64 * (p.addr % 2 ^ 28) ∨ Key.pantry + 64 * (p.addr % 2 ^ 28) + 64 ≤ k → t.rd k = s.rd k) ∧
        (s.rf Reg.TWN_STAT 10 8 = 0 → t.rf Reg.TWN_STAT 10 8 = 1 ∧ Raised s t 102)) ∧
      (p.type = 8 → byteAt p.data 0 ≠ 2 → ∃ t, exec (.fmarkRx r) s = .next t ∧ t.rf Reg.TWN_STAT 10 8 = 2 ∧ (∀ k, k ≠ Reg.TWN_STAT → t.reg k = s.reg k) ∧
        { t with regs := s.regs } = s) ∧
      (p.type = 8 → byteAt p.data 0 = 2 → (∀ x ∈ s.sys.trans, x.row ≠ 20) → ∃ t, exec (.fmarkRx r) s = .next t ∧ t.reg64 Reg.TMC_LASTTS_LO = ofLE (sub p.data 8 6) ∧
        t.sys.trans = s.sys.trans ++ [⟨20, Mode.tracking, Mode.syncing, false, 0⟩] ∧ t.mem = s.mem))

/-- Commands between the twins (11 R359, R374, R375, R377, R380, R382, R386; 03 R97): a switch-over is asked for and confirmed, a reset is honoured by a standby
alone, HANDOVER, DIVERGE, HOLD and RESUME reach the standby, and RESYNC lets the full copy start again. Choices of the model: log 36. -/
def Obligations.TwinCommands : Prop :=
  ∀ (ag : Agent) (v : Word) (s : State),
    let cmd := fun (t : State) (code a64 : Nat) => ∃ w, t.wire = s.wire ++ [.twin w] ∧
      twnParse w = some ⟨9, 0, s.scn.cyc % 65536, 0, leBytes 1 code ++ leBytes 3 0 ++ leBytes 8 a64 ++ leBytes 4 0⟩
    (∀ (r : List Byte) (p : TRec), s.twnOn = true → twnParse r = some p → p.type = 9 →
      let a := byteAt p.data 1
      let b := ofLE (sub p.data 4 8)
      (byteAt p.data 0 = 1 → (s.mode ≠ Mode.tracking ∨ s.twn.matched = false → exec (.switchReq r) s = .next s) ∧
        (s.mode = Mode.tracking → s.twn.matched = true → s.rb Reg.TWN_STAT 0 = true → ∃ t, exec (.switchReq r) s = .next t ∧
          t.twn.sw = some ⟨b % 2 ^ 48, true, false⟩ ∧ cmd t 2 b ∧ t.regs = s.regs)) ∧
      (byteAt p.data 0 = 2 → (s.twn.sw = none → exec (.switchAck r) s = .next s) ∧
        (∀ w, s.twn.sw = some w → w.mine = true → w.acked = false → w.b % 2 ^ 48 = b % 2 ^ 48 → s.mode = Mode.run →
          (s.boundaryAt w.b ≤ s.netT → exec (.switchAck r) s = .next s) ∧
          (s.netT < s.boundaryAt w.b → ∃ t, exec (.switchAck r) s = .next t ∧ t.twn.sw = some { w with acked := true } ∧
            t.sys.trans = s.sys.trans ++ [⟨25, Mode.tracking, Mode.run, false, 0⟩] ∧ t.regs = s.regs ∧ t.mem = s.mem))) ∧
      (byteAt p.data 0 = 3 → (s.mode ∈ [Mode.syncing, Mode.tracking] → ∃ t, exec (.cmdReset r) s = .next t ∧ t.sys.inReset = true ∧ t.rb Reg.SYS_RESETCAUSE 4 = true) ∧
        (s.mode ∉ [Mode.syncing, Mode.tracking] → ∃ t, exec (.cmdReset r) s = .next t ∧ Raised s t 108 ∧ Only s t [rawReg 108])) ∧
      (byteAt p.data 0 = 4 → (s.mode = Mode.tracking → exec (.cmdHandover r) s = .next { s with twn := { s.twn with handover := true } }) ∧
        (s.mode ≠ Mode.tracking → exec (.cmdHandover r) s = .next s)) ∧
      (byteAt p.data 0 = 5 → (s.twn.dropped = some (b % 2 ^ 48) → exec (.cmdDiverge r) s = .next s) ∧
        (s.twn.dropped ≠ some (b % 2 ^ 48) → s.mode = Mode.tracking ∨ (s.mode = Mode.run ∧ s.lead = true) → ∃ t, exec (.cmdDiverge r) s = .next t ∧ Raised s t 98 ∧
          t.rf Reg.TWN_STAT 15 12 = a % 16 ∧ t.mode = (if s.mode = Mode.tracking then Mode.syncing else s.mode) ∧ t.mem = s.mem)) ∧
      (byteAt p.data 0 = 6 → (s.mode = Mode.tracking → ∃ t, exec (.cmdHold r) s = .next t ∧ t.mode = Mode.hold ∧ t.stby = true ∧ Raised s t 0) ∧
        (s.mode ≠ Mode.tracking → exec (.cmdHold r) s = .next s)) ∧
      (byteAt p.data 0 = 7 → (s.mode = Mode.hold → s.stby = true → exec (.cmdResume r) s = .next { s with twn := { s.twn with resume := true } }) ∧
        (s.mode ≠ Mode.hold ∨ s.stby = false → exec (.cmdResume r) s = .next s))) ∧
    (Writes s ag Reg.TWN_PRESET →
      (v.toNat % 256 ≠ 0x3C → ∃ t, exec (.twnPreset ag v) s = .next t ∧ t.rb (Reg.PAGE_STAT 0x0E) 3 = true ∧ Did s t [Reg.PAGE_STAT 0x0E]) ∧
      (v.toNat % 256 = 0x3C → s.twnOn = true → s.rb Reg.TWN_STAT 0 = true → ∃ t, exec (.twnPreset ag v) s = .next t ∧ cmd t 3 0 ∧ Did { s with wire := t.wire } t [])) ∧
    (Writes s ag Reg.TWN_CMD →
      (s.lead = false ∨ s.mode ≠ Mode.run ∨ s.partnerTracking = false ∨ s.rf Reg.GRF_STAT 2 0 ≠ 0 → ∃ t, exec (.twnSwitch ag) s = .next t ∧ t.rb (Reg.PAGE_STAT 0x0E) 3 = true ∧
        Raised s t 107 ∧ Did s t [Reg.PAGE_STAT 0x0E, rawReg 107]) ∧
      (s.lead = true → s.mode = Mode.run → s.partnerTracking = true → s.rf Reg.GRF_STAT 2 0 = 0 → ∃ t b, exec (.twnSwitch ag) s = .next t ∧
        t.reg Reg.TWN_SWSTAT = 0x101 ∧ t.twn.sw = some ⟨b, false, true⟩ ∧ cmd t 1 b ∧
        ∀ c, s.cycleAt (s.netT + 100000) = some c → b = c ∨ b = c + 1) ∧
      (s.rf Reg.TWN_STAT 10 8 ≠ 0 → s.partnerTracking = false → s.mode ∉ [Mode.tracking, Mode.hold] → ∃ t, exec (.twnResync ag) s = .next t ∧ t.rf Reg.TWN_STAT 10 8 = 0 ∧
        Raised s t 104 ∧ Did s t [Reg.TWN_STAT, rawReg 104]) ∧
      (s.mode = Mode.tracking → ∃ t, exec (.twnResync ag) s = .next t ∧ t.mode = Mode.syncing ∧ Raised s t 98 ∧ t.rf Reg.TWN_STAT 15 12 = 10))

/-- The time base (12 R395, R397, R398, R400): SET and STEP move network time and are counted, a load takes the calendar's second and unlocks, measurements
within the threshold lock, one beyond the other threshold unlocks. Choices of the model: log 37. -/
def Obligations.TimeBase : Prop :=
  ∀ (ag : Agent) (v : Word) (s : State),
    let whole := 2 ^ 48 * 1000000000 * 2 ^ 32
    let size := v.toInt.natAbs
    let thr := s.rf Reg.TIM_LOCKTHR 15 0
    let run := if size ≤ thr then min 255 (s.rf Reg.TIM_STAT 15 8 + 1) else 0
    let step := (BitVec.ofNat 64 (s.reg64 Reg.TIM_STEP_LO)).toInt
    let moved := fun (t : State) => t.rb Reg.TIM_STAT 1 = false ∧ Raised s t 114 ∧ Counted s t Reg.TIM_STEP_CNT ∧
      Did { s with tim := t.tim, bgd := { s.bgd with voided := true } } t [Reg.TIM_STAT, Reg.TIM_STEP_CNT, rawReg 114]
    (Writes s ag Reg.TIM_CMD →
      (s.rf Reg.TIM_SET_NS 29 0 < 1000000000 → ∃ t, exec (.timSet ag) s = .next t ∧ moved t ∧
        t.tim = ⟨(s.reg Reg.TIM_SET_SECLO).toNat + 2 ^ 32 * s.rf Reg.TIM_SET_SECHI 15 0, s.rf Reg.TIM_SET_NS 29 0, 0, s.tim.loadPend⟩) ∧
      (∃ t, exec (.timStep ag) s = .next t ∧ moved t ∧ (t.timFine : Int) = (s.timFine + step * 2 ^ 32) % whole ∧ t.tim.ns < 1000000000 ∧
        t.tim.loadPend = s.tim.loadPend) ∧
      (∃ t, exec (.loadrtc ag) s = .next t ∧ Did { s with tim := ⟨0, 0, 0, true⟩ } t [])) ∧
    (s.tim.loadPend = false ∨ s.domOn 9 = false → exec .rtcLoad s = .next s) ∧
    (s.tim.loadPend = true → s.domOn 9 = true → (∀ f ∈ rtcFields (s.reg Reg.RTC_TIME) (s.reg Reg.RTC_CAL), bcdOk f = true) → ∃ t, exec .rtcLoad s = .next t ∧
      (t.tim.sec : Int) = (calSeconds s.cal + (s.reg Reg.TIM_RTCOFS).toInt) % 2 ^ 48 ∧ t.tim.ns ≤ 31000 ∧ t.tim.frac = 0 ∧ t.tim.loadPend = false ∧
      t.rb Reg.TIM_STAT 0 = true ∧ t.rb Reg.TIM_STAT 1 = true ∧ Only { s with tim := t.tim, bgd := t.bgd } t [Reg.TIM_STAT, Reg.TIM_UNLOCK_CNT, rawReg 113]) ∧
    (Writes s ag Reg.TIM_OFSMEAS → ∃ t, exec (.offsetMeasurement ag v) s = .next t ∧ t.reg Reg.TIM_OFS_LAST = v ∧
      Did { s with bgd := t.bgd } t [Reg.TIM_OFS_LAST, Reg.TIM_STAT, Reg.TIM_UNLOCK_CNT, rawReg 112] ∧
      (s.rf Reg.TIM_UNLOCKTHR 15 0 < size → t.rb Reg.TIM_STAT 0 = true ∧ (s.rb Reg.TIM_STAT 0 = false → Counted s t Reg.TIM_UNLOCK_CNT ∧ Raised s t 113 ∧
        t.rf Reg.TIM_STAT 15 8 = 0)) ∧
      (size ≤ s.rf Reg.TIM_UNLOCKTHR 15 0 → t.rf Reg.TIM_STAT 15 8 = run ∧
        t.rb Reg.TIM_STAT 0 = (s.rb Reg.TIM_STAT 0 && !(decide (size ≤ thr) && decide (max 1 (s.rf Reg.TIM_LOCKCNT 7 0) ≤ run))) ∧
        (s.rb Reg.TIM_STAT 0 = true → t.rb Reg.TIM_STAT 0 = false → Raised s t 112))) ∧
    (s.rb Reg.TIM_STAT 0 = true ∨ s.domOn 9 = false → exec .holdoverExpiry s = .next s) ∧
    (s.rb Reg.TIM_STAT 0 = false → s.domOn 9 = true → ∃ t, exec .holdoverExpiry s = .next t ∧ t.rb Reg.TIM_STAT 0 = true ∧ Counted s t Reg.TIM_UNLOCK_CNT ∧ Raised s t 113 ∧
      Only { s with bgd := { s.bgd with voided := true } } t [Reg.TIM_STAT, Reg.TIM_UNLOCK_CNT, rawReg 113])

/-- Capture inputs and pulse outputs (12 R411–R418): an edge that is enabled enters the FIFO with network time, a read takes the oldest entry; an arm takes
START, C and the pending P and W, the level follows network time, an unarming waits for the end of a pulse, a finite train ends. Choices of the model: log
11 and 37. -/
def Obligations.CaptureAndPulses : Prop :=
  ∀ (ag : Agent) (n : Fin 4) (m : Fin 8) (rising : Bool) (v : Word) (s : State),
    let on := s.domOn 9 = true ∧ s.rb (Reg.TCI_CFG n) (if rising then 0 else 1) = true ∧ Sparse.get (fun _ => 0) s.tciNext n ≤ s.now
    let q := s.tciFifo n
    let x := s.tpoOf m
    let now := s.tim.sec * 1000000000 + s.tim.ns
    let high := fun (x : Tpo) => x.start ≤ now ∧
      (let p := if x.p = 0 then 2 ^ 32 else x.p
       let w := if 1 ≤ x.w ∧ x.w ≤ 3 then 4 else x.w
       let k := if x.c = 0 then (now - x.start) / p else min ((now - x.start) / p) (x.c - 1)
       now - x.start < k * p + w)
    let ball := fun (t : State) => t.rb (Reg.TPO_STAT m) 1 = xor (t.tpoOf m).level (t.tpoOf m).inv ∧
      t.wire = s.wire ++ (if t.rb (Reg.TPO_STAT m) 1 = s.rb (Reg.TPO_STAT m) 1 then [] else [.tpo m (t.rb (Reg.TPO_STAT m) 1)])
    let runs := s.rb (Reg.PAGE_CTRL 0x10) 0 = true ∧ s.domOn 9 = true
    (¬ on → exec (.tciEdge n rising) s = .next s) ∧
    (on → ∃ t, exec (.tciEdge n rising) s = .next t ∧ Raised s t (116 + n) ∧ Sparse.get (fun _ => 0) t.tciNext n = s.now + 64 ∧
      (s.rb (Reg.TCI_CFG n) 2 = true → q.length < 4 → t.tciFifo n = q ++ [⟨s.tim.sec, s.tim.ns, rising⟩] ∧
        t.rf Reg.TCI_STAT (4 * n + 6) (4 * n + 4) = q.length + 1 ∧ Only { s with tci := t.tci, tciNext := t.tciNext } t [Reg.TCI_STAT, rawReg (116 + n)]) ∧
      (s.rb (Reg.TCI_CFG n) 2 = true → 4 ≤ q.length → t.rb Reg.TCI_STAT n = true ∧ Counted s t (Reg.TCI_DROP n) ∧
        Only { s with tciNext := t.tciNext } t [Reg.TCI_STAT, Reg.TCI_DROP n, rawReg (116 + n)]) ∧
      (s.rb (Reg.TCI_CFG n) 2 = false → Only { s with tciNext := t.tciNext } t [rawReg (116 + n)])) ∧
    (Reads s ag (Reg.TCI_TS n) →
      (q = [] → ∃ t, exec (.tciTsRead ag n) s = .next t ∧ t.rdata = 0 ∧ t.tci = s.tci ∧ t.regs = s.regs) ∧
      (∀ e l, q = e :: l → ∃ t, exec (.tciTsRead ag n) s = .next t ∧ t.tciFifo n = l ∧
        t.rdata = (BitVec.ofNat 32 (e.ns + 2 ^ 30 * bn e.rising + 2 ^ 31)).setWidth 64 ∧ ∀ k, k ≠ Reg.TCI_STAT → t.reg k = s.reg k)) ∧
    (Writes s ag (Reg.TPO_CTRL m) →
      (s.rf (Reg.TPO_START_NS m) 29 0 < 1000000000 → x.writers.length ≤ 1 → ∃ t, exec (.tpoArm ag m v) s = .next t ∧ ball t ∧
        (let y := t.tpoOf m
         y.armed = true ∧ y.start = ((s.reg (Reg.TPO_START_SECLO m)).toNat + 2 ^ 32 * s.rf (Reg.TPO_START_SECHI m) 15 0) * 1000000000 + s.rf (Reg.TPO_START_NS m) 29 0 ∧
         y.p = (s.reg (Reg.TPO_PERIOD m)).toNat ∧ y.w = (s.reg (Reg.TPO_WIDTH m)).toNat ∧ y.c = (s.reg (Reg.TPO_COUNT m)).toNat ∧
         y.inv = v.toNat.testBit 1 ∧ y.each = v.toNat.testBit 2 ∧ y.level = decide (high y)) ∧
        t.rb (Reg.TPO_STAT m) 0 = true ∧ t.rb (Reg.TPO_STAT m) 2 = false ∧ (t.reg (Reg.TPO_PULSES m)).toNat ≤ 1) ∧
      (∃ t, exec (.tpoUnarm ag m v) s = .next t ∧ ball t ∧ (x.armed = true → x.level = true → t.tpoOf m = { x with ending := true }) ∧
        (x.armed = false ∨ x.level = false → t.tpoOf m = { x with armed := false, inv := v.toNat.testBit 1 } ∧ t.rb (Reg.TPO_STAT m) 0 = false))) ∧
    (x.armed = false ∨ ¬ runs → exec (.tpoEdge m) s = .next s ∧ exec (.tpoDone m) s = .next s) ∧
    (x.armed = true → runs →
      (x.ending = false ∨ high x → ∃ t, exec (.tpoEdge m) s = .next t ∧ t.tpoOf m = { x with level := decide (high x) } ∧ ball t ∧
        (t.rb (Reg.TPO_STAT m) 1 = true → s.rb (Reg.TPO_STAT m) 1 = false → t.reg (Reg.TPO_PULSES m) = s.reg (Reg.TPO_PULSES m) + 1)) ∧
      (x.ending = true → ¬ high x → ∃ t, exec (.tpoEdge m) s = .next t ∧ (t.tpoOf m).armed = false ∧ (t.tpoOf m).level = false ∧ ball t) ∧
      (x.c ≠ 0 → x.start + (x.c - 1) * (if x.p = 0 then 2 ^ 32 else x.p) + (if 1 ≤ x.w ∧ x.w ≤ 3 then 4 else x.w) ≤ now → ∃ t, exec (.tpoDone m) s = .next t ∧
        (t.tpoOf m).armed = false ∧ t.rb (Reg.TPO_STAT m) 2 = true ∧ Raised s t (120 + m) ∧ ball t) ∧
      (x.c = 0 ∨ now < x.start + (x.c - 1) * (if x.p = 0 then 2 ^ 32 else x.p) + (if 1 ≤ x.w ∧ x.w ≤ 3 then 4 else x.w) → exec (.tpoDone m) s = .next s))

/-- The Ethernet ports (12 R402, R404, R407–R410, R426, R427, R429): a frame leaves from its ring entry, with the time in it or kept for it where the entry
asks, a received frame enters the ring when the port takes it, MDIO runs its cycle, the link shows in ETH_STAT. Choices of the model: log 38. -/
def Obligations.EthernetPorts : Prop :=
  ∀ (ag : Agent) (n : Fin 4) (v : Word) (data : Half) (f : List Byte) (ok up : Bool) (speed : BitVec 2) (s : State),
    let on := s.rb (Reg.PAGE_CTRL (0x1E + n)) 0 = true ∧ s.rb (Reg.PAGE_STAT (0x1E + n)) 0 = true ∧ s.domOn 9 = true
    let cons := s.rf (Reg.ETH_TXR_CONS n) 7 0
    let prod := s.rf (Reg.ETH_TXR_PROD n) 7 0
    let len := s.rf (Reg.ETH_TXR_LEN n) 8 0
    let e := s.rf (Reg.ETH_TXR_BASE n) 19 4 * 16 + 16 * cons
    let ent := s.sramRd e 16
    let w := ofLE (sub ent 8 4)
    let body := s.sramRd (ofLE (sub ent 0 4) % 2 ^ 20) (ofLE (sub ent 4 2) % 2 ^ 14)
    let out := body ++ List.replicate (60 - body.length) 0
    let at' := s.stampAt (s.reg (Reg.ETH_TXLAT n)).toInt
    let q := s.txQueue n
    let clean := fun (e : List Byte) => s.ethClash n = false ∧ State.entryResv e = false
    let mdio := (v ||| 0x800) &&& 0xFFFF07FF
    (¬ on → exec (.ethTxFrame n) s = .next s ∧ exec (.ethRxFrame n f ok) s = .next s) ∧
    (cons = prod → exec (.ethTxFrame n) s = .next s) ∧
    (on → cons ≠ prod → prod < len → ∃ t, exec (.ethTxFrame n) s = .next t ∧ t.rf (Reg.ETH_TXR_CONS n) 7 0 = (if len ≤ cons + 1 then 0 else (cons + 1) % 256) ∧
      Counted s t (Reg.TLM_ETH_TX n) ∧ t.wire.length = s.wire.length + 1 ∧ t.wire.take s.wire.length = s.wire ∧
      (clean ent → w.testBit 17 = false → t.wire = s.wire ++ [.eth n out]) ∧
      (clean ent → w.testBit 17 = true → w.testBit 18 = false → ∀ o, o = w / 2 ^ 24 → byteAt out o % 16 = 0 → o + 44 ≤ out.length → ∃ r, t.wire = s.wire ++ [.eth n r] ∧
        r.length = out.length ∧ ofBE (sub r (o + 34) 6) = at'.sec ∧ ofBE (sub r (o + 40) 4) = at'.ns ∧
        ofBE (sub r (o + 8) 8) = (ofBE (sub out (o + 8) 8) + at'.frac) % 2 ^ 64 ∧
        ∀ i, i < o + 8 ∨ o + 16 ≤ i ∧ i < o + 34 ∨ o + 44 ≤ i → byteAt r i = byteAt out i) ∧
      (w.testBit 16 = false → t.txts = s.txts) ∧
      (w.testBit 16 = true → q.length < 8 → t.txQueue n = q ++ [⟨BitVec.ofNat 16 w, at'.sec, at'.ns, at'.frac⟩] ∧ Raised s t (224 + 4 * n) ∧
        t.reg (Reg.ETH_TXTS_CNT n) = s.reg (Reg.ETH_TXTS_CNT n) + 1) ∧
      (w.testBit 16 = true → 8 ≤ q.length → t.txts = s.txts ∧ Raised s t (225 + 4 * n) ∧ t.reg (Reg.ETH_TXTS_DROP n) = s.reg (Reg.ETH_TXTS_DROP n) + 1)) ∧
    (Reads s ag (Reg.ETH_TXTS n) →
      (q = [] → ∃ t, exec (.txtsRead ag n) s = .next t ∧ t.rdata = 0 ∧ t.txts = s.txts ∧ t.regs = s.regs) ∧
      (∀ y l, q = y :: l → ∃ t, exec (.txtsRead ag n) s = .next t ∧ t.txQueue n = l ∧ t.rdata = BitVec.ofNat 64 (y.tsid.toNat + 2 ^ 31) ∧
        ∀ k, k ≠ Reg.ETH_TSSTAT n → t.reg k = s.reg k)) ∧
    (on →
      let take := f.head?.any (fun b => b.toNat % 2 = 1) = true ∨ s.rb (Reg.ETH_MODE n) 7 = true ∨
        sub f 0 6 = beBytes 2 (s.rf (Reg.ETH_MACADDR_HI n) 15 0) ++ beBytes 4 (s.reg (Reg.ETH_MACADDR_LO n)).toNat
      let ours := s.vuvPort n = false ∨ s.isPtp n f = true ∨ (s.vuvPart f).isSome
      let rprod := s.rf (Reg.ETH_RXR_PROD n) 7 0
      let rlen := s.rf (Reg.ETH_RXR_LEN n) 8 0
      let next := if rlen ≤ rprod + 1 then 0 else rprod + 1
      let re := s.rf (Reg.ETH_RXR_BASE n) 19 5 * 32 + 32 * rprod
      let a := ofLE (sub (s.sramRd re 32) 0 4) % 2 ^ 20
      (ok = false ∨ s.rf (Reg.ETH_MAXLEN n) 13 0 < f.length → ∃ t, exec (.ethRxFrame n f ok) s = .next t ∧ Counted s t (Reg.TLM_ETH_RXERR n) ∧
        Only s t [Reg.TLM_ETH_RXERR n]) ∧
      (ok = true → f.length ≤ s.rf (Reg.ETH_MAXLEN n) 13 0 →
        (¬ take → exec (.ethRxFrame n f ok) s = .next s) ∧
        (take → ¬ ours → ∃ t, exec (.ethRxFrame n f ok) s = .next t ∧ Counted s t (Reg.TLM_ETH_RX n) ∧ Counted s t Reg.VUV_RX_OTHER ∧
          Only s t [Reg.TLM_ETH_RX n, Reg.VUV_RX_OTHER]) ∧
        (take → ours → s.rf (Reg.ETH_RXR_CONS n) 7 0 < rlen → next = s.rf (Reg.ETH_RXR_CONS n) 7 0 → ∃ t, exec (.ethRxFrame n f ok) s = .next t ∧
          Raised s t (227 + 4 * n) ∧ Counted s t (Reg.TLM_ETH_RXDROP n) ∧ t.mem = s.mem) ∧
        (take → ours → clean (s.sramRd re 32) → s.rf (Reg.ETH_RXR_CONS n) 7 0 < rlen → next ≠ s.rf (Reg.ETH_RXR_CONS n) 7 0 → f.length ≤ ofLE (sub (s.sramRd re 32) 4 2) % 2 ^ 14 →
          re + 32 ≤ 2 ^ 20 → a + f.length ≤ re ∨ (re + 32 ≤ a ∧ a + f.length ≤ 2 ^ 20) → ∃ t, exec (.ethRxFrame n f ok) s = .next t ∧
            (t.reg (Reg.ETH_RXR_PROD n)).toNat = next ∧ Counted s t (Reg.TLM_ETH_RX n) ∧ (∀ i < f.length, t.rd (Key.sram + a + i) = f.getD i 0) ∧
            (let x := s.stampAt (-(s.reg (Reg.ETH_RXLAT n)).toInt)
             t.rdLE (Key.sram + re + 6) 2 = f.length ∧ t.rdLE (Key.sram + re + 16) 4 = x.ns ∧ t.rdLE (Key.sram + re + 20) 6 = x.sec ∧
             t.rdLE (Key.sram + re + 26) 2 = x.frac ∧ ((t.rd (Key.sram + re + 8)).toNat.testBit 1 = s.isPtp n f)) ∧
            ∀ k, k < Key.sram + re ∨ Key.sram + re + 32 ≤ k → k < Key.sram + a ∨ Key.sram + a + f.length ≤ k → t.rd k = s.rd k))) ∧
    (Writes s ag (Reg.ETH_MDIO n) →
      (s.rb (Reg.ETH_MDIO n) 12 = true → ∃ t, exec (.mdioGo ag n v) s = .next t ∧ t.rb (Reg.PAGE_STAT (0x1E + n)) 3 = true ∧ Did s t [Reg.PAGE_STAT (0x1E + n)]) ∧
      (s.rb (Reg.ETH_MDIO n) 12 = false → ∃ t, exec (.mdioGo ag n v) s = .next t ∧ t.reg (Reg.ETH_MDIO n) = mdio ||| 0x1000 ∧ t.wire = s.wire ++ [.mdio n mdio] ∧
        Did { s with wire := t.wire } t [Reg.ETH_MDIO n])) ∧
    (s.rb (Reg.ETH_MDIO n) 12 = false → exec (.mdioDone n data) s = .next s) ∧
    (s.rb (Reg.ETH_MDIO n) 12 = true → ∃ t, exec (.mdioDone n data) s = .next t ∧ t.rb (Reg.ETH_MDIO n) 12 = false ∧
      t.rf (Reg.ETH_MDIO n) 31 16 = (if s.rb (Reg.ETH_MDIO n) 10 then s.rf (Reg.ETH_MDIO n) 31 16 else data.toNat) ∧
      (∀ k, k ≠ Reg.ETH_MDIO n → t.reg k = s.reg k) ∧ { t with regs := s.regs } = s) ∧
    (∃ t, exec (.linkChange n up speed) s = .next t ∧ t.rb (Reg.ETH_STAT n) 0 = up ∧ t.rf (Reg.ETH_STAT n) 2 1 = speed.toNat ∧
      t.rb (Reg.ETH_STAT n) 3 = (up && s.rb (Reg.ETH_MODE n) 6) ∧ Raised s t (226 + 4 * n) ∧ Only s t [Reg.ETH_STAT n, rawReg (226 + 4 * n)])

/-- The CAN FD controllers (13 R437–R447, R450): a frame enters the first free receive object and is dropped without one, acknowledged bits clear, transmit
objects become READY and the one that wins the bus is selected; its end, a lost arbitration, an error and the error counters; bus-off and recovery. Choices
of the model: log 39. -/
def Obligations.CanControllers : Prop :=
  ∀ (ag : Agent) (n m : Fin 4) (f : CanFrame) (age v : Word) (lec : BitVec 3) (big exempt : Bool) (s : State),
    let c := s.cn n
    let on := s.canOn n = true ∧ c.off = false
    let tec := s.rf (Reg.CAN_ERRCNT n) 8 0
    let rec' := s.rf (Reg.CAN_ERRCNT n) 23 16
    let q := s.rf (Reg.CAN_RXSEQ n) 15 0
    let free := fun j => s.isTxObj n j = false ∧ s.isFull n j = false
    let id := if f.ide then f.id.toNat else f.id.toNat / 2 ^ 18 * 2 ^ 18
    let key := fun j => let g := (s.canObjFrame n j).1; canKey g.id.toNat g.ide g.rtr
    (¬ on ∨ (f.fdf = true ∧ s.rb (Reg.CAN_CTRL n) 0 = false) → exec (.canRxFrame n f age) s = .next s) ∧
    (on → (f.fdf = true → s.rb (Reg.CAN_CTRL n) 0 = true) → s.rb (Reg.CAN_CTRL n) 5 = false → s.canTimingErr n = false → rec' ≤ 127 →
      ((∀ j < 128, ¬ free j) → ∃ t, exec (.canRxFrame n f age) s = .next t ∧ Counted s t (Reg.CAN_RXDROP n) ∧ Raised s t (129 + 8 * n) ∧
        t.rf (Reg.CAN_ERRCNT n) 23 16 = rec' - 1 ∧ t.mem = s.mem) ∧
      (∀ i, i < 128 → free ((c.next + i) % 128) → (∀ l < i, ¬ free ((c.next + l) % 128)) →
        let j := (c.next + i) % 128
        let k := Key.can n + 80 * j
        ∃ t, exec (.canRxFrame n f age) s = .next t ∧ t.isFull n j = true ∧ Raised s t (128 + 8 * n) ∧ Counted s t (Reg.CAN_RXCNT n) ∧
          t.rf (Reg.CAN_RXSEQ n) 15 0 = (q + 1) % 65536 ∧ (t.cn n).next = (j + 1) % 128 ∧ t.rf (Reg.CAN_ERRCNT n) 23 16 = rec' - 1 ∧
          t.rdLE k 4 = id + 2 ^ 29 * bn f.ide + 2 ^ 30 * bn (f.rtr && !f.fdf) ∧
          t.rdLE (k + 4) 1 = f.dlc.toNat + 16 * bn f.fdf + 32 * bn f.brs + 64 * bn f.esi ∧ t.rdLE (k + 6) 2 = q ∧
          t.rdLE (k + 8) 8 = (s.netT + 2 ^ 64 - age.toNat) % 2 ^ 64 ∧
          (∀ l < 64, t.rd (k + 16 + l) = if f.rtr && !f.fdf then 0 else (f.data.take (canLen f.fdf f.dlc.toNat)).getD l 0) ∧
          ∀ a, a < k ∨ k + 80 ≤ a → t.rd a = s.rd a)) ∧
    (Writes s ag (Reg.CAN_RXFULL n m) → ∃ t, exec (.rxfullAck ag n m v) s = .next t ∧ t.reg (Reg.CAN_RXFULL n m) = s.reg (Reg.CAN_RXFULL n m) &&& ~~~v ∧
      Did s t [Reg.CAN_RXFULL n m]) ∧
    (Writes s ag (Reg.CAN_TXRDY n m) → ∃ t, exec (.txrdy ag n m v) s = .next t ∧
      t.reg (Reg.CAN_TXRDY n m) = s.reg (Reg.CAN_TXRDY n m) ||| (v &&& s.reg (Reg.CAN_OBJCFG n m)) ∧
      (v &&& ~~~s.reg (Reg.CAN_OBJCFG n m) ≠ 0 → t.rb (Reg.PAGE_STAT (0x11 + n)) 3 = true) ∧ Did s t [Reg.CAN_TXRDY n m, Reg.PAGE_STAT (0x11 + n)]) ∧
    (Writes s ag (Reg.CAN_TXCAN n m) → ∃ t, exec (.txcan ag n m v) s = .next t ∧ Did s t [Reg.CAN_TXRDY n m, Reg.CAN_TXCAN n m, rawReg (131 + 8 * n)] ∧
      ∀ i < 32, let j := 32 * m.val + i
        (v.toNat.testBit i = true → s.isReady n j = true → c.sel ≠ some j → t.isReady n j = false ∧ t.rb (Reg.CAN_TXCAN n m) i = false ∧ Raised s t (131 + 8 * n)) ∧
        (v.toNat.testBit i = true → s.isReady n j = true → c.sel = some j → t.isReady n j = true ∧ t.rb (Reg.CAN_TXCAN n m) i = true) ∧
        (v.toNat.testBit i = false ∨ s.isReady n j = false → t.isReady n j = s.isReady n j ∧ t.rb (Reg.CAN_TXCAN n m) i = s.rb (Reg.CAN_TXCAN n m) i)) ∧
    (¬ on ∨ c.sel.isSome ∨ (s.rb (Reg.CAN_CTRL n) 4 = true ∧ s.rb (Reg.CAN_CTRL n) 5 = false) ∨ (∀ j < 128, s.isReady n j = false) →
      exec (.canTxSelect n) s = .next s) ∧
    (on → c.sel = none → (s.rb (Reg.CAN_CTRL n) 4 = false ∨ s.rb (Reg.CAN_CTRL n) 5 = true) → (∃ j < 128, s.isReady n j = true) → ∃ t j,
      exec (.canTxSelect n) s = .next t ∧ (t.cn n) = { c with sel := some j } ∧ j < 128 ∧ s.isReady n j = true ∧ (∀ i < 128, s.isReady n i = true → key j ≤ key i) ∧
      (∀ i < j, s.isReady n i = true → key j < key i) ∧
      { t with can := s.can } = s) ∧
    (∀ r, c.sel = none → exec (.canTxEnd n r age) s = .next s) ∧
    (∀ j, c.sel = some j → j < 128 →
      let waits := s.objBit (Reg.CAN_TXCAN n 0) j
      (∃ t, exec (.canTxEnd n .sent age) s = .next t ∧ (t.cn n).sel = none ∧ t.isReady n j = false ∧ t.objBit (Reg.CAN_TXDONE n 0) j = true ∧
        Raised s t (130 + 8 * n) ∧ Counted s t (Reg.CAN_TXCNT n) ∧ t.rf (Reg.CAN_ERRCNT n) 8 0 = tec - 1 ∧
        (s.isTxObj n j = true → t.rdLE (Key.can n + 80 * j + 8) 8 = (s.netT + 2 ^ 64 - age.toNat) % 2 ^ 64) ∧
        (s.rb (Reg.CAN_CTRL n) 5 = false → (s.canObjFrame n j).2 = false → t.wire = s.wire ++ [.can n (s.canObjFrame n j).1])) ∧
      (∃ t, exec (.canTxEnd n .arbLost age) s = .next t ∧ (t.cn n).sel = none ∧ Counted s t (Reg.CAN_ARBLOST n) ∧ t.wire = s.wire ∧
        t.isReady n j = (s.isReady n j && !waits) ∧ (waits = true → Raised s t (131 + 8 * n))) ∧
      (∃ t, exec (.canTxEnd n (.error lec exempt) age) s = .next t ∧ (t.cn n).sel = none ∧ t.rf (Reg.CAN_STAT n) 18 16 = lec.toNat ∧ Counted s t (Reg.CAN_ERRFRM n) ∧
        t.rf (Reg.CAN_ERRCNT n) 8 0 = min 511 (tec + if exempt then 0 else 8) ∧ t.isReady n j = (s.isReady n j && !waits) ∧
        (tec ≤ 255 → 255 < tec + (if exempt then 0 else 8) → c.off = false → (t.cn n).off = true ∧ Raised s t (134 + 8 * n)))) ∧
    (¬ on → exec (.canRxError n lec big) s = .next s) ∧
    (on → tec ≤ 255 → ∃ t, exec (.canRxError n lec big) s = .next t ∧ t.rf (Reg.CAN_STAT n) 18 16 = lec.toNat ∧ Counted s t (Reg.CAN_ERRFRM n) ∧
      t.rf (Reg.CAN_ERRCNT n) 23 16 = min 255 (rec' + if big then 8 else 1) ∧ t.rf (Reg.CAN_ERRCNT n) 8 0 = tec ∧ t.can = s.can) ∧
    (Writes s ag (Reg.CAN_CMD n) →
      (c.off = true → c.recov = false → ∃ t, exec (.canRecover ag n) s = .next t ∧ t.cn n = { c with recov := true } ∧ Did { s with can := t.can } t []) ∧
      (c.off = false ∨ c.recov = true → ∃ t, exec (.canRecover ag n) s = .next t ∧ t.rb (Reg.PAGE_STAT (0x11 + n)) 3 = true ∧ Did s t [Reg.PAGE_STAT (0x11 + n)])) ∧
    (c.off = false ∨ c.recov = false ∨ s.canOn n = false → exec (.canRecovered n) s = .next s) ∧
    (c.off = true → c.recov = true → s.canOn n = true → ∃ t, exec (.canRecovered n) s = .next t ∧ t.cn n = { c with off := false, recov := false } ∧
      t.reg (Reg.CAN_ERRCNT n) = 0 ∧ Raised s t (135 + 8 * n) ∧ Only { s with can := t.can } t [Reg.CAN_ERRCNT n, rawReg (135 + 8 * n)])

/-- Frames to the Rind (14 R454, R458, R461, R466–R469; 01 R34): a REFRESH carries the cycle's values, its APPLY puts them on the started outputs when both pass
their CRC, SAFE and RELEASE enter and leave the safe state, DIRECT and CONFIG take their registers, a frame with a bad CRC has no effect. Choices of the
model: log 40. -/
def Obligations.RindFrames : Prop :=
  ∀ (ag : Agent) (ok : Bool) (s : State),
    let r := s.rind
    let en := s.rb (Reg.PAGE_CTRL 0x15) 0 = true
    let open' := s.mode ∈ [Mode.run, Mode.stnRun] ∨ (s.mode = Mode.hold ∧ s.rb Reg.SCN_HOLDCFG 0 = false)
    let active := en ∧ open' ∧ s.pwr.coreRun = true
    let produced := (s.scn.published = true ∧ s.scn.pubDue = false ∨ (s.mode = Mode.hold ∧ s.scn.hold ≠ .running)) ∧ s.rb Reg.IMG_STAT 1 = false
    let ready := produced ∧ r.refDone = false ∧ RindFrame.safe ∉ s.rndQ ∧ RindFrame.release ∉ s.rndQ
    let goes := fun (f : RindFrame) => f ∈ s.rndQ ∧ s.rndTurn f = true ∧ s.rndWait f = false ∧ s.pwr.coreRun = true
    let sent := fun (f : RindFrame) => { r with direct := f == .direct }
    let frame := fun (i : Instr) (f : RindFrame) (effect : State → Prop) =>
      (¬ goes f → exec i s = .next s) ∧
      (goes f → ok = false ∨ r.on = false → exec i s = .next { s with rndQ := s.rndQ.erase f, rind := sent f }) ∧
      (goes f → ok = true → r.on = true → ∃ t, exec i s = .next t ∧ t.rndQ = s.rndQ.erase f ∧ t.mem = s.mem ∧ effect t)
    let taken := fun (t : State) (vals : Word) (sel : Nat → Bool) => t.reg Reg.RND_OUTAPP = t.rind.app ∧ ∀ c < 32,
      t.rind.app.getLsbD c = (if s.rindIsOut c && sel c then vals.getLsbD c else r.app.getLsbD c) ∧
      t.rind.out.getLsbD c = if s.rindIsOut c && sel c then (if r.demag.getLsbD c then r.out.getLsbD c && vals.getLsbD c else vals.getLsbD c) else r.out.getLsbD c
    (¬ (active ∧ ready) → exec (.rindRefresh ok) s = .next s) ∧
    (active → ready → s.isStn = false → 1 ≤ s.rf Reg.IMG_RINDBLK 7 0 → s.rf Reg.IMG_RINDBLK 7 0 ≤ 128 → s.ecc = [] → ∃ t tag, exec (.rindRefresh ok) s = .next t ∧
      t.rind = { r with refDone := true, direct := false, sent := some tag, refr := t.rind.refr, refSafe := r.safe } ∧
      { t with rind := r, freeCtr := s.freeCtr, scn := s.scn } = s ∧ t.scn = { s.scn with outSent := true } ∧
      (ok = false ∨ r.on = false → t.rind.refr = none) ∧
      (ok = true → r.on = true → ∃ w, t.rind.refr = some (w, tag) ∧ ∀ c < 32,
        w.getLsbD c = if s.rb (Reg.RND_CHCFG c) 4 then s.rb Reg.RND_DOUT c
          else (s.rd (Key.publish + (s.rf Reg.IMG_RINDBLK 7 0 - 1) * 128 + c / 8)).getLsbD (c % 8))) ∧
    (r.sent = none → exec (.rindApply ok) s = .next s) ∧
    (∀ tag w, r.sent = some tag → r.refr = some (w, tag) → r.on = true → ∃ t, exec (.rindApply ok) s = .next t ∧ t.mem = s.mem ∧
      (ok = false → t.rind = { r with sent := none, refr := none } ∧ t.regs = s.regs) ∧
      (ok = true → r.safe = true ∨ r.refSafe = true → t.rind = { r with sent := none, refr := none, tag := tag, wait := r.wait && r.safe } ∧ t.regs = s.regs) ∧
      (ok = true → r.safe = false → r.refSafe = false → t.rind.sent = none ∧ t.rind.tag = tag ∧ t.rind.wait = false ∧ taken t w fun _ => true)) ∧
    (let skip := active ∧ ¬ produced ∧ s.scn.interrupted = false ∧ r.refDone = false;
      (¬ skip → exec .rindRefreshSkip s = .next s) ∧
      (skip → ∃ t, exec .rindRefreshSkip s = .next t ∧ Counted s t Reg.RND_SKIP_CNT ∧ Only { s with rind := { r with refDone := true, sent := none } } t [Reg.RND_SKIP_CNT])) ∧
    frame (.rindSafeFrame ok) .safe (fun t => t.rind.safe = true ∧ (r.safe = false → Raised s t 161 ∧ Counted s t Reg.RND_SAFE_CNT ∧ t.rind.refSafe = true ∧
      ∀ c < 32, s.rindIsOut c = true → (s.rindCfg c).toNat / 4 % 4 = 0 → t.rind.out.getLsbD c = false)) ∧
    frame (.rindReleaseFrame ok) .release (fun t => t.rind = (if r.safe then { sent .release with safe := false, wait := true } else sent .release) ∧ t.regs = s.regs) ∧
    frame (.rindDirectFrame ok) .direct (fun t => if r.safe || r.wait then t.rind = sent .direct else taken t (s.reg Reg.RND_DOUT) fun c => (s.rindCfg c).getLsbD 4) ∧
    (∀ k l, k < 8 → s.rndQ = .config k :: l → goes (.config k) → r.on = true → ok = true → ∃ t, exec (.rindConfigFrame ok) s = .next t ∧ t.rndQ = l ∧ t.mem = s.mem ∧
      ∀ c < 32, t.rindCfg c = if c / 4 = k then s.reg (Reg.RND_CHCFG c) else s.rindCfg c) ∧
    ((∀ f ∈ s.rndQ, (∀ k, f ≠ .config k) ∧ ∀ c, f ≠ .cal c) → exec (.rindConfigFrame ok) s = .next s) ∧
    (Writes s ag Reg.RND_CMD →
      (en → ∃ t, exec (.rndCmdSafe ag) s = .next t ∧ t.rndQ = (if RindFrame.safe ∈ s.rndQ then s.rndQ else s.rndQ ++ [.safe]) ∧ Did { s with rndQ := t.rndQ } t []) ∧
      (en → open' → ∃ t, exec (.rndCmdRelease ag) s = .next t ∧ t.rndQ = (if RindFrame.release ∈ s.rndQ then s.rndQ else s.rndQ ++ [.release]) ∧
        Did { s with rndQ := t.rndQ } t []) ∧
      (¬ (en ∧ open') → ∃ t, exec (.rndCmdRelease ag) s = .next t ∧ t.rb (Reg.PAGE_STAT 0x15) 3 = true ∧ Did s t [Reg.PAGE_STAT 0x15]))

/-- The Rind's inputs, reports and faults (14 R459, R460, R463–R466, R469, R472–R474): samples pass the filter, a valid report brings states, tag and time to
the logic die, a missing one sets FAULT; the end of a demagnetisation, thermal and current limits, and VFLD. Choices of the model: log 40. -/
def Obligations.RindReports : Prop :=
  ∀ (ag : Agent) (ok on : Bool) (c : Fin 32) (levels : Word) (s : State),
    let r := s.rind
    let old := Sparse.get (fun _ => (false, 0)) r.runs c
    let n := if old.1 = levels.getLsbD c then min 255 (old.2 + 1) else 1
    let en := s.rb (Reg.PAGE_CTRL 0x15) 0 = true
    let b := s.rf Reg.IMG_RINDBLK 7 0
    let cause := r.flt = true ∨ (en ∧ (r.lost = true ∨ s.domOn 14 = false))
    (r.on = false → ∀ i ∈ [Instr.rindSample levels, .rindReport ⟨ok, on⟩, .rindTimeout], exec i s = .next s) ∧
    (r.safe = true → exec .rindTimeout s = .next s) ∧
    (r.on = true →
      (∃ t, exec (.rindSample levels) s = .next t ∧ { t with rind := r } = s ∧ t.rind = { r with runs := t.rind.runs, inst := t.rind.inst } ∧
        t.rind.inst.getLsbD c = if r.ch.getLsbD c && (s.rindIsOut c || decide (max 1 ((s.rindCfg c).toNat / 256 % 256) ≤ n)) then levels.getLsbD c else r.inst.getLsbD c) ∧
      (∃ t, exec (.rindReport ⟨true, true⟩) s = .next t ∧ t.reg Reg.RND_INSTATE = r.inst ∧ t.rb Reg.RND_STAT 2 = r.safe ∧ t.rf Reg.RND_STAT 11 8 = r.tag.toNat ∧
        t.reg64 Reg.RND_RPT_T_LO = s.netT ∧ Counted s t Reg.RND_RPT_CNT ∧ t.rind.good = min 2 (r.good + 1) ∧
        (1 ≤ r.good → t.rb Reg.RND_STAT 1 = true ∧ (s.rb Reg.RND_STAT 1 = false → Raised s t 164 ∧ t.rind.lost = false)) ∧
        (s.rb Reg.RND_STAT 2 = true → r.safe = false → Raised s t 162) ∧
        (s.isStn = false → 1 ≤ b → b ≤ 128 → s.domOn 8 = true → t.rdLE (Key.recv + (b - 1) * 128) 4 = r.inst.toNat ∧ State.getMark t.img.complete b = true ∧
          ∀ k, k < Key.recv + (b - 1) * 128 ∨ Key.recv + (b - 1) * 128 + 4 ≤ k → t.rd k = s.rd k)) ∧
      (s.isStn = false → 1 ≤ b → b ≤ 128 → s.domOn 8 = true → ∃ t, exec (.rindReport ⟨true, false⟩) s = .next t ∧ t.reg Reg.RND_INSTATE = r.inst ∧ t.mem = s.mem ∧
        State.getMark t.img.writing b = true) ∧
      (∃ t, exec (.rindReport ⟨false, on⟩) s = .next t ∧ Counted s t Reg.RND_RPT_ERR ∧ t.rind.good = 0 ∧ t.mem = s.mem ∧ (r.errSeen = false → Raised s t 166)) ∧
      (r.safe = false → ∃ t, exec .rindTimeout s = .next t ∧ t.rind.safe = true ∧ Raised s t 161 ∧ Counted s t Reg.RND_SAFE_CNT ∧ t.mem = s.mem)) ∧
    (r.demag.getLsbD c = false → exec (.demagEnd c) s = .next s) ∧
    (r.demag.getLsbD c = true → ∃ t, exec (.demagEnd c) s = .next t ∧ { t with rind := r } = s ∧ t.rind = { r with demag := t.rind.demag, defer := t.rind.defer, out := t.rind.out } ∧
      ∀ i < 32, t.rind.demag.getLsbD i = (r.demag.getLsbD i && i != c.val) ∧ t.rind.defer.getLsbD i = (r.defer.getLsbD i && i != c.val) ∧
        t.rind.out.getLsbD i = if i = c.val then r.defer.getLsbD i else r.out.getLsbD i) ∧
    (∃ t, exec (.thermalShutdown c on) s = .next t ∧ { t with rind := r } = s ∧ ∀ i < 32, t.rind.therm.getLsbD i =
      if i = c.val then on && (r.out.getLsbD i || r.therm.getLsbD i) else r.therm.getLsbD i) ∧
    (∃ t, exec (.currentLimit c on) s = .next t ∧ { t with rind := r } = s ∧ ∀ i < 32, t.rind.limit.getLsbD i =
      if i = c.val then on && r.out.getLsbD i else r.limit.getLsbD i) ∧
    (¬ en ∨ r.lost = true → exec .rindLinkLost s = .next s) ∧
    (en → r.lost = false → ∃ t, exec .rindLinkLost s = .next t ∧ t.rb Reg.RND_STAT 1 = false ∧ Raised s t 163 ∧ t.rb Reg.RND_STAT 0 = true ∧
      (s.rb Reg.RND_STAT 0 = false → Raised s t 160) ∧ Only { s with rind := { r with lost := true, good := 0 } } t [Reg.RND_STAT, rawReg 160]) ∧
    (Writes s ag Reg.RND_STAT → ∃ t, exec (.rindFaultClear ag) s = .next t ∧ Did s t [Reg.RND_STAT] ∧ (¬ cause → t.rb Reg.RND_STAT 0 = false) ∧
      (cause → t.rb Reg.RND_STAT 0 = s.rb Reg.RND_STAT 0) ∧ ∀ i, i ≠ 0 → t.rb Reg.RND_STAT i = s.rb Reg.RND_STAT i) ∧
    (s.pwr.vfldOk = false → exec .vfldLost s = .next s) ∧
    (s.pwr.vfldOk = true → (∃ t, exec .vfldLost s = .next t ∧ t.pwr = { s.pwr with vfldOk := false } ∧ t.domState 14 = 0 ∧ t.rind.out = 0 ∧ t.rind.on = false ∧ Raised s t 14 ∧
        (en → t.rb Reg.RND_STAT 0 = true) ∧ t.fn 14 = { held := if s.rf (Reg.PWR_REQ 14) 1 0 = 2 ∧ (s.fn 14).held = [] then [2] else (s.fn 14).held }) ∧
      exec .vfldBack s = .next s) ∧
    (s.pwr.vfldOk = false → ∃ t, exec .vfldBack s = .next t ∧ t.pwr = { s.pwr with vfldOk := true } ∧ Raised s t 15 ∧
      (s.fn 14 = { held := [2] } → s.domState 14 = 0 → t.domState 14 = 1 ∧ t.fn 14 = { toward := some 2 }))

/-- The watchdog (15 R480, R482–R488, R490–R492): the first period starts it, later values wait for a service; a service with the right key inside the window
and every task checked in begins a new period, else it expires or reports what is missing; expiry keeps its evidence and resets the device. Choices of the
model: log 41. -/
def Obligations.Watchdog : Prop :=
  ∀ (ag : Agent) (v : Word) (warn : Bool) (s : State),
    let run := s.rb Reg.WDT_STAT 0
    let counts := run = true ∧ s.pwr.coreRun = true ∧ (s.core 72).dbgHalt = false
    let missing := s.reg Reg.WDT_TASKS_ACT &&& ~~~s.reg Reg.WDT_CHECKIN
    let opened := decide (s.rf Reg.FUS_WDT 1 0 = 0)
    let cfg := if warn then Reg.WDT_WARN else Reg.WDT_TASKS
    let expired := fun (t : State) (cause : Nat) => t.sys.inReset = true ∧ t.rb Reg.SYS_RESETCAUSE 2 = true ∧ t.wdt.pulse = true ∧
      t.wire = s.wire ++ (if s.wdt.pulse then [] else [.wdpulse true]) ∧ t.reg Reg.WDT_EVID_INFO = BitVec.ofNat 32 (cause + 256 * missing.toNat + 2 ^ 31) ∧
      t.reg Reg.WDT_EVID_PCSTW = BitVec.ofNat 32 ((s.cx 72).pc % 32768) ∧ t.reg Reg.WDT_EXP_CNT = s.reg Reg.WDT_EXP_CNT + 1
    (Writes s ag Reg.WDT_PERIOD → v.toNat < 2 ^ 24 →
      (run = false → ∃ t, exec (.wdtPeriodCommit ag v) s = .next t ∧ t.rb Reg.WDT_STAT 0 = true ∧ t.rb Reg.WDT_STAT 2 = false ∧ Raised s t 168 ∧
        (t.reg Reg.WDT_PERIOD_ACT).toNat = min 10000000 (max 10 v.toNat) ∧ t.reg Reg.WDT_TASKS_ACT = s.reg Reg.WDT_TASKS ∧ t.reg Reg.WDT_WARN_ACT = s.reg Reg.WDT_WARN ∧
        t.wdt.elapsed = 0 ∧ t.wdt.window = opened ∧ t.wdt.warned = false ∧ t.reg Reg.WDT_CHECKIN = 0) ∧
      (run = true → ∃ t, exec (.wdtPeriodCommit ag v) s = .next t ∧ t.reg Reg.WDT_PERIOD = v ∧ t.rb Reg.WDT_STAT 2 = true ∧ Did s t [Reg.WDT_PERIOD, Reg.WDT_STAT])) ∧
    (Writes s ag cfg → v.toNat < (if warn then 2 ^ 24 else 2 ^ 16) → ∃ t, exec (.wdtConfigCommit ag warn v) s = .next t ∧ t.reg cfg = v ∧
      t.rb Reg.WDT_STAT 2 = (s.rb Reg.WDT_STAT 2 || run) ∧ Did s t [cfg, Reg.WDT_STAT]) ∧
    (Writes s ag Reg.WDT_SVC →
      (run = false → ∃ t, exec (.wdtService ag v) s = .next t ∧ t.rb (Reg.PAGE_STAT 0x16) 3 = true ∧ Did s t [Reg.PAGE_STAT 0x16]) ∧
      (run = true → v.toNat % 2 ^ 16 ≠ 0xA35C → ∃ t, exec (.wdtService ag v) s = .next t ∧ expired t 3) ∧
      (run = true → v.toNat % 2 ^ 16 = 0xA35C → s.wdt.window = false → ∃ t, exec (.wdtService ag v) s = .next t ∧ expired t 2) ∧
      (run = true → v.toNat % 2 ^ 16 = 0xA35C → s.wdt.window = true → missing ≠ 0 → ∃ t, exec (.wdtService ag v) s = .next t ∧ Counted s t Reg.WDT_INCOMPLETE ∧
        t.reg Reg.WDT_MISSING = missing ∧ Raised s t 170 ∧ Did s t [Reg.WDT_INCOMPLETE, Reg.WDT_MISSING, rawReg 170]) ∧
      (run = true → v.toNat % 2 ^ 16 = 0xA35C → s.wdt.window = true → missing = 0 → ∃ t, exec (.wdtService ag v) s = .next t ∧ Counted s t Reg.WDT_SVC_CNT ∧
        t.reg Reg.WDT_CHECKIN = 0 ∧ t.wdt.elapsed = 0 ∧ t.wdt.window = opened ∧ t.wdt.warned = false ∧ t.rb Reg.WDT_STAT 2 = false ∧
        (s.rb Reg.WDT_STAT 2 = true → (t.reg Reg.WDT_PERIOD_ACT).toNat = min 10000000 (max 10 (s.rf Reg.WDT_PERIOD 23 0))) ∧
        (s.rb Reg.WDT_STAT 2 = false → t.reg Reg.WDT_PERIOD_ACT = s.reg Reg.WDT_PERIOD_ACT))) ∧
    (Writes s ag Reg.WDT_CHECKIN → v.toNat < 2 ^ 16 → ∃ t, exec (.wdtCheckin ag v) s = .next t ∧ t.reg Reg.WDT_CHECKIN = s.reg Reg.WDT_CHECKIN ||| v ∧
      (v &&& s.reg Reg.WDT_CHECKIN ≠ 0 → Raised s t 171) ∧ Did s t [Reg.WDT_CHECKIN, Reg.WDT_DOUBLE, rawReg 171]) ∧
    (¬ counts → ∀ i ∈ [Instr.wdtWindowOpen, .warn, .wdtExpiry], exec i s = .next s) ∧
    (counts → exec .wdtWindowOpen s = .next { s with wdt := { s.wdt with window := true } } ∧ (∃ t, exec .wdtExpiry s = .next t ∧ expired t 1) ∧
      (s.rf Reg.WDT_WARN_ACT 23 0 = 0 ∨ s.wdt.warned = true → exec .warn s = .next s) ∧
      (s.rf Reg.WDT_WARN_ACT 23 0 ≠ 0 → s.wdt.warned = false → ∃ t, exec .warn s = .next t ∧ Raised s t 169 ∧
        Only { s with wdt := { s.wdt with warned := true } } t [rawReg 169])) ∧
    (s.wdt.pulse = false → exec .wdpulseEnd s = .next s) ∧
    (s.wdt.pulse = true → exec .wdpulseEnd s = .next { s with wdt := { s.wdt with pulse := false }, wire := s.wire ++ [.wdpulse false] })

/-- Keep, its commands (16 R500, R503–R505, R516–R519): a command is refused for its region, its password or the block protection, in this order, else it waits;
UNLOCK and LOCK end at once; the oldest command starts when none runs. Choices of the model: log 42. -/
def Obligations.KeepCommands : Prop :=
  ∀ (ag : Agent) (page : BitVec 15) (s : State),
    let b := State.bankOf ag
    let p := page.toNat
    let key := fun a => a + bankKey b
    let stat := key Reg.KEEP_CMDSTAT
    let busy := s.rf stat 2 0 = 1 ∨ s.rf stat 2 0 = 2
    let open' := 2048 ≤ p
    let mine := open' ∨ (80 ≤ p ∧ p < 1240 ∧ b = 2)
    let pip := 2048 ≤ p ∧ p < 4096
    let rd := s.keep.rdPw ≠ [] ∧ b ∉ s.keep.rdOpen
    let wr := s.keep.wrPw ≠ [] ∧ b ∉ s.keep.wrOpen
    let bp := s.keep.wrPw = [] ∧ ((s.keep.bp = 1 ∧ 24576 ≤ p) ∨ (s.keep.bp = 2 ∧ 16384 ≤ p) ∨ (s.keep.bp = 3 ∧ 2048 ≤ p))
    let table : List (Instr × Nat × Nat × Prop × Prop × Prop × Prop) :=
      [(.keepLoad ag page, 1, p, ¬ mine, open' ∧ rd, False, False), (.keepCommit ag page, 2, p, ¬ mine, False, open' ∧ wr, bp),
        (.pipinc ag page, 3, p, ¬ pip, False, wr, bp), (.pipread ag page, 4, p, ¬ pip, rd, False, False), (.pipinit ag page, 5, p, ¬ pip, False, wr, bp),
        (.setpwRd ag, 9, 0, b ≠ 2, False, False, False), (.setpwWr ag, 10, 0, b ≠ 2, False, False, False), (.setbp ag, 11, 0, False, False, wr, False)]
    let n := (s.reg (key Reg.KEEP_ARG)).toNat % 32
    let pw := ((List.range 4).flatMap fun i => leBytes 4 (s.reg (key (Reg.KEEP_PWIN 0) + 4 * i)).toNat).take n
    let used := fun (t : State) => { s.keep with user := t.keep.user }
    let alone := b ≠ 1 ∨ s.keep.user = none ∨ s.keep.user = some (State.agentNum ag)
    s.keep.bp < 4 → Writes s ag Reg.KEEP_CMD →
      (¬ alone → ∀ q ∈ table, ∃ t, exec q.1 s = .next t ∧ t.mem = s.mem) ∧
      (alone → busy → ∀ q ∈ table, ∃ t, exec q.1 s = .next t ∧ t.rb (Reg.PAGE_STAT 0x17) 3 = true ∧ Did { s with keep := used t } t [Reg.PAGE_STAT 0x17]) ∧
      (alone → ¬ busy → ∀ q ∈ table,
        (∀ x ∈ [(1, q.2.2.2.1), (2, q.2.2.2.2.1), (3, q.2.2.2.2.2.1), (4, q.2.2.2.2.2.2)], x.2 →
          (x.1 = 2 ∨ x.1 = 3 ∨ x.1 = 4 → ¬ q.2.2.2.1) → (x.1 = 4 → ¬ q.2.2.2.2.2.1) →
          ∃ t, exec q.1 s = .next t ∧ (t.reg stat).toNat = 4 + 256 * x.1 + 65536 * q.2.2.1 ∧ Raised s t 177 ∧ t.keep.queue = s.keep.queue ∧ t.mem = s.mem) ∧
        (¬ q.2.2.2.1 → ¬ q.2.2.2.2.1 → ¬ q.2.2.2.2.2.1 → ¬ q.2.2.2.2.2.2 → ∃ t, exec q.1 s = .next t ∧ (t.reg stat).toNat = 1 + 65536 * q.2.2.1 ∧
          (∃ c, t.keep = { used t with queue := s.keep.queue ++ [c] } ∧ (b = 1 → t.keep.user = some (State.agentNum ag)) ∧ c.bank = b ∧ c.op = q.2.1 ∧ c.page = q.2.2.1 ∧
            c.data = ((List.range 16).flatMap fun i => leBytes 4 (s.reg (key (Reg.KEEP_PBUF 0) + 4 * i)).toNat)) ∧
          Did { s with keep := t.keep } t [stat])) ∧
      (alone → ¬ busy → n ≤ 16 → ∀ w : Bool, let i := if w then Instr.unlockWr ag else .unlockRd ag
        let fails := if w then s.keep.wrFails else s.keep.rdFails
        (fails < 8 → pw = (if w then s.keep.wrPw else s.keep.rdPw) → ∃ t, exec i s = .next t ∧ (t.reg stat).toNat = 3 ∧
          b ∈ (if w then t.keep.wrOpen else t.keep.rdOpen) ∧ (if w then t.keep.wrFails else t.keep.rdFails) = 0 ∧ Did { s with keep := t.keep } t [stat]) ∧
        (fails < 8 → pw ≠ (if w then s.keep.wrPw else s.keep.rdPw) → ∃ t, exec i s = .next t ∧ (t.reg stat).toNat = 4 + 256 * 5 ∧ Raised s t 177 ∧
          (if w then t.keep.wrFails else t.keep.rdFails) = fails + 1 ∧ (fails = 7 → Raised s t 182)) ∧
        (8 ≤ fails → ∃ t, exec i s = .next t ∧ (t.reg stat).toNat = 4 + 256 * 6 ∧ t.keep = used t)) ∧
      (alone → ¬ busy → ∃ t, exec (.keepLock ag) s = .next t ∧ (t.reg stat).toNat = 3 ∧ b ∉ t.keep.rdOpen ∧ b ∉ t.keep.wrOpen ∧
        (∀ d, d ≠ b → (d ∈ t.keep.rdOpen ↔ d ∈ s.keep.rdOpen) ∧ (d ∈ t.keep.wrOpen ↔ d ∈ s.keep.wrOpen)) ∧ Did { s with keep := t.keep } t [stat])

/-- Keep, its array (16 R505–R507, R509–R514, R518, R519): LOAD brings a page to the buffer, COMMIT programs it with the spares for a page that fails, the pip
counters count on in the next cell, passwords and BP are stored, a page that waits is written again. Choices of the model: log 42. -/
def Obligations.KeepArray : Prop :=
  ∀ (vf : Fin 3) (page : BitVec 15) (s : State),
    let pageKey := fun p => Key.keep + 64 * p
    let fine := fun p => vf.val ≠ 2 ∧ p ∉ s.keep.bad ∧ Sparse.get (fun _ => 0) s.keep.progs p < 1000000
    let on := s.domOn 13 = true ∧ s.pwr.coreRun = true
    (¬ on ∨ s.keep.exec.isSome ∨ s.keep.queue = [] → exec .keepCmdExecute s = .next s) ∧
    (∀ c l, on → s.keep.exec = none → s.keep.queue = c :: l → ∃ t, exec .keepCmdExecute s = .next t ∧ t.keep = { s.keep with exec := some c, queue := l } ∧
      t.reg (Reg.KEEP_CMDSTAT + bankKey c.bank) = BitVec.ofNat 32 (2 + 65536 * c.page) ∧ Only { s with keep := t.keep } t [Reg.KEEP_CMDSTAT + bankKey c.bank]) ∧
    (¬ on ∨ s.keep.exec = none → exec (.commitDone vf) s = .next s) ∧
    (∀ c, on → s.keep.exec = some c → c.page < 32768 → c.bank < 3 → c.data.length = 64 →
      let done := fun (t : State) => t.reg (Reg.KEEP_CMDSTAT + bankKey c.bank) = BitVec.ofNat 32 (3 + 65536 * c.page) ∧ t.keep.exec = none
      (c.op = 1 → s.ecc = [] → ∃ t, exec (.commitDone vf) s = .next t ∧ done t ∧ t.mem = s.mem ∧
        ∀ i < 16, t.reg (Reg.KEEP_PBUF i + bankKey c.bank) = BitVec.ofNat 32 (s.rdLE (pageKey c.page + 4 * i) 4)) ∧
      (c.op = 2 → fine c.page ∨ s.keep.spares ≠ 0 → ∃ t, exec (.commitDone vf) s = .next t ∧ done t ∧ Raised s t 176 ∧ Counted s t Reg.KEEP_COMMIT_CNT ∧
        (∀ i < 64, t.rd (pageKey c.page + i) = c.data.getD i 0) ∧ (∀ k, k < pageKey c.page ∨ pageKey c.page + 64 ≤ k → t.rd k = s.rd k) ∧
        t.keep.seq = s.keep.seq + 1 ∧ (fine c.page → t.keep.spares = s.keep.spares ∧
          Sparse.get (fun _ => 0) t.keep.progs c.page = Sparse.get (fun _ => 0) s.keep.progs c.page + 1) ∧
        (¬ fine c.page → t.keep.spares + 1 = s.keep.spares ∧ c.page ∉ t.keep.bad)) ∧
      (c.op = 2 → ¬ fine c.page → s.keep.spares = 0 → ∃ t, exec (.commitDone vf) s = .next t ∧ t.mem = s.mem ∧ t.keep.exec = none ∧ Raised s t 177 ∧
        t.reg (Reg.KEEP_CMDSTAT + bankKey c.bank) = BitVec.ofNat 32 (4 + 256 * 7 + 65536 * c.page)) ∧
      (∀ x, c.op = 3 → s.ecc = [] → s.pipNewest c.page = some x →
        (x.val = 0xFFFFFF → ∃ t, exec (.commitDone vf) s = .next t ∧ t.mem = s.mem ∧ Raised s t 177 ∧
          t.reg (Reg.KEEP_CMDSTAT + bankKey c.bank) = BitVec.ofNat 32 (4 + 256 * 8 + 65536 * c.page)) ∧
        (x.val ≠ 0xFFFFFF → ∃ t, exec (.commitDone vf) s = .next t ∧ done t ∧ let k := pageKey c.page + 4 * ((x.i + 1) % 16)
          t.rdLE k 3 = (x.val + 1) % 2 ^ 24 ∧ t.rdLE (k + 3) 1 = x.gen % 256 ∧ ∀ a, a < k ∨ k + 4 ≤ a → t.rd a = s.rd a)) ∧
      (∀ x, c.op = 4 → s.ecc = [] → s.pipNewest c.page = some x → ∃ t, exec (.commitDone vf) s = .next t ∧ done t ∧ t.mem = s.mem ∧
        t.reg (Reg.KEEP_PIPVAL + bankKey c.bank) = BitVec.ofNat 32 (x.val + 2 ^ 24 * x.i + 2 ^ 31)) ∧
      (∀ x, c.op = 5 → s.ecc = [] → s.pipNewest c.page = some x → ∃ t, exec (.commitDone vf) s = .next t ∧ done t ∧
        ∀ i < 16, t.rdLE (pageKey c.page + 4 * i) 3 = c.arg % 2 ^ 24 ∧ t.rdLE (pageKey c.page + 4 * i + 3) 1 = (x.gen + 1) % 256) ∧
      (c.op = 9 → c.arg % 32 ≤ 16 → fine 64 → ∃ t, exec (.commitDone vf) s = .next t ∧ done t ∧ t.keep.rdPw = c.pwin.take (c.arg % 32) ∧ t.keep.rdOpen = [] ∧
        t.keep.wrPw = s.keep.wrPw) ∧
      (c.op = 10 → c.arg % 32 ≤ 16 → fine 64 → ∃ t, exec (.commitDone vf) s = .next t ∧ done t ∧ t.keep.wrPw = c.pwin.take (c.arg % 32) ∧ t.keep.wrOpen = [] ∧
        t.keep.rdPw = s.keep.rdPw) ∧
      (c.op = 11 → fine 64 → ∃ t, exec (.commitDone vf) s = .next t ∧ done t ∧ t.keep.bp = c.arg % 4 ∧ t.keep.rdPw = s.keep.rdPw)) ∧
    (¬ on ∨ s.keep.exec.isSome ∨ s.keep.queue ≠ [] ∨ page.toNat ∉ s.keep.rewrite → exec (.keepBackgroundWrite page vf) s = .next s) ∧
    (on → s.keep.exec = none → s.keep.queue = [] → page.toNat ∈ s.keep.rewrite → ∃ t, exec (.keepBackgroundWrite page vf) s = .next t ∧ (∀ k, t.rd k = s.rd k) ∧
      page.toNat ∉ t.keep.rewrite ∧ t.keep.seq = s.keep.seq + 1)

/-- The calendar (17 R524–R539; 12 R420): a second tick advances the calendar by one second of the Gregorian count, 2399 wraps to 2000, hour changes wait for
the tick, SET takes the buffer or says which field is wrong, a transfer takes network time's second, alarms compare, the oscillator and VBAT leave their
marks. Choices of the model: log 43. -/
def Obligations.Calendar : Prop :=
  ∀ (ag : Agent) (temp : BitVec 10) (toVbat : Bool) (s : State),
    let valid := fun (k : Cal) => k.sec < 60 ∧ k.min < 60 ∧ k.hour < 24 ∧ 1 ≤ k.dow ∧ k.dow ≤ 7 ∧ 1 ≤ k.month ∧ k.month ≤ 12 ∧ k.year < 100 ∧ 20 ≤ k.cent ∧ k.cent ≤ 23 ∧
      1 ≤ k.date ∧ k.date ≤ monthDays k.month k.year k.cent
    let last : Cal := ⟨59, 59, 23, s.cal.dow, 31, 12, 99, 23⟩
    let quiet := s.rb Reg.RTC_ALMCTRL 0 = false ∧ s.rb Reg.RTC_ALMCTRL 1 = false
    let at' := s.reg Reg.RTC_SETTIME
    let ac := s.reg Reg.RTC_SETCAL
    let digits := ∀ f ∈ rtcFields at' ac, bcdOk f = true
    let busy := s.rb Reg.RTC_STAT 0 = true
    s.mode ≠ Mode.backup →
    (valid s.cal →
      (s.rtc.cmd = 0 → s.cal ≠ last → ∃ t, exec .rtcSecondTick s = .next t ∧ valid t.cal ∧ calSeconds t.cal = calSeconds s.cal + 1 ∧ t.rtc.since = s.now ∧
        t.cal.dow = (if s.cal.hour = 23 ∧ s.cal.min = 59 ∧ s.cal.sec = 59 then s.cal.dow % 7 + 1 else s.cal.dow) ∧
        (quiet → Only { s with rtc := t.rtc } t [Reg.RTC_TIME, Reg.RTC_CAL]) ∧
        ∀ n < 2, s.rb Reg.RTC_ALMCTRL n = true →
          (let x := s.reg (if n = 0 then Reg.RTC_ALM0_TIME else Reg.RTC_ALM1_TIME)
           let y := s.reg (if n = 0 then Reg.RTC_ALM0_CAL else Reg.RTC_ALM1_CAL)
           (x &&& 0x80808080 = 0x80808080 → y &&& 0x8080 = 0x8080 → t.rb Reg.RTC_STAT (1 + n) = true ∧ Raised s t (186 + n)) ∧
           (x.toNat % 256 < 0x60 → x.toNat % 256 ≠ (t.reg Reg.RTC_TIME).toNat % 128 → x &&& 0x80808000 = 0x80808000 → y &&& 0x8080 = 0x8080 →
             x.toNat % 16 < 10 → t.rb Reg.RTC_STAT (1 + n) = s.rb Reg.RTC_STAT (1 + n)))) ∧
      (s.rtc.cmd = 0 → s.cal = last → ∃ t, exec .rtcSecondTick s = .next t ∧ t.cal = ⟨0, 0, 0, s.cal.dow, 1, 1, 0, 20⟩ ∧ t.rb Reg.RTC_STAT 6 = true ∧ Raised s t 189) ∧
      (s.rtc.cmd = 1 → s.cal.hour < 22 → ∃ t, exec .rtcSecondTick s = .next t ∧ calSeconds t.cal = calSeconds s.cal + 3601 ∧ t.rtc.cmd = 0 ∧ Raised s t 184 ∧
        t.rb Reg.RTC_STAT 0 = false) ∧
      (s.rtc.cmd = 2 → s.cal.hour ≠ 23 → 2 ≤ s.cal.hour ∨ 2 ≤ s.cal.date → ∃ t, exec .rtcSecondTick s = .next t ∧ calSeconds t.cal + 3599 = calSeconds s.cal ∧ t.rtc.cmd = 0)) ∧
    (s.rb Reg.RTC_COMPCFG 0 = false → ∃ t, exec (.compWindow temp) s = .next t ∧ t.reg Reg.RTC_COMPN = 0 ∧ Only s t [Reg.RTC_COMPN]) ∧
    (s.rb Reg.RTC_COMPCFG 0 = true → ∃ t, exec (.compWindow temp) s = .next t ∧ t.reg Reg.RTC_TEMP = temp.setWidth 32 ∧ (s.compN temp.toInt).natAbs ≤ 255 ∧
      t.reg Reg.RTC_COMPN = (BitVec.ofInt 9 (s.compN temp.toInt)).setWidth 32 ∧ Only s t [Reg.RTC_TEMP, Reg.RTC_COMPN]) ∧
    (∃ t, exec .oscStop s = .next t ∧ t.rb Reg.RTC_STAT 3 = true ∧ Raised s t 190 ∧
      Only { s with rtc := { s.rtc with xtal := false, sub := s.rtcSubsec } } t [Reg.RTC_STAT, rawReg 190]) ∧
    (∃ t, exec .pd0PowerUp s = .next t ∧ t.reg Reg.RTC_TIME = regReset Reg.RTC_TIME ∧ t.reg Reg.RTC_CAL = regReset Reg.RTC_CAL ∧ t.rb Reg.RTC_STAT 3 = true ∧
      t.reg Reg.SYS_MODE = s.reg Reg.SYS_MODE ∧ t.rtc = { since := s.now } ∧ { t with regs := s.regs, rtc := s.rtc } = s) ∧
    (∃ t, exec (.vbatChangeover toVbat) s = .next t ∧ t.pwr = { s.pwr with onVbat := toVbat } ∧ t.rb Reg.RTC_STAT 4 = (toVbat || s.rb Reg.RTC_STAT 4) ∧
      Only { s with pwr := t.pwr } t [Reg.RTC_STAT]) ∧
    (Writes s ag Reg.RTC_CMD →
      (busy → ∀ i ∈ [Instr.rtcSet ag, .addh ag, .subh ag, .fromnet ag], ∃ t, exec i s = .next t ∧ t.rb (Reg.PAGE_STAT 0x18) 3 = true ∧ Did s t [Reg.PAGE_STAT 0x18]) ∧
      (¬ busy → digits → State.setErr at' ac = none → quiet → ∃ t, exec (.rtcSet ag) s = .next t ∧ t.reg Reg.RTC_TIME = at' ∧ t.reg Reg.RTC_CAL = ac ∧ t.rb Reg.RTC_STAT 3 = false ∧
        t.rtc.since = s.now ∧ Raised s t 184 ∧ Did { s with rtc := t.rtc, bgd := t.bgd } t [Reg.RTC_TIME, Reg.RTC_CAL, Reg.RTC_STAT, rawReg 184]) ∧
      (∀ n, ¬ busy → digits → State.setErr at' ac = some n → ∃ t, exec (.rtcSet ag) s = .next t ∧ t.reg Reg.RTC_SETERR = BitVec.ofNat 32 n ∧ Raised s t 185 ∧
        Did { s with bgd := t.bgd } t [Reg.RTC_SETERR, rawReg 185]) ∧
      (¬ busy → s.rb Reg.RTC_STAT 3 = false → ∀ q ∈ [(Instr.addh ag, 1), (.subh ag, 2)] ++ (if s.rb Reg.TIM_STAT 0 then [] else [(.fromnet ag, 3)]),
        ∃ t, exec q.1 s = .next t ∧ t.rb Reg.RTC_STAT 0 = true ∧ t.rtc = { s.rtc with cmd := q.2 } ∧ Did { s with rtc := t.rtc, bgd := t.bgd } t [Reg.RTC_STAT])) ∧
    (s.rtc.cmd ≠ 3 → exec .rtcXfer s = .next s) ∧
    (s.rtc.cmd = 3 → (let x := (s.tim.sec : Int) - (s.reg Reg.TIM_RTCOFS).toInt
      946684800 ≤ x → x < 13569465600 → ∃ t, exec .rtcXfer s = .next t ∧ valid t.cal ∧ (calSeconds t.cal : Int) = x ∧ Raised s t 115 ∧ t.rtc = { s.rtc with cmd := 0, since := s.now, sub := 0 } ∧
        t.rb Reg.RTC_STAT 0 = false))

/-- The PCI Express link and its mailboxes (18 R547–R549, R571, R572): FLR and PERST_N reset the endpoint's own registers, the MSI-X table and its pending
messages; the link and its errors are reported; doorbell bits are set by one side and cleared by the other, one that stands already answers with WIGN.
Choices of the model: log 44. -/
def Obligations.HostLink : Prop :=
  ∀ (ag : Agent) (v : Half) (speed width : BitVec 2) (s : State),
    let up := s.domOn 10 = true
    let bar := [Reg.HST_MBX_H2D, Reg.HST_MBX_D2H, Reg.HST_BAR0WIN, Reg.HST_LINK, Reg.HST_FLR_CNT]
    (¬ up → ∀ i ∈ [Instr.flr, .perst, .pcieLinkUp speed width, .aerUe, .aerCe], exec i s = .next s) ∧
    (up → ∀ flr : Bool, ∃ t, exec (if flr then .flr else .perst) s = .next t ∧ t.reg Reg.HST_MBX_H2D = 0 ∧ t.reg Reg.HST_MBX_D2H = 0 ∧ t.reg Reg.HST_BAR0WIN = 2 ∧
      t.rb Reg.HST_LINK 5 = false ∧ t.rb Reg.HST_LINK 6 = (flr || s.rb Reg.HST_LINK 6) ∧ (∀ i < 32, i ≠ 5 → i ≠ 6 → t.rb Reg.HST_LINK i = s.rb Reg.HST_LINK i) ∧
      (flr = true → Counted s t Reg.HST_FLR_CNT) ∧ (flr = false → t.reg Reg.HST_FLR_CNT = s.reg Reg.HST_FLR_CNT) ∧ t.evt = { s.evt with msix := 0 } ∧
      (∀ k, t.rd k = if Key.msix ≤ k ∧ k < Key.msix + 0x200 then 0 else s.rd k) ∧ (∀ k, k ∉ bar → t.reg k = s.reg k) ∧
      { t with regs := s.regs, hidden := s.hidden, evt := s.evt, mem := s.mem, ecc := s.ecc } = s) ∧
    (s.rb Reg.HST_LINK 6 = false → exec .flrDone s = .next s) ∧
    (s.rb Reg.HST_LINK 6 = true → ∃ t, exec .flrDone s = .next t ∧ t.reg Reg.HST_LINK = s.reg Reg.HST_LINK &&& ~~~0x40 ∧ Raised s t 196 ∧
      Only s t [Reg.HST_LINK, rawReg 196]) ∧
    (up → ∃ t, exec (.pcieLinkUp speed width) s = .next t ∧ Raised s t 194 ∧ Only s t [Reg.HST_LINK, rawReg 194] ∧
      t.reg Reg.HST_LINK = (s.reg Reg.HST_LINK &&& ~~~0x1F) ||| BitVec.ofNat 32 (speed.toNat + 4 * width.toNat + 16)) ∧
    (s.rb Reg.HST_LINK 4 = false → exec .pcieLinkDown s = .next s) ∧
    (s.rb Reg.HST_LINK 4 = true → ∃ t, exec .pcieLinkDown s = .next t ∧ t.reg Reg.HST_LINK = s.reg Reg.HST_LINK &&& ~~~0x1F ∧ Raised s t 195 ∧
      Only s t [Reg.HST_LINK, rawReg 195]) ∧
    (up → ∀ q ∈ [(Instr.aerUe, Reg.HST_AER_UE, 197), (.aerCe, Reg.HST_AER_CE, 198)], ∃ t, exec q.1 s = .next t ∧ Counted s t q.2.1 ∧ Raised s t q.2.2 ∧
      Only s t [q.2.1, rawReg q.2.2]) ∧
    (∀ q ∈ [(Instr.mbxH2dSet v, Agent.host, Reg.HST_MBX_H2D, 192)] ++ (if State.bankOf ag = 0 then [(.mbxH2dClear ag v, ag, Reg.HST_MBX_H2D, 192)]
        else [(.mbxD2hSet ag v, ag, Reg.HST_MBX_D2H, 193)]), Writes s q.2.1 q.2.2.1 →
      ∃ t, exec q.1 s = .next t ∧ t.reg q.2.2.1 = s.reg q.2.2.1 ||| v.setWidth 32 ∧
        ((v.setWidth 32 : Word) &&& ~~~ s.reg q.2.2.1 ≠ 0 → Raised s t q.2.2.2) ∧ ((v.setWidth 32 : Word) &&& s.reg q.2.2.1 ≠ 0 → t.rb (Reg.PAGE_STAT 0x19) 3 = true) ∧
        ((v.setWidth 32 : Word) &&& s.reg q.2.2.1 = 0 → t.reg (Reg.PAGE_STAT 0x19) = s.reg (Reg.PAGE_STAT 0x19)) ∧
        Did s t [q.2.2.1, Reg.PAGE_STAT 0x19, rawReg q.2.2.2]) ∧
    (∀ q ∈ [(Instr.mbxD2hClear v, Agent.host, Reg.HST_MBX_D2H)] ++ (if State.bankOf ag = 0 then [(.mbxD2hSet ag v, ag, Reg.HST_MBX_D2H)]
        else [(.mbxH2dClear ag v, ag, Reg.HST_MBX_H2D)]), Writes s q.2.1 q.2.2 →
      ∃ t, exec q.1 s = .next t ∧ t.reg q.2.2 = s.reg q.2.2 &&& ~~~ (v.setWidth 32 : Word) ∧ Did s t [q.2.2])

/-- The service port (18 R551–R556, R573; 03 R108): what it hears, one frame at a time, the last response again for the same SEQ, BAD_LEN, and the response of
every command with its status, payload and CRC. An update command waits while one of the host's is in progress; a mode request answers once its outcome is
known. Choices of the model: log 45. -/
def Obligations.ServicePort : Prop :=
  ∀ (seq cmd : Byte) (f : List Byte) (ok : Bool) (s : State),
    let rom := s.mode = Mode.boot ∧ s.bootPhase = 15
    let hears := s.domOn 11 = true ∧ s.rb (Reg.PAGE_CTRL 0x1A) 0 = true ∧ s.mode ≠ Mode.backup ∧ s.sys.inReset = false ∧
      (s.mode ≠ Mode.boot ∨ rom ∨ 7 ≤ s.bootPhase)
    let open' := s.svc.wait = none ∧ s.svc.queued = none
    let fresh := ∀ q ∈ s.svc.last, q.1 ≠ seq
    let unassigned := cmd.toNat = 0 ∨ 7 < cmd.toNat
    let sized : List (Instr × Nat × Nat) := [(.updOpen seq f ok, 2, 256), (.updPiece seq f ok, 3, 4102), (.diagDump seq f, 6, 3), (.modeReq seq f, 7, 1)]
    let frames := sized.map (·.1) ++ [.identify seq, .updStatus seq, .updAbort seq] ++ (if unassigned then [.unknownCmd seq cmd] else [])
    let frame := fun (c st : Nat) (p : List Byte) =>
      let b := leBytes 2 p.length ++ [BitVec.ofNat 8 c, seq, BitVec.ofNat 8 st] ++ p; 0xA5 :: b ++ leBytes 2 (crc16 b).toNat
    let sent := fun (t : State) (b : List Byte) => t.wire = s.wire ++ [.uart b] ∧ Counted s t Reg.SVC_TX
    let answered := fun (t : State) (c rc st : Nat) (p : List Byte) => sent t (frame rc st p) ∧ Counted s t Reg.SVC_RX_OK ∧ t.rf Reg.SVC_STAT 15 8 = c ∧
      t.rf Reg.SVC_STAT 23 16 = st ∧ Raised s t 201 ∧ t.svc = { s.svc with last := some (seq, frame rc st p), errSeen := false }
    let counts := [Reg.SVC_TX, Reg.SVC_RX_OK, Reg.SVC_STAT, rawReg 201]
    let ready := hears ∧ open' ∧ fresh
    (¬ hears → ∀ i ∈ Instr.svcBadFrame :: frames, exec i s = .next s) ∧
    (hears → (s.svc.wait = none ∧ s.svc.queued ≠ none) ∨ (∃ q, s.svc.wait = some q ∧ s.rf Reg.SYS_MODESTAT 5 4 = 1 ∧ s.now < q.2 + 1200000000) →
      ∀ i ∈ frames, ∃ t, exec i s = .next t ∧ Counted s t Reg.SVC_BUSYDROP ∧ Only s t [Reg.SVC_BUSYDROP]) ∧
    (∀ b, hears → open' → s.svc.last = some (seq, b) → ∀ i ∈ frames, ∃ t, exec i s = .next t ∧ sent t b ∧
      Only { s with svc := { s.svc with errSeen := false }, wire := t.wire } t [Reg.SVC_TX]) ∧
    (ready → ∀ q ∈ sized, f.length ≠ q.2.2 → ∃ t, exec q.1 s = .next t ∧ sent t (frame (q.2.1 + 128) 12 []) ∧
      Only { s with svc := { s.svc with errSeen := false }, wire := t.wire } t [Reg.SVC_TX]) ∧
    (ready → ∃ t, exec (.identify seq) s = .next t ∧ Only { s with svc := t.svc, wire := t.wire } t counts ∧ answered t 1 0x81 0
      (leBytes 8 ((s.reg Reg.FUS_UID_LO).toNat + 2 ^ 32 * (s.reg Reg.FUS_UID_HI).toNat) ++ leBytes 1 (s.rf Reg.SYS_STRAPS 3 0) ++
        leBytes 4 (s.reg Reg.SYS_BOOTSTAT).toNat ++ leBytes 1 (s.reg Reg.SYS_MODE).toNat ++ leBytes 4 (s.reg Reg.UPD_VER_STONE).toNat ++
        leBytes 1 (s.rf Reg.UPD_ARB 14 8) ++ leBytes 4 (s.reg Reg.UPD_VER_PULP).toNat ++ leBytes 1 (s.rf Reg.UPD_ARB 22 16) ++ leBytes 1 s.fuseCount ++
        leBytes 4 s.updStatView.toNat)) ∧
    (ready → s.upd.cmd ≠ none → f.length = 256 → ∃ t, exec (.updOpen seq f ok) s = .next t ∧ t = { s with svc := { s.svc with queued := some (seq, 2, f, ok) } }) ∧
    (ready → s.upd.cmd ≠ none → ∀ q ∈ [(Instr.updStatus seq, (4 : Byte)), (.updAbort seq, 5)],
      exec q.1 s = .next { s with svc := { s.svc with queued := some (seq, q.2, [], true) } }) ∧
    (ready → s.upd.cmd = none → ∃ t, exec (.updStatus seq) s = .next t ∧ Only { s with svc := t.svc, wire := t.wire } t counts ∧
      (¬ (rom ∧ s.sess.state ∈ [1, 2] ∧ s.sess.target ≠ 1) → answered t 4 0x84 0 (leBytes 4 s.updStatView.toNat ++
        (List.range 16).map (fun i => s.rd (Key.keep + 64 * 1113 + i)) ++ s.sess.ident)) ∧
      (rom → s.sess.state ∈ [1, 2] → s.sess.target ≠ 1 → answered t 4 0x84 8 [])) ∧
    (ready → f.length = 3 → s.rb Reg.SVC_CFG 1 = false ∨ (rom ∧ byteAt f 0 = 3) → ∃ t, exec (.diagDump seq f) s = .next t ∧ answered t 6 0x86 8 [] ∧
      Only { s with svc := t.svc, wire := t.wire } t counts) ∧
    (ready → f.length = 3 → s.rb Reg.SVC_CFG 1 = true → byteAt f 0 = 1 → (∀ i < 9, Reads s .steward (Reg.WDT_EVID_INFO + 4 * i)) →
      ∃ t, exec (.diagDump seq f) s = .next t ∧ answered t 6 0x86 0 ((List.range 9).flatMap fun i => leBytes 4 (s.reg (Reg.WDT_EVID_INFO + 4 * i)).toNat)) ∧
    (ready → f.length = 1 → s.rb Reg.SVC_CFG 0 = false ∨ rom → ∃ t, exec (.modeReq seq f) s = .next t ∧ answered t 7 0x87 8 [] ∧ Raised s t 202) ∧
    (ready → f.length = 1 → s.rb Reg.SVC_CFG 0 = true → ¬ rom → byteAt f 0 ≤ 11 → let m := (s.raise 202 (byteAt f 0)).requestMode (byteAt f 0)
      ∃ t, exec (.modeReq seq f) s = .next t ∧
        (m.rf Reg.SYS_MODESTAT 5 4 = 1 → t = { m with svc := { m.svc with wait := some (seq, s.now) } }) ∧
        (m.rf Reg.SYS_MODESTAT 5 4 ≠ 1 → t.wire = m.wire ++ [.uart (frame 0x87 0 (leBytes 4 (m.reg Reg.SYS_MODESTAT).toNat))] ∧ Raised s t 201 ∧ t.svc.wait = none ∧
          t.sys = m.sys ∧ t.reg Reg.SYS_MODESTAT = m.reg Reg.SYS_MODESTAT)) ∧
    (¬ unassigned → exec (.unknownCmd seq cmd) s = .next s) ∧
    (ready → unassigned → ∃ t, exec (.unknownCmd seq cmd) s = .next t ∧ answered t cmd.toNat cmd.toNat 11 [] ∧ Only { s with svc := t.svc, wire := t.wire } t counts) ∧
    (hears → ∃ t, exec .svcBadFrame s = .next t ∧ Counted s t Reg.SVC_RX_ERR ∧ (s.svc.errSeen = false → Raised s t 200) ∧
      Only { s with svc := { s.svc with errSeen := true } } t (if s.svc.errSeen then [Reg.SVC_RX_ERR] else [Reg.SVC_RX_ERR, rawReg 200])) ∧
    (∃ t, exec .svcGapTimeout s = .next t ∧ t.reg Reg.SVC_STAT = s.reg Reg.SVC_STAT &&& ~~~1 ∧ Only s t [Reg.SVC_STAT])

/-- Update sessions (18 R555, R560–R566): OPEN, PIECE and ABORT from the host (`hcmdDone`) and from the service port give the result code of the rules, and what
they store: the header and pieces in staging, the session record and the bitmap in Keep. Choices of the model: log 46. -/
def Obligations.UpdateSessions : Prop :=
  ∀ (port : Bool) (seq : Byte) (f : List Byte) (ok : Bool) (c : HCmd) (s : State),
    let ready := s.svc.wait = none ∧ s.svc.queued = none ∧ (port = true → s.svcHears = true ∧ s.svcRom = false ∧ (∀ q ∈ s.svc.last, q.1 ≠ seq) ∧ s.upd.cmd = none) ∧
      (port = false → s.upd.cmd = some c ∧ c.data = s.delivery)
    let src := if port then 1 else 0
    let result := fun (t : State) (cmd code : Nat) =>
      if port then t.rf Reg.SVC_STAT 23 16 = code ∧ t.wire = s.wire ++ [.uart (State.svcBytes (BitVec.ofNat 8 (cmd + 128)) seq code [])]
      else t.rf Reg.UPD_STAT 11 8 = code ∧ t.rb Reg.UPD_STAT 6 = false ∧ t.upd.cmd = none ∧ Raised s t 204
    let r := s.sess
    let member := r.members / 2 ^ src % 2 = 1
    let fine := ∀ p ∈ [1112, 1113], p ∉ s.keep.bad ∧ Sparse.get (fun _ => 0) s.keep.progs p < 1000000
    let page := fun p => Key.keep + 64 * p
    let pages := fun (k : Nat) => page 1112 ≤ k ∧ k < page 1114
    let staging := Key.flash + 0x140000
    let np := ofLE (sub f 10 2)
    let good := ofLE (sub f 252 4) = (crc32c (f.take 252)).toNat ∧ f.take 8 = [0x44, 0x52, 0x55, 0x50, 1, 0, f.getD 6 0, f.getD 7 0] ∧
      (f.getD 6 0 = 1 ∨ f.getD 6 0 = 2) ∧ 1 ≤ np ∧ np ≤ (if f.getD 6 0 = 1 then 16 else 96) ∧ np = (ofLE (sub f 12 4) + 4095) / 4096 ∧
      s.keyAccepted (byteAt f 7) = true ∧ byteAt f 8 ≤ 64 ∧ s.fuseCount ≤ byteAt f 8 ∧ s.runningArb (byteAt f 6) ≤ byteAt f 8
    let ident := sub f 76 48
    let crc := if port then ofLE (sub f 2 4) else ofLE (sub c.data 4096 4)
    let idx := if port then ofLE (sub f 0 2) else c.idx
    let data := if port then f.drop 6 else c.data.take 4096
    let sector := staging + 0x1000 + 0x1000 * idx
    (s.upd.cmd = none → s.svc.queued = none → exec (.hcmdDone ok) s = .next s) ∧
    (∀ q, s.upd.cmd = some c → s.svc.queued = some q → ∃ t, exec (.hcmdDone ok) s = .next t ∧ t.upd.cmd = none ∧ t.svc.queued = none ∧
      ∃ st p, t.wire = s.wire ++ [.uart (State.svcBytes (q.2.1 ||| 0x80) q.1 st p)]) ∧
    (ready → (if port then f.length = 256 else c.op = 1 ∧ c.data.take 256 = f) → ∃ t, exec (if port then .updOpen seq f ok else .hcmdDone ok) s = .next t ∧
      (¬ good → result t 2 5 ∧ t.mem = s.mem) ∧
      (good → r.state ∈ [1, 2] → r.ident ≠ ident → result t 2 1 ∧ t.mem = s.mem) ∧
      (good → r.state ∈ [1, 2] → r.ident = ident → result t 2 9 ∧ (fine → t.sess = { r with members := r.members ||| 2 ^ src }) ∧ ∀ k, ¬ pages k → t.rd k = s.rd k) ∧
      (good → r.state ∉ [1, 2] → ok = false → result t 2 10 ∧ ∀ k, t.rd k = if staging ≤ k ∧ k < staging + 4096 then 0xFF else s.rd k) ∧
      (good → r.state ∉ [1, 2] → ok = true → result t 2 0 ∧ (fine → t.sess = ⟨ident, byteAt f 6, 1, 2 ^ src, np, s.rtcSecs % 2 ^ 32, byteAt f 8⟩ ∧
          ∀ i, t.pieceHere i = true → 512 ≤ i) ∧
        ∀ k, ¬ pages k → t.rd k = if staging ≤ k ∧ k < staging + 4096 then f.getD (k - staging) 0xFF else s.rd k)) ∧
    (ready → (if port then f.length = 4102 else c.op = 2) → ∃ t, exec (if port then .updPiece seq f ok else .hcmdDone ok) s = .next t ∧
      (r.state = 0 ∨ ¬ member → result t 3 6 ∧ t.mem = s.mem) ∧
      (r.state ≠ 0 → member → r.npiece ≤ idx → result t 3 4 ∧ t.mem = s.mem) ∧
      (r.state ≠ 0 → member → idx < r.npiece → (crc32c data).toNat ≠ crc → result t 3 2 ∧ t.mem = s.mem) ∧
      (r.state ≠ 0 → member → idx < r.npiece → (crc32c data).toNat = crc → (s.pieceHere idx = true → result t 3 3 ∧ t.mem = s.mem) ∧
        (s.pieceHere idx = false → ok = false → result t 3 10 ∧ ∀ k, t.rd k = if sector ≤ k ∧ k < sector + 4096 then 0xFF else s.rd k) ∧
        (s.pieceHere idx = false → ok = true → result t 3 0 ∧ (∀ k, ¬ pages k → t.rd k = if sector ≤ k ∧ k < sector + 4096 then data.getD (k - sector) 0 else s.rd k) ∧
          (fine → (∀ i < 512, t.pieceHere i = (s.pieceHere i || i == idx)) ∧ (t.sess.state = if t.pieceCount = r.npiece then 2 else r.state % 256) ∧
            t.sess.ident = r.ident ∧ t.sess.members = r.members ∧ t.sess.last = s.rtcSecs % 2 ^ 32 ∧ (t.pieceCount = r.npiece → Raised s t 205))))) ∧
    (ready → (port = false → c.op = 3) → ∃ t, exec (if port then .updAbort seq else .hcmdDone ok) s = .next t ∧
      (r.state = 0 → result t 5 6 ∧ t.mem = s.mem) ∧
      (r.state ≠ 0 → (member ∨ s.rf Reg.UPD_IDLE_LIM 15 0 * 3600 < s.rtcSecs - r.last ∨ s.rb Reg.RTC_STAT 3 = true) → result t 5 0 ∧
        (fine → t.sess.state = 0 ∧ ∀ i < 512, t.pieceHere i = false) ∧ ∀ k, ¬ pages k → t.rd k = s.rd k) ∧
      (r.state ≠ 0 → ¬ member → s.rtcSecs - r.last ≤ s.rf Reg.UPD_IDLE_LIM 15 0 * 3600 → s.rb Reg.RTC_STAT 3 = false → result t 5 7 ∧ t.mem = s.mem))

/-- The QSPI port (18 R559, R575): a command is refused outside the guard for all but the Steward's bank, or where an erase is not aligned; else it waits for
its transfer, and READ, PROGRAM and the erases then do theirs. Programming clears bits; one that does not read back stops. Choices of the model: log 46. -/
def Obligations.FlashOperations : Prop :=
  ∀ (ag : Agent) (bank : Fin 3) (err : BitVec 4) (s : State),
    let b := State.bankOf ag
    let stat := fun (b : Nat) => Reg.QSP_STAT + bankKey b
    let busy := (s.reg (stat b)).toNat % 4 = 1
    let addr := s.rf (Reg.QSP_ADDR + bankKey b) 26 0
    let len := s.rf (Reg.QSP_LEN + bankKey b) 16 0
    let buf := s.rf (Reg.QSP_BUF + bankKey b) 19 0
    let span := fun (op : Nat) => if op = 3 then 4096 else if op = 4 then 65536 else len
    let guarded := fun (op : Nat) => b ≠ 2 ∧ ¬ (s.rf Reg.QSP_GUARD_LO 26 0 ≤ addr ∧ addr + span op ≤ s.rf Reg.QSP_GUARD_HI 26 0)
    let table : List (Instr × Nat) := [(.qspRead ag, 1), (.qspProgram ag, 2), (.qspErase4k ag, 3), (.qspErase64k ag, 4)]
    let ops := s.upd.qsp.filter fun e => e.1 != bank.val
    let fl := fun (i : Nat) => Key.flash + i
    (Writes s ag Reg.QSP_CMD → busy → ∀ q ∈ table, ∃ t, exec q.1 s = .next t ∧ t.rb (Reg.PAGE_STAT 0x22) 3 = true ∧ Did s t [Reg.PAGE_STAT 0x22]) ∧
    (Writes s ag Reg.QSP_CMD → ¬ busy → ∀ q ∈ table, (q.2 ≤ 2 → 1 ≤ len ∧ len ≤ 65536) →
      (guarded q.2 → ∃ t, exec q.1 s = .next t ∧ t.reg (stat b) = 0x13 ∧ Did s t [stat b]) ∧
      (¬ guarded q.2 → 3 ≤ q.2 → addr % span q.2 ≠ 0 → ∃ t, exec q.1 s = .next t ∧ t.reg (stat b) = 0x23 ∧ Did s t [stat b]) ∧
      (¬ guarded q.2 → (3 ≤ q.2 → addr % span q.2 = 0) → ∃ t n, exec q.1 s = .next t ∧ t.reg (stat b) = 1 ∧ (q.2 ≤ 2 → n = len) ∧
        t.upd = { s.upd with qsp := (s.upd.qsp.filter fun e => e.1 != b) ++
          [(b, ⟨q.2, addr, n, buf, q.2 ≤ 2 && (decide (0x100000 < buf + len) || s.qspClash buf len)⟩)] } ∧
        Did { s with upd := t.upd } t [stat b])) ∧
    ((∀ e ∈ s.upd.qsp, e.1 ≠ bank.val) → exec (.qspDone bank err) s = .next s) ∧
    (∀ o, s.upd.qsp.find? (fun e => e.1 == bank.val) = some (bank.val, o) → ∃ t, exec (.qspDone bank err) s = .next t ∧ t.upd = { s.upd with qsp := ops } ∧
      t.reg Reg.QSP_OPS = s.reg Reg.QSP_OPS + 1 ∧ (∀ k, k ≠ Reg.QSP_OPS → k ≠ stat bank → t.reg k = s.reg k) ∧
      { t with regs := s.regs, upd := s.upd, mem := s.mem, freeCtr := s.freeCtr } = s ∧
      (o.op = 1 → t.reg (stat bank) = 2 ∧ (o.buf + o.len ≤ 0x100000 →
        (∀ k, k < Key.sram + o.buf ∨ Key.sram + o.buf + o.len ≤ k → t.rd k = s.rd k) ∧
        (o.bad = false → ∀ i < o.len, t.rd (Key.sram + o.buf + i) = s.rd (fl (o.addr + i))))) ∧
      (o.op = 2 → (∀ k, k < fl o.addr ∨ fl (o.addr + o.len) ≤ k → t.rd k = s.rd k) ∧ (o.bad = false → o.buf + o.len ≤ 0x100000 →
        let src := fun (i : Nat) => s.rd (Key.sram + o.buf + i)
        ((∀ i < o.len, s.rd (fl (o.addr + i)) &&& src i = src i) → (∀ i < o.len, t.rd (fl (o.addr + i)) = src i) ∧
          t.reg (stat bank) = if err = 3 then 0x33 else 2) ∧
        (∀ n < o.len, (∀ i < n, s.rd (fl (o.addr + i)) &&& src i = src i) → s.rd (fl (o.addr + n)) &&& src n ≠ src n → t.reg (stat bank) = 0x33 ∧
          (∀ i ≤ n, t.rd (fl (o.addr + i)) = s.rd (fl (o.addr + i)) &&& src i) ∧ ∀ k, fl (o.addr + n) < k → t.rd k = s.rd k))) ∧
      (o.op = 3 ∨ o.op = 4 → let n := if o.op = 3 then 4096 else 65536
        t.reg (stat bank) = (if err = 4 then 0x43 else 2) ∧ ∀ k, t.rd k = if fl o.addr ≤ k ∧ k < fl o.addr + n then 0xFF else s.rd k))

/-- Host update commands, keys and fuses (18 R562, R568, R569, R574, R576): UPD_HCMD keeps the command with its KEY and data until Stone ends it; ARB_ADVANCE
never lowers the counter; the hidden key is unwrapped, used and cleared; FUS_CMD needs its KEY and ends with the fuse blown. Choices of the model: log 13
and 46. -/
def Obligations.KeysAndFuses : Prop :=
  ∀ (ag : Agent) (v : Word) (ok : Bool) (c : HCmd) (s : State),
    let arg := fld v 11 8
    let key := fld v 23 16
    let host : List (Instr × Nat × Nat × Nat) := [(.hcmdOpen ag, 1, 0, 0), (.hcmdPiece ag, 2, 0, 0), (.hcmdAbort ag, 3, 0, 0)] ++
      (if fld v 7 4 = 0 ∧ fld v 15 12 = 0 ∧ fld v 31 24 = 0 then
        [(.arbAdvance ag v, 4, arg, key), (.secureBoot ag v, 5, arg, key), (.dbgLock ag v, 6, arg, key), (.keyrev ag v, 7, arg, key)] else [])
    let fuses : List (Instr × Nat) := [(.fusArbBit ag v, 1), (.fusSecureBoot ag v, 2), (.fusDbgLock ag v, 3), (.fusKeyrev ag v, 4)]
    let counter := fun (t : State) => (t.reg Reg.FUS_ARB_LO).toNat + 2 ^ 32 * (t.reg Reg.FUS_ARB_HI).toNat
    let res := fun (t : State) (code : Nat) => t.rf Reg.UPD_STAT 11 8 = code ∧ t.rb Reg.UPD_STAT 6 = false ∧ t.upd = { s.upd with cmd := none } ∧ Raised s t 204 ∧
      t.mem = s.mem
    let others := fun (t : State) (R : List Nat) => ∀ k, k ∉ R → k ∉ lossCounters → k ≠ Reg.UPD_STAT → k ≠ rawReg 204 → t.reg k = s.reg k
    let w := fun (n : Nat) => (List.range n).flatMap fun i => leBytes 4 (s.reg (Reg.UPD_WKEY i)).toNat
    let a := s.rf Reg.UPD_XADDR 19 0
    let n := s.rf Reg.UPD_XLEN 12 0
    let fuse := fun (op i : Nat) => if op = 1 then (if i < 32 then (Reg.FUS_ARB_LO, i) else (Reg.FUS_ARB_HI, i % 32)) else
      if op = 2 then (Reg.FUS_CTRL, 0) else if op = 3 then (Reg.FUS_CTRL, 1) else (Reg.FUS_CTRL, 4 + i % 4)
    (Writes s ag Reg.UPD_HCMD → ∀ q ∈ host,
      (s.upd.cmd ≠ none → ∃ t, exec q.1 s = .next t ∧ t.rb (Reg.PAGE_STAT 0x1B) 3 = true ∧ Did s t [Reg.PAGE_STAT 0x1B]) ∧
      (s.upd.cmd = none → ∃ t, exec q.1 s = .next t ∧ t.rb Reg.UPD_STAT 6 = true ∧ Did { s with upd := t.upd } t [Reg.UPD_STAT] ∧
        t.upd = { s.upd with cmd := some ⟨q.2.1, s.rf Reg.UPD_HIDX 6 0, q.2.2.1, q.2.2.2, s.delivery⟩ })) ∧
    (s.upd.cmd = some c → s.svc.queued = none → c.data = s.delivery → c.key = 0x6B →
      (c.op = 4 → let m := min (s.rf Reg.UPD_ARB 14 8) (s.rf Reg.UPD_ARB 22 16)
        (m ≤ s.fuseCount → ∃ t, exec (.hcmdDone ok) s = .next t ∧ res t 7 ∧ others t []) ∧
        (s.fuseCount < m → ∃ t, exec (.hcmdDone ok) s = .next t ∧ res t 0 ∧ others t [Reg.FUS_ARB_LO, Reg.FUS_ARB_HI] ∧
          ∀ i < 64, (counter t).testBit i = (decide (i < m) || (counter s).testBit i))) ∧
      (∀ q ∈ [(5, 0), (6, 1), (7, 4 + c.arg % 4)], c.op = q.1 → ∃ t, exec (.hcmdDone ok) s = .next t ∧ res t 0 ∧ others t [Reg.FUS_CTRL] ∧
        ∀ i < 32, t.rb Reg.FUS_CTRL i = (decide (i = q.2) || s.rb Reg.FUS_CTRL i))) ∧
    (Writes s ag Reg.UPD_KEYCMD →
      (∃ t, exec (.keyUnwrap ag) s = .next t ∧ t.upd = { s.upd with key := Config.unwrap (w 10) } ∧ Did { s with upd := t.upd } t []) ∧
      (∃ t, exec (.keyClear ag) s = .next t ∧ t.upd = { s.upd with key := none } ∧ Did { s with upd := t.upd } t [])) ∧
    (Writes s ag Reg.UPD_XCMD → a + n ≤ 0x100000 → ∃ t, exec (.xcmdGo ag) s = .next t ∧ Did { s with mem := t.mem } t [] ∧
      (∀ k, k < Key.sram + a ∨ Key.sram + a + n ≤ k → t.rd k = s.rd k) ∧
      (∀ x, s.upd.key = some x → n % 16 = 0 → ∀ i < n, t.rd (Key.sram + a + i) =
        s.rd (Key.sram + a + i) ^^^ (Config.keyStream x (BitVec.ofNat 128 (ofBE (w 4) + i / 16)) >>> (8 * (15 - i % 16))).setWidth 8)) ∧
    (Writes s ag Reg.UPD_EVTSET → v.toNat < 16 → ∃ t, exec (.evtset ag v) s = .next t ∧
      (∀ i < 4, raw t (204 + i) = (v.toNat.testBit i || raw s (204 + i))) ∧ Did s t [rawReg 204]) ∧
    (Writes s ag Reg.FUS_CMD → ∀ q ∈ fuses,
      (fld v 31 24 ≠ 0x6B ∨ s.upd.fuse ≠ none → ∃ t, exec q.1 s = .next t ∧ Did s t []) ∧
      (fld v 31 24 = 0x6B → s.upd.fuse = none → fld v 7 4 = 0 → fld v 23 12 = 0 → ∃ t, exec q.1 s = .next t ∧ t.rb Reg.FUS_STAT 0 = true ∧
        t.upd = { s.upd with fuse := some (q.2, arg) } ∧ Did { s with upd := t.upd } t [Reg.FUS_STAT])) ∧
    (s.upd.fuse = none → exec (.fusProgramDone ok) s = .next s) ∧
    (∀ op i, s.upd.fuse = some (op, i) → ∃ t, exec (.fusProgramDone ok) s = .next t ∧ t.upd = { s.upd with fuse := none } ∧ t.rb Reg.FUS_STAT 0 = false ∧
      t.rb Reg.FUS_STAT 1 = !ok ∧ (ok = true → t.rb (fuse op i).1 (fuse op i).2 = true) ∧
      (∀ k j, k ≠ Reg.FUS_STAT → ¬ (k = (fuse op i).1 ∧ j = (fuse op i).2) → t.rb k j = s.rb k j) ∧
      { t with regs := s.regs, upd := s.upd, freeCtr := s.freeCtr } = s)

/-- Scrubbing (19 R578, R579, R581, R582, R588; 16 R509): a scrubber reads its own words alone; a correction is counted and reported by its memory's rule, an
uncorrectable word takes its memory's outcome, a pass ends with its count and reports new uncorrectable words. Choices of the model: log 30 and 47. -/
def Obligations.Scrubbing : Prop :=
  ∀ (i : Fin 6) (k : Nat) (ue ce : Bool) (s : State),
    let runs := s.rb Reg.BGD_CTRL i = true ∧ s.mode ≠ Mode.backup ∧ s.mode ≠ Mode.boot ∧ s.pwr.coreRun = true ∧ s.scrubTaken i = false ∧
      ((scrubAt i k).all fun a => s.domOn a.dom) = true
    let go := exec (.scrubRead i k ue ce) s
    let word := k / 4 * 4
    let inner := runs ∧ scrubLast i k = false
    let clean := s.eccMark k = 0 ∧ ue = false ∧ ce = false
    let fixed := inner ∧ s.eccMark k ≤ 1 ∧ ue = false ∧ ce = true
    let fails := inner ∧ ue = true
    let marks := fun (t : State) (m : Nat) => ∀ j, t.eccMark j = if j / 4 = k / 4 then m else s.eccMark j
    let record := fun (t : State) (where' addr : Nat) => Counted s t Reg.BGD_UE_CNT ∧ t.reg Reg.BGD_UE_WHERE = BitVec.ofNat 32 (where' + 2 ^ 31) ∧
      t.reg Reg.BGD_UE_ADDR = BitVec.ofNat 32 addr
    let ueRegs := [Reg.BGD_UE_CNT, Reg.BGD_UE_WHERE, Reg.BGD_UE_ADDR]
    let zeroed := fun (t : State) => ∀ j, t.rd j = if j / 4 = k / 4 then 0 else s.rd j
    (scrubAt i k = none ∨ ¬ runs → go = .next s) ∧
    (inner → clean → i.val < 5 → go = .next s) ∧
    (runs → clean → i.val < 5 → scrubLast i k = true → (scrubAt i k).isSome → ∃ t, go = .next t ∧ Counted s t (Reg.BGD_PASS_I i) ∧
      (s.ueCount ≠ Sparse.get (fun _ => 0) s.bgd.ue i → Raised s t 208) ∧ Sparse.get (fun _ => 0) t.bgd.ue i = s.ueCount ∧
      Only { s with bgd := t.bgd } t [Reg.BGD_PASS_I i, rawReg 208]) ∧
    (fixed → (∀ c h w, scrubAt i k = some (.instr c h w) → ∃ t, go = .next t ∧ Counted s t Reg.BGD_CE_CNT ∧ marks t 1 ∧ Raised s t 209 ∧
        Only { s with ecc := t.ecc } t [Reg.BGD_CE_CNT, rawReg 209]) ∧
      ((∃ c w, scrubAt i k = some (.scratch c w)) ∨ (∃ c, scrubAt i k = some (.regs c)) → ∃ t, go = .next t ∧ Counted s t Reg.BGD_CE_CNT ∧ marks t 1 ∧
        Only { s with ecc := t.ecc } t [Reg.BGD_CE_CNT]) ∧
      (scrubAt i k = some .cell → ∃ t, go = .next t ∧ Counted s t Reg.BGD_CE_CNT ∧ marks t 1 ∧ Raised s t 211 ∧
        Only { s with ecc := t.ecc } t [Reg.BGD_CE_CNT, rawReg 211]) ∧
      (scrubAt i k = some .shared → ∃ t, go = .next t ∧ Counted s t Reg.BGD_CE_CNT ∧ Counted s t Reg.IMG_CE_CNT ∧ marks t 0 ∧ Raised s t 50 ∧
        Only { s with ecc := t.ecc } t [Reg.BGD_CE_CNT, Reg.IMG_CE_CNT, rawReg 50])) ∧
    (fails → (∀ c h w, scrubAt i k = some (.instr c h w) → ∃ t, go = .next t ∧ record t (256 * c + 2 ^ 15 * h) w ∧ marks t 2 ∧
        (c < 68 → Raised s t 210 ∧ Only { s with ecc := t.ecc } t (rawReg 210 :: ueRegs)) ∧
        (68 ≤ c → t.core c = { s.core c with run := .stopped, faulty := true } ∧ (c < 72 → t.svflt.getLsbD (c - 68) = true))) ∧
      (∀ c w, scrubAt i k = some (.scratch c w) → (c < 68 → go = .next (((s.setEcc k 2).ueRecord 1 c 0 w).laneFault c 2)) ∧
        (68 ≤ c → ∃ t, go = .next t ∧ record t (1 + 256 * c) w ∧ marks t 2 ∧ t.core c = { s.core c with run := .stopped, faulty := true })) ∧
      (∀ c, scrubAt i k = some (.regs c) → c < 68 → go = .next ((s.ueRecord 2 c 0 (k % 0x1000)).laneFault c 1)) ∧
      (scrubAt i k = some .cell → ∃ t, go = .next t ∧ record t (5 + 256 * 0x7F) word ∧ marks t 0 ∧ zeroed t ∧ Raised s t 212 ∧
        Only { s with ecc := t.ecc, mem := t.mem } t (rawReg 212 :: ueRegs)) ∧
      (scrubAt i k = some .shared → i.val = 3 → ∃ t, go = .next t ∧ record t (4 + 256 * 0x7F) (State.reportAddr k) ∧ marks t 0 ∧ zeroed t ∧ Raised s t 49 ∧
        Counted s t Reg.IMG_UE_CNT ∧ t.reg Reg.IMG_UE_ADDR = BitVec.ofNat 32 (State.reportAddr k) ∧
        Only { s with ecc := t.ecc, mem := t.mem } t (rawReg 49 :: Reg.IMG_UE_CNT :: Reg.IMG_UE_ADDR :: ueRegs)) ∧
      (scrubAt i k = some .shared → i.val = 2 → s.rb Reg.SCN_POISONPOL 0 = false → ∃ t, go = .next t ∧ record t (3 + 256 * 0x7F) (State.reportAddr k) ∧
        marks t 0 ∧ zeroed t ∧ Raised s t 48 ∧ t.img = { s.img with poison := State.setMark s.img.poison (State.lineOf k) true } ∧ t.sys = s.sys)) ∧
    (∀ page, inner → Sparse.wf (fun _ => 0) s.ecc = true → scrubAt i k = some (.keep page) → (∀ g < 16, s.eccMark (Key.keep + 64 * page + 4 * g) = 0) → ∃ t, go = .next t ∧
      (ue = false → ce = true → Counted s t Reg.KEEP_CE_CNT ∧ Counted s t Reg.BGD_CE_CNT ∧ Raised s t 179 ∧ page ∈ t.keep.rewrite ∧ t.mem = s.mem) ∧
      (ue = true → Counted s t Reg.KEEP_UE_CNT ∧ record t (6 + 256 * 0x7F) word ∧ page ∈ t.keep.bad ∧
        (page ∉ s.keep.bad → Raised s t 180 ∧ t.reg Reg.KEEP_UE_PAGE = BitVec.ofNat 32 (page + 2 ^ 31)) ∧ t.mem = s.mem) ∧
      (ue = false → ce = false → Only { s with ecc := t.ecc } t [] ∧ ∀ j, t.eccMark j = s.eccMark j)) ∧
    (s.eccMark k ≠ 1 → exec (.scrubWriteback k) s = .next s) ∧
    (s.eccMark k = 1 → (scrubAt i k).any (fun a => s.domOn a.dom) = true → ∃ t, exec (.scrubWriteback k) s = .next t ∧ marks t 0 ∧ { t with ecc := s.ecc } = s)

/-- Calibration and telemetry (19 R583–R587, R589): the next enabled channel is calibrated, the RTC's measured error corrects TRIM within ±500, the mean rate
stands while locked; samples raise their events, a supply at each edge; TLM_LCLR clears the solve times. Choices of the model: log 47. -/
def Obligations.CalibrationAndTelemetry : Prop :=
  ∀ (ag : Agent) (e : Half) (discarded : Bool) (mean : Word) (T : Fin 4 → Half) (V : Fin 6 → Half) (s : State),
    let temp := fun (n : Nat) => ((BitVec.ofNat 10 n).toInt : Int)
    let warn := temp (s.rf Reg.TLM_TWARN 9 0)
    let crit := temp (s.rf Reg.TLM_TCRIT 9 0)
    let mv := fun (i : Fin 6) => [800, 3300, 1800, 900, 3300, 3000].getD i.val 0
    let bad := fun (i : Fin 6) => 100 * (V i).toNat < mv i * (100 - s.rf Reg.TLM_VWIN 7 0) ∨ mv i * (100 + s.rf Reg.TLM_VWIN 15 8) < 100 * (V i).toNat
    let calibrates := s.rb (Reg.PAGE_CTRL 0x15) 0 = true ∧ s.rb Reg.BGD_CTRL 6 = true
    let trims := s.rb Reg.BGD_CTRL 7 = true ∧ s.rb Reg.TIM_STAT 0 = false ∧ discarded = false ∧ s.bgd.voided = false
    let unvoid := { s with bgd := { s.bgd with voided := false } }
    (¬ calibrates ∨ (∀ c < 32, s.rb Reg.RND_CHEN c = false) → exec .rcalRequest s = .next s) ∧
    (∀ n < 32, calibrates → (∀ j < n, s.rb Reg.RND_CHEN ((s.bgd.cal + j) % 32) = false) → s.rb Reg.RND_CHEN ((s.bgd.cal + n) % 32) = true →
      ∃ t, exec .rcalRequest s = .next t ∧ RindFrame.cal ((s.bgd.cal + n) % 32) ∈ t.rndQ ∧ t.bgd = { s.bgd with cal := (s.bgd.cal + n + 1) % 32 } ∧
        { t with rndQ := s.rndQ, bgd := s.bgd } = s) ∧
    (¬ trims → exec (.rtcTrimWindow e discarded) s = .next unvoid) ∧
    (trims → ∃ t, exec (.rtcTrimWindow e discarded) s = .next t ∧ t.reg Reg.BGD_RTC_ERR = e.setWidth 32 ∧ Raised s t 214 ∧
      t.reg Reg.RTC_COMPCFG = ((s.reg Reg.RTC_COMPCFG >>> 16).setWidth 16 + BitVec.ofInt 16 (max (-500) (min 500 e.toInt))) ++
        (s.reg Reg.RTC_COMPCFG).setWidth 16 ∧ Only unvoid t [Reg.BGD_RTC_ERR, Reg.RTC_COMPCFG, rawReg 214]) ∧
    (s.rb Reg.TIM_STAT 0 = true → exec (.rateAverage mean) s = .next s) ∧
    (s.rb Reg.TIM_STAT 0 = false → ∃ t, exec (.rateAverage mean) s = .next t ∧ t.reg Reg.BGD_RATEAVG = mean ∧ Only s t [Reg.BGD_RATEAVG]) ∧
    (warn ≤ crit → s.rf Reg.TLM_VWIN 7 0 ≤ 100 → s.pwr.coreRun = true → ∃ t, exec (.telemetrySample (List.ofFn T) (List.ofFn V)) s = .next t ∧
      (∀ i : Fin 4, t.reg (Reg.TLM_TEMP i) = BitVec.ofNat 32 ((T i).toNat % 1024)) ∧ (∀ i : Fin 6, t.reg (Reg.TLM_V i) = (V i).setWidth 32) ∧
      (∀ i : Fin 4, temp (T i).toNat ≤ temp (t.rf Reg.TLM_TEMPMAX 9 0)) ∧ temp (s.rf Reg.TLM_TEMPMAX 9 0) ≤ temp (t.rf Reg.TLM_TEMPMAX 9 0) ∧
      (temp (t.rf Reg.TLM_TEMPMAX 9 0) = temp (s.rf Reg.TLM_TEMPMAX 9 0) ∨ ∃ i : Fin 4, temp (t.rf Reg.TLM_TEMPMAX 9 0) = temp (T i).toNat) ∧
      (raw t 216 = true ↔ raw s 216 = true ∨ ∃ i, warn ≤ temp (T i).toNat) ∧ (raw t 217 = true ↔ raw s 217 = true ∨ ∃ i, crit ≤ temp (T i).toNat) ∧
      (raw t 218 = true ↔ raw s 218 = true ∨ (s.bgd.warm = true ∧ ∀ i, temp (T i).toNat < warn - 20)) ∧
      (raw t 219 = true ↔ raw s 219 = true ∨ ∃ i, bad i ∧ i.val ∉ s.bgd.out) ∧ (raw t 220 = true ↔ raw s 220 = true ∨ ∃ i, ¬ bad i ∧ i.val ∈ s.bgd.out) ∧
      (∀ i : Fin 6, i.val ∈ t.bgd.out ↔ bad i) ∧
      Only { s with bgd := t.bgd } t ([Reg.TLM_TEMPMAX, rawReg 216] ++ (List.range 4).map Reg.TLM_TEMP ++ (List.range 6).map Reg.TLM_V)) ∧
    (Writes s ag Reg.TLM_LCLR → Sparse.wf (fun _ => {}) s.cores = true → ∃ t, exec (.lclr ag) s = .next t ∧
      (∀ c, t.core c = { s.core c with lsMin := 0x3FFFFFFF, lsMax := 0 }) ∧ (∀ b < 4, t.rf (Reg.TLM_BUNUTIL b) 25 16 = 0) ∧
      Did { s with cores := t.cores } t ((List.range 4).map Reg.TLM_BUNUTIL))

/-- One step runs the command at the front of the queue on the state with the queue's rest, and on an empty queue lets one tick pass (the queue and the tick are
the model's own: log 1). -/
def Obligations.StepTakesTheFrontCommand : Prop :=
  ∀ (c : Instr) (rest : List Instr) (s : State),
    step { s with pending := c :: rest } = exec c { s with pending := rest } ∧ step { s with pending := [] } = .next ({ s with pending := [] } : State).tick

/-- What a tick of 8 ns does (12 R391, R399; 14 R474; 15 R479; 18 R553, R554; log 1): network time advances by 8 ns and its rate while its domain is ON, a
watchdog that counts counts, the Rind's FAULT is set by its causes, a mode request whose outcome is known or 300 ms old is answered. Nothing else changes, while no lane
has just been stopped (06 R637) and every core that may issue stands at a word that is an instruction (04 R160; log 50). -/
def Obligations.IdleTick : Prop :=
  ∀ s : State, s.pending = [] → (∀ c : Core, (s.core c).stop = none ∧ (s.canIssue c = false ∨ (decodeLimlis c (s.wordAt c)).isSome)) → ∃ t, step s = .next t ∧ t.now = s.now + 32 ∧ t.mem = s.mem ∧
    (let rate : Int := max (-34359738) (min 34359738 (s.reg Reg.TIM_RATE).toInt)
     let fault := s.rind.flt = true ∨ (s.rb (Reg.PAGE_CTRL 0x15) 0 = true ∧ (s.rind.lost = true ∨ s.domOn 14 = false))
     let counts := s.rb Reg.WDT_STAT 0 = true ∧ s.pwr.coreRun = true ∧ (s.core 72).dbgHalt = false
     let answers := fun q => s.svc.wait = some q ∧ (s.rf Reg.SYS_MODESTAT 5 4 ≠ 1 ∨ q.2 + 1200000000 ≤ s.now + 32)
     (s.domOn 9 = true → (t.timFine : Int) = (s.timFine + 8 * 2 ^ 32 + rate) % (2 ^ 48 * 1000000000 * 2 ^ 32) ∧ t.tim.ns < 1000000000 ∧ t.tim.frac < 2 ^ 32) ∧
     (s.domOn 9 = false → t.tim = s.tim) ∧
     (counts → t.wdt = { s.wdt with elapsed := s.wdt.elapsed + 32 }) ∧ (¬ counts → t.wdt = s.wdt) ∧
     t.rb Reg.RND_STAT 0 = (s.rb Reg.RND_STAT 0 || decide fault) ∧ (fault → s.rb Reg.RND_STAT 0 = false → Raised s t 160) ∧
     ((∀ q, ¬ answers q) → Only { s with now := t.now, tim := t.tim, wdt := t.wdt } t [Reg.RND_STAT, rawReg 160]) ∧
     (∀ q, answers q → t.svc.wait = none ∧ Counted s t Reg.SVC_RX_OK ∧ Counted s t Reg.SVC_TX ∧ Raised s t 201 ∧
       t.wire = s.wire ++ [.uart (State.svcBytes 0x87 q.1 0 (leBytes 4 (s.reg Reg.SYS_MODESTAT).toNat))] ∧
       Only { s with now := t.now, tim := t.tim, wdt := t.wdt, svc := t.svc, wire := t.wire } t
         [Reg.RND_STAT, rawReg 160, Reg.SVC_RX_OK, Reg.SVC_TX, Reg.SVC_STAT, rawReg 201]))

/-- After reset memory and registers are in canonical form, nothing waits, and the registers hold the reset values that the manual gives them (02 R53, R56; 03
R83). Choices of the model: log 4 and 5. -/
def Obligations.ResetState : Prop :=
  Inv State.reset ∧ State.reset.pending = [] ∧ State.reset.mem = [] ∧ State.reset.mode = Mode.boot ∧
    State.reset.reg Reg.BGD_CTRL = 0x7F ∧ State.reset.reg Reg.TLM_TWARN = 0x1A4 ∧ State.reset.reg Reg.TLM_TCRIT = 0x1CC ∧ State.reset.reg Reg.QSP_CFG = 0xF ∧
    State.reset.reg Reg.HST_BAR0WIN = 2

/-- Every step, from every state that has it, keeps memory and registers in canonical form; it takes at most the front of the queue, moves time only when the
queue is empty, takes no free value back and recalls nothing that has left the device. Every command, whatever its operands and the state, ends in a next state of
that kind (00 R6: the device does not hang). Choices of the model: log 1 and 3. -/
def Obligations.InvariantKept : Prop :=
  (∀ s t : State, Inv s → step s = .next t →
    Inv t ∧ t.pending = s.pending.tail ∧ t.now = (if s.pending = [] then s.now + 32 else s.now) ∧ s.freeCtr ≤ t.freeCtr ∧ s.wire <+: t.wire) ∧
  ∀ (i : Instr) (s : State), Inv s →
    ∃ t, exec i s = .next t ∧ Inv t ∧ t.pending = s.pending ∧ t.now = s.now ∧ s.freeCtr ≤ t.freeCtr ∧ s.wire <+: t.wire
end

