-- ==== Sys2Proof/Laws/Sparse.lean ====
section
/-! SUPPORT. The laws of sparse maps: reading after writing, and that every operation keeps the canonical form. -/

-- one declaration at a time: many at once take a thread and its stack each
set_option Elab.async false

namespace Sys2Proof.Machine.Sparse

variable {α : Type}

theorem get_erase (d : Nat → α) (l : List (Nat × α)) (k j : Nat) :
    get d (erase l k) j = if j = k then d j else get d l j := by
  induction l with
  | nil => simp [erase, get]
  | cons e t ih =>
    obtain ⟨i, v⟩ := e
    by_cases hi : i = k <;> by_cases hj : j = k <;> simp_all [erase, get]
    intro h; exact absurd h.symm hj

theorem get_insert (d : Nat → α) (l : List (Nat × α)) (k j : Nat) (v : α) (h : k ∉ l.map Prod.fst) :
    get d (insert l k v) j = if j = k then v else get d l j := by
  induction l with
  | nil => simp [insert, get, eq_comm]
  | cons e t ih =>
    obtain ⟨i, w⟩ := e
    simp only [List.map_cons, List.mem_cons, not_or] at h
    unfold insert
    split
    · simp [get, eq_comm]
    · simp only [get, ih h.2]
      by_cases hj : j = k
      · subst hj; simp [Ne.symm h.1]
      · simp [hj]

theorem not_mem_erase (l : List (Nat × α)) (k : Nat) : k ∉ (erase l k).map Prod.fst := by
  induction l with
  | nil => simp [erase]
  | cons e t ih =>
    obtain ⟨i, w⟩ := e
    by_cases hi : i = k
    · simpa [erase, hi] using ih
    · simp only [erase, hi, if_false, List.map_cons, List.mem_cons, not_or]
      exact ⟨fun h => hi h.symm, ih⟩

variable [DecidableEq α]

/-- What a write does: the key reads the value, every other key as before. -/
theorem get_set (d : Nat → α) (l : List (Nat × α)) (k j : Nat) (v : α) :
    get d (set d l k v) j = if j = k then v else get d l j := by
  unfold set
  split
  · next h => rw [get_erase]; split
              · next e => subst e; exact h.symm
              · rfl
  · rw [get_insert _ _ _ _ _ (not_mem_erase l k), get_erase]; split <;> simp_all

@[simp] theorem get_set_same (d : Nat → α) (l : List (Nat × α)) (k : Nat) (v : α) : get d (set d l k v) k = v := by simp [get_set]
theorem get_set_ne (d : Nat → α) (l : List (Nat × α)) {k j : Nat} (v : α) (h : j ≠ k) : get d (set d l k v) j = get d l j := by
  simp [get_set, h]

/-! ## The canonical form -/

/-- The form as three facts: keys rise, no default is listed. -/
def Canon (d : Nat → α) (l : List (Nat × α)) : Prop := (l.map Prod.fst).Pairwise (· < ·) ∧ ∀ e ∈ l, e.2 ≠ d e.1

theorem wfFrom_iff (d : Nat → α) (lo : Option Nat) (l : List (Nat × α)) :
    wfFrom d lo l = true ↔ Canon d l ∧ ∀ b, lo = some b → ∀ e ∈ l, b < e.1 := by
  induction l generalizing lo with
  | nil => simp [wfFrom, Canon]
  | cons e t ih =>
    obtain ⟨k, v⟩ := e
    simp only [wfFrom, Bool.and_eq_true, ih, Canon, decide_eq_true_eq, List.map_cons, List.pairwise_cons, List.mem_cons, List.mem_map, forall_eq_or_imp,
      forall_exists_index, and_imp, forall_apply_eq_imp_iff₂, Option.some.injEq, forall_eq']
    cases lo with
    | none => simp; exact ⟨fun h => ⟨⟨h.2.2, h.2.1.1⟩, h.1, h.2.1.2⟩, fun h => ⟨h.2.1, ⟨h.1.2, h.2.2⟩, h.1.1⟩⟩
    | some b =>
      simp only [decide_eq_true_eq, Option.some.injEq, forall_eq']
      constructor
      · rintro ⟨⟨h1, h2⟩, ⟨h3, h4⟩, h5⟩
        exact ⟨⟨⟨h5, h3⟩, h2, h4⟩, h1, fun e he => Nat.lt_trans h1 (h5 e he)⟩
      · rintro ⟨⟨⟨h1, h2⟩, h3, h4⟩, h5, h6⟩
        exact ⟨⟨h5, h3⟩, ⟨h2, h4⟩, h1⟩

theorem wf_iff (d : Nat → α) (l : List (Nat × α)) : wf d l = true ↔ Canon d l := by simp [wf, wfFrom_iff]

omit [DecidableEq α] in
theorem erase_eq_filter (l : List (Nat × α)) (k : Nat) : erase l k = l.filter (fun e => e.1 ≠ k) := by
  induction l with
  | nil => rfl
  | cons e t ih => obtain ⟨i, w⟩ := e; by_cases hi : i = k <;> simp [erase, hi, ih]

omit [DecidableEq α] in
theorem Canon.filter {d : Nat → α} {l : List (Nat × α)} (h : Canon d l) (p : Nat × α → Bool) : Canon d (l.filter p) :=
  ⟨h.1.sublist ((List.filter_sublist).map _), fun e he => h.2 e ((List.mem_filter.1 he).1)⟩

omit [DecidableEq α] in
theorem insert_mem {l : List (Nat × α)} {k : Nat} {v : α} {e : Nat × α} : e ∈ insert l k v ↔ e = (k, v) ∨ e ∈ l := by
  induction l with
  | nil => simp [insert]
  | cons x t ih =>
    obtain ⟨i, w⟩ := x
    unfold insert
    split
    · simp
    · simp only [List.mem_cons, ih]; exact or_left_comm

omit [DecidableEq α] in
theorem Canon.insert {d : Nat → α} {l : List (Nat × α)} (h : Canon d l) {k : Nat} {v : α} (hk : ∀ e ∈ l, e.1 ≠ k) (hv : v ≠ d k) :
    Canon d (Sparse.insert l k v) := by
  refine ⟨?_, ?_⟩
  · induction l with
    | nil => simp [Sparse.insert]
    | cons x t ih =>
      obtain ⟨i, w⟩ := x
      have hp := h.1
      simp only [List.map_cons, List.pairwise_cons, List.mem_map, forall_exists_index, and_imp, forall_apply_eq_imp_iff₂] at hp
      have hi : i ≠ k := hk (i, w) (by simp)
      unfold Sparse.insert
      split
      · next hlt =>
        simp only [List.map_cons, List.pairwise_cons, List.mem_cons, List.mem_map, forall_eq_or_imp, forall_exists_index, and_imp, forall_apply_eq_imp_iff₂]
        exact ⟨⟨hlt, fun e he => Nat.lt_trans hlt (hp.1 e he)⟩, hp.1, hp.2⟩
      · next hlt =>
        simp only [List.map_cons, List.pairwise_cons, List.mem_map, forall_exists_index, and_imp, forall_apply_eq_imp_iff₂]
        refine ⟨fun e he => ?_, ih ⟨hp.2, fun e he => h.2 e (by simp [he])⟩ fun e he => hk e (by simp [he])⟩
        rcases insert_mem.1 he with rfl | he
        · simp only; omega
        · exact hp.1 e he
  · intro e he
    rcases insert_mem.1 he with rfl | he
    · exact hv
    · exact h.2 e he

/-- Every write keeps the canonical form. -/
theorem wf_set {d : Nat → α} {l : List (Nat × α)} (h : wf d l = true) (k : Nat) (v : α) : wf d (set d l k v) = true := by
  rw [wf_iff] at h ⊢
  unfold set
  rw [erase_eq_filter]
  split
  · exact h.filter _
  · next hv => exact (h.filter _).insert (fun e he => by simpa using (List.mem_filter.1 he).2) hv

/-- Dropping entries keeps the canonical form. -/
theorem wf_filter {d : Nat → α} {l : List (Nat × α)} (h : wf d l = true) (p : Nat × α → Bool) : wf d (l.filter p) = true := by
  rw [wf_iff] at h ⊢; exact h.filter p

theorem wf_clear {d : Nat → α} {l : List (Nat × α)} (h : wf d l = true) (lo hi : Nat) : wf d (clear l lo hi) = true := wf_filter h _

theorem wf_insertAll {d : Nat → α} (es : List (Nat × α)) {l : List (Nat × α)} (h : wf d l = true) : wf d (insertAll d es l) = true := by
  induction es generalizing l with
  | nil => exact h
  | cons e t ih => obtain ⟨k, v⟩ := e; exact ih (wf_set h k v)

theorem wf_copy {d : Nat → α} {l : List (Nat × α)} (h : wf d l = true) (src dst n : Nat) : wf d (copy d l src dst n) = true :=
  wf_insertAll _ (wf_clear h _ _)

theorem wf_fill {d : Nat → α} {l : List (Nat × α)} (h : wf d l = true) (f : Nat → α) (base n : Nat) : wf d (fill d f base n l) = true := by
  induction n with
  | zero => exact h
  | succ n ih => exact wf_set ih _ _

@[simp] theorem wf_nil (d : Nat → α) : wf d ([] : List (Nat × α)) = true := rfl

end Sys2Proof.Machine.Sparse
end

