-- ==== Sys2Proof/Laws/State.lean ====
section
/-! SUPPORT. What each basic update of the state leaves alone, field by field, and what registers, memory, cores and contexts read after it. -/

-- one declaration at a time: many at once take a thread and its stack each
set_option Elab.async false

namespace Sys2Proof.Machine
namespace State
variable (s : State)

@[simp] theorem setReg_pending (k : Nat) (v : Word) : (s.setReg k v).pending = s.pending := rfl
@[simp] theorem setReg_rdata (k : Nat) (v : Word) : (s.setReg k v).rdata = s.rdata := rfl
@[simp] theorem setReg_freeCtr (k : Nat) (v : Word) : (s.setReg k v).freeCtr = s.freeCtr := rfl
@[simp] theorem setReg_now (k : Nat) (v : Word) : (s.setReg k v).now = s.now := rfl
@[simp] theorem setReg_mem (k : Nat) (v : Word) : (s.setReg k v).mem = s.mem := rfl
@[simp] theorem setReg_ecc (k : Nat) (v : Word) : (s.setReg k v).ecc = s.ecc := rfl
@[simp] theorem setReg_hidden (k : Nat) (v : Word) : (s.setReg k v).hidden = s.hidden := rfl
@[simp] theorem setReg_rbuf (k : Nat) (v : Word) : (s.setReg k v).rbuf = s.rbuf := rfl
@[simp] theorem setReg_stage (k : Nat) (v : Word) : (s.setReg k v).stage = s.stage := rfl
@[simp] theorem setReg_wire (k : Nat) (v : Word) : (s.setReg k v).wire = s.wire := rfl
@[simp] theorem setReg_evt (k : Nat) (v : Word) : (s.setReg k v).evt = s.evt := rfl
@[simp] theorem setReg_sys (k : Nat) (v : Word) : (s.setReg k v).sys = s.sys := rfl
@[simp] theorem setReg_pwr (k : Nat) (v : Word) : (s.setReg k v).pwr = s.pwr := rfl
@[simp] theorem setReg_fns (k : Nat) (v : Word) : (s.setReg k v).fns = s.fns := rfl
@[simp] theorem setReg_softRst (k : Nat) (v : Word) : (s.setReg k v).softRst = s.softRst := rfl
@[simp] theorem setReg_cores (k : Nat) (v : Word) : (s.setReg k v).cores = s.cores := rfl
@[simp] theorem setReg_ctxs (k : Nat) (v : Word) : (s.setReg k v).ctxs = s.ctxs := rfl
@[simp] theorem setReg_svrel (k : Nat) (v : Word) : (s.setReg k v).svrel = s.svrel := rfl
@[simp] theorem setReg_svflt (k : Nat) (v : Word) : (s.setReg k v).svflt = s.svflt := rfl
@[simp] theorem setReg_scn (k : Nat) (v : Word) : (s.setReg k v).scn = s.scn := rfl
@[simp] theorem setReg_arbs (k : Nat) (v : Word) : (s.setReg k v).arbs = s.arbs := rfl
@[simp] theorem setReg_img (k : Nat) (v : Word) : (s.setReg k v).img = s.img := rfl
@[simp] theorem setReg_tmc (k : Nat) (v : Word) : (s.setReg k v).tmc = s.tmc := rfl
@[simp] theorem setReg_grf (k : Nat) (v : Word) : (s.setReg k v).grf = s.grf := rfl
@[simp] theorem setReg_tim (k : Nat) (v : Word) : (s.setReg k v).tim = s.tim := rfl
@[simp] theorem setReg_tci (k : Nat) (v : Word) : (s.setReg k v).tci = s.tci := rfl
@[simp] theorem setReg_tciNext (k : Nat) (v : Word) : (s.setReg k v).tciNext = s.tciNext := rfl
@[simp] theorem setReg_tpo (k : Nat) (v : Word) : (s.setReg k v).tpo = s.tpo := rfl
@[simp] theorem setReg_txts (k : Nat) (v : Word) : (s.setReg k v).txts = s.txts := rfl
@[simp] theorem setReg_rtc (k : Nat) (v : Word) : (s.setReg k v).rtc = s.rtc := rfl
@[simp] theorem setReg_vuv (k : Nat) (v : Word) : (s.setReg k v).vuv = s.vuv := rfl
@[simp] theorem setReg_stn (k : Nat) (v : Word) : (s.setReg k v).stn = s.stn := rfl
@[simp] theorem setReg_twn (k : Nat) (v : Word) : (s.setReg k v).twn = s.twn := rfl
@[simp] theorem setReg_can (k : Nat) (v : Word) : (s.setReg k v).can = s.can := rfl
@[simp] theorem setReg_rind (k : Nat) (v : Word) : (s.setReg k v).rind = s.rind := rfl
@[simp] theorem setReg_keep (k : Nat) (v : Word) : (s.setReg k v).keep = s.keep := rfl
@[simp] theorem setReg_wdt (k : Nat) (v : Word) : (s.setReg k v).wdt = s.wdt := rfl
@[simp] theorem setReg_upd (k : Nat) (v : Word) : (s.setReg k v).upd = s.upd := rfl
@[simp] theorem setReg_svc (k : Nat) (v : Word) : (s.setReg k v).svc = s.svc := rfl
@[simp] theorem setReg_bgd (k : Nat) (v : Word) : (s.setReg k v).bgd = s.bgd := rfl
@[simp] theorem setReg_rndQ (k : Nat) (v : Word) : (s.setReg k v).rndQ = s.rndQ := rfl

@[simp] theorem setRf_pending (k hi lo v : Nat) : (s.setRf k hi lo v).pending = s.pending := rfl
@[simp] theorem setRf_rdata (k hi lo v : Nat) : (s.setRf k hi lo v).rdata = s.rdata := rfl
@[simp] theorem setRf_freeCtr (k hi lo v : Nat) : (s.setRf k hi lo v).freeCtr = s.freeCtr := rfl
@[simp] theorem setRf_now (k hi lo v : Nat) : (s.setRf k hi lo v).now = s.now := rfl
@[simp] theorem setRf_mem (k hi lo v : Nat) : (s.setRf k hi lo v).mem = s.mem := rfl
@[simp] theorem setRf_ecc (k hi lo v : Nat) : (s.setRf k hi lo v).ecc = s.ecc := rfl
@[simp] theorem setRf_hidden (k hi lo v : Nat) : (s.setRf k hi lo v).hidden = s.hidden := rfl
@[simp] theorem setRf_rbuf (k hi lo v : Nat) : (s.setRf k hi lo v).rbuf = s.rbuf := rfl
@[simp] theorem setRf_stage (k hi lo v : Nat) : (s.setRf k hi lo v).stage = s.stage := rfl
@[simp] theorem setRf_wire (k hi lo v : Nat) : (s.setRf k hi lo v).wire = s.wire := rfl
@[simp] theorem setRf_evt (k hi lo v : Nat) : (s.setRf k hi lo v).evt = s.evt := rfl
@[simp] theorem setRf_sys (k hi lo v : Nat) : (s.setRf k hi lo v).sys = s.sys := rfl
@[simp] theorem setRf_pwr (k hi lo v : Nat) : (s.setRf k hi lo v).pwr = s.pwr := rfl
@[simp] theorem setRf_fns (k hi lo v : Nat) : (s.setRf k hi lo v).fns = s.fns := rfl
@[simp] theorem setRf_softRst (k hi lo v : Nat) : (s.setRf k hi lo v).softRst = s.softRst := rfl
@[simp] theorem setRf_cores (k hi lo v : Nat) : (s.setRf k hi lo v).cores = s.cores := rfl
@[simp] theorem setRf_ctxs (k hi lo v : Nat) : (s.setRf k hi lo v).ctxs = s.ctxs := rfl
@[simp] theorem setRf_svrel (k hi lo v : Nat) : (s.setRf k hi lo v).svrel = s.svrel := rfl
@[simp] theorem setRf_svflt (k hi lo v : Nat) : (s.setRf k hi lo v).svflt = s.svflt := rfl
@[simp] theorem setRf_scn (k hi lo v : Nat) : (s.setRf k hi lo v).scn = s.scn := rfl
@[simp] theorem setRf_arbs (k hi lo v : Nat) : (s.setRf k hi lo v).arbs = s.arbs := rfl
@[simp] theorem setRf_img (k hi lo v : Nat) : (s.setRf k hi lo v).img = s.img := rfl
@[simp] theorem setRf_tmc (k hi lo v : Nat) : (s.setRf k hi lo v).tmc = s.tmc := rfl
@[simp] theorem setRf_grf (k hi lo v : Nat) : (s.setRf k hi lo v).grf = s.grf := rfl
@[simp] theorem setRf_tim (k hi lo v : Nat) : (s.setRf k hi lo v).tim = s.tim := rfl
@[simp] theorem setRf_tci (k hi lo v : Nat) : (s.setRf k hi lo v).tci = s.tci := rfl
@[simp] theorem setRf_tciNext (k hi lo v : Nat) : (s.setRf k hi lo v).tciNext = s.tciNext := rfl
@[simp] theorem setRf_tpo (k hi lo v : Nat) : (s.setRf k hi lo v).tpo = s.tpo := rfl
@[simp] theorem setRf_txts (k hi lo v : Nat) : (s.setRf k hi lo v).txts = s.txts := rfl
@[simp] theorem setRf_rtc (k hi lo v : Nat) : (s.setRf k hi lo v).rtc = s.rtc := rfl
@[simp] theorem setRf_vuv (k hi lo v : Nat) : (s.setRf k hi lo v).vuv = s.vuv := rfl
@[simp] theorem setRf_stn (k hi lo v : Nat) : (s.setRf k hi lo v).stn = s.stn := rfl
@[simp] theorem setRf_twn (k hi lo v : Nat) : (s.setRf k hi lo v).twn = s.twn := rfl
@[simp] theorem setRf_can (k hi lo v : Nat) : (s.setRf k hi lo v).can = s.can := rfl
@[simp] theorem setRf_rind (k hi lo v : Nat) : (s.setRf k hi lo v).rind = s.rind := rfl
@[simp] theorem setRf_keep (k hi lo v : Nat) : (s.setRf k hi lo v).keep = s.keep := rfl
@[simp] theorem setRf_wdt (k hi lo v : Nat) : (s.setRf k hi lo v).wdt = s.wdt := rfl
@[simp] theorem setRf_upd (k hi lo v : Nat) : (s.setRf k hi lo v).upd = s.upd := rfl
@[simp] theorem setRf_svc (k hi lo v : Nat) : (s.setRf k hi lo v).svc = s.svc := rfl
@[simp] theorem setRf_bgd (k hi lo v : Nat) : (s.setRf k hi lo v).bgd = s.bgd := rfl
@[simp] theorem setRf_rndQ (k hi lo v : Nat) : (s.setRf k hi lo v).rndQ = s.rndQ := rfl

@[simp] theorem setRb_pending (k i : Nat) (b : Bool) : (s.setRb k i b).pending = s.pending := rfl
@[simp] theorem setRb_rdata (k i : Nat) (b : Bool) : (s.setRb k i b).rdata = s.rdata := rfl
@[simp] theorem setRb_freeCtr (k i : Nat) (b : Bool) : (s.setRb k i b).freeCtr = s.freeCtr := rfl
@[simp] theorem setRb_now (k i : Nat) (b : Bool) : (s.setRb k i b).now = s.now := rfl
@[simp] theorem setRb_mem (k i : Nat) (b : Bool) : (s.setRb k i b).mem = s.mem := rfl
@[simp] theorem setRb_ecc (k i : Nat) (b : Bool) : (s.setRb k i b).ecc = s.ecc := rfl
@[simp] theorem setRb_hidden (k i : Nat) (b : Bool) : (s.setRb k i b).hidden = s.hidden := rfl
@[simp] theorem setRb_rbuf (k i : Nat) (b : Bool) : (s.setRb k i b).rbuf = s.rbuf := rfl
@[simp] theorem setRb_stage (k i : Nat) (b : Bool) : (s.setRb k i b).stage = s.stage := rfl
@[simp] theorem setRb_wire (k i : Nat) (b : Bool) : (s.setRb k i b).wire = s.wire := rfl
@[simp] theorem setRb_evt (k i : Nat) (b : Bool) : (s.setRb k i b).evt = s.evt := rfl
@[simp] theorem setRb_sys (k i : Nat) (b : Bool) : (s.setRb k i b).sys = s.sys := rfl
@[simp] theorem setRb_pwr (k i : Nat) (b : Bool) : (s.setRb k i b).pwr = s.pwr := rfl
@[simp] theorem setRb_fns (k i : Nat) (b : Bool) : (s.setRb k i b).fns = s.fns := rfl
@[simp] theorem setRb_softRst (k i : Nat) (b : Bool) : (s.setRb k i b).softRst = s.softRst := rfl
@[simp] theorem setRb_cores (k i : Nat) (b : Bool) : (s.setRb k i b).cores = s.cores := rfl
@[simp] theorem setRb_ctxs (k i : Nat) (b : Bool) : (s.setRb k i b).ctxs = s.ctxs := rfl
@[simp] theorem setRb_svrel (k i : Nat) (b : Bool) : (s.setRb k i b).svrel = s.svrel := rfl
@[simp] theorem setRb_svflt (k i : Nat) (b : Bool) : (s.setRb k i b).svflt = s.svflt := rfl
@[simp] theorem setRb_scn (k i : Nat) (b : Bool) : (s.setRb k i b).scn = s.scn := rfl
@[simp] theorem setRb_arbs (k i : Nat) (b : Bool) : (s.setRb k i b).arbs = s.arbs := rfl
@[simp] theorem setRb_img (k i : Nat) (b : Bool) : (s.setRb k i b).img = s.img := rfl
@[simp] theorem setRb_tmc (k i : Nat) (b : Bool) : (s.setRb k i b).tmc = s.tmc := rfl
@[simp] theorem setRb_grf (k i : Nat) (b : Bool) : (s.setRb k i b).grf = s.grf := rfl
@[simp] theorem setRb_tim (k i : Nat) (b : Bool) : (s.setRb k i b).tim = s.tim := rfl
@[simp] theorem setRb_tci (k i : Nat) (b : Bool) : (s.setRb k i b).tci = s.tci := rfl
@[simp] theorem setRb_tciNext (k i : Nat) (b : Bool) : (s.setRb k i b).tciNext = s.tciNext := rfl
@[simp] theorem setRb_tpo (k i : Nat) (b : Bool) : (s.setRb k i b).tpo = s.tpo := rfl
@[simp] theorem setRb_txts (k i : Nat) (b : Bool) : (s.setRb k i b).txts = s.txts := rfl
@[simp] theorem setRb_rtc (k i : Nat) (b : Bool) : (s.setRb k i b).rtc = s.rtc := rfl
@[simp] theorem setRb_vuv (k i : Nat) (b : Bool) : (s.setRb k i b).vuv = s.vuv := rfl
@[simp] theorem setRb_stn (k i : Nat) (b : Bool) : (s.setRb k i b).stn = s.stn := rfl
@[simp] theorem setRb_twn (k i : Nat) (b : Bool) : (s.setRb k i b).twn = s.twn := rfl
@[simp] theorem setRb_can (k i : Nat) (b : Bool) : (s.setRb k i b).can = s.can := rfl
@[simp] theorem setRb_rind (k i : Nat) (b : Bool) : (s.setRb k i b).rind = s.rind := rfl
@[simp] theorem setRb_keep (k i : Nat) (b : Bool) : (s.setRb k i b).keep = s.keep := rfl
@[simp] theorem setRb_wdt (k i : Nat) (b : Bool) : (s.setRb k i b).wdt = s.wdt := rfl
@[simp] theorem setRb_upd (k i : Nat) (b : Bool) : (s.setRb k i b).upd = s.upd := rfl
@[simp] theorem setRb_svc (k i : Nat) (b : Bool) : (s.setRb k i b).svc = s.svc := rfl
@[simp] theorem setRb_bgd (k i : Nat) (b : Bool) : (s.setRb k i b).bgd = s.bgd := rfl
@[simp] theorem setRb_rndQ (k i : Nat) (b : Bool) : (s.setRb k i b).rndQ = s.rndQ := rfl

@[simp] theorem wr_pending (k : Nat) (v : Byte) : (s.wr k v).pending = s.pending := rfl
@[simp] theorem wr_rdata (k : Nat) (v : Byte) : (s.wr k v).rdata = s.rdata := rfl
@[simp] theorem wr_freeCtr (k : Nat) (v : Byte) : (s.wr k v).freeCtr = s.freeCtr := rfl
@[simp] theorem wr_now (k : Nat) (v : Byte) : (s.wr k v).now = s.now := rfl
@[simp] theorem wr_ecc (k : Nat) (v : Byte) : (s.wr k v).ecc = s.ecc := rfl
@[simp] theorem wr_regs (k : Nat) (v : Byte) : (s.wr k v).regs = s.regs := rfl
@[simp] theorem wr_hidden (k : Nat) (v : Byte) : (s.wr k v).hidden = s.hidden := rfl
@[simp] theorem wr_rbuf (k : Nat) (v : Byte) : (s.wr k v).rbuf = s.rbuf := rfl
@[simp] theorem wr_stage (k : Nat) (v : Byte) : (s.wr k v).stage = s.stage := rfl
@[simp] theorem wr_wire (k : Nat) (v : Byte) : (s.wr k v).wire = s.wire := rfl
@[simp] theorem wr_evt (k : Nat) (v : Byte) : (s.wr k v).evt = s.evt := rfl
@[simp] theorem wr_sys (k : Nat) (v : Byte) : (s.wr k v).sys = s.sys := rfl
@[simp] theorem wr_pwr (k : Nat) (v : Byte) : (s.wr k v).pwr = s.pwr := rfl
@[simp] theorem wr_fns (k : Nat) (v : Byte) : (s.wr k v).fns = s.fns := rfl
@[simp] theorem wr_softRst (k : Nat) (v : Byte) : (s.wr k v).softRst = s.softRst := rfl
@[simp] theorem wr_cores (k : Nat) (v : Byte) : (s.wr k v).cores = s.cores := rfl
@[simp] theorem wr_ctxs (k : Nat) (v : Byte) : (s.wr k v).ctxs = s.ctxs := rfl
@[simp] theorem wr_svrel (k : Nat) (v : Byte) : (s.wr k v).svrel = s.svrel := rfl
@[simp] theorem wr_svflt (k : Nat) (v : Byte) : (s.wr k v).svflt = s.svflt := rfl
@[simp] theorem wr_scn (k : Nat) (v : Byte) : (s.wr k v).scn = s.scn := rfl
@[simp] theorem wr_arbs (k : Nat) (v : Byte) : (s.wr k v).arbs = s.arbs := rfl
@[simp] theorem wr_img (k : Nat) (v : Byte) : (s.wr k v).img = s.img := rfl
@[simp] theorem wr_tmc (k : Nat) (v : Byte) : (s.wr k v).tmc = s.tmc := rfl
@[simp] theorem wr_grf (k : Nat) (v : Byte) : (s.wr k v).grf = s.grf := rfl
@[simp] theorem wr_tim (k : Nat) (v : Byte) : (s.wr k v).tim = s.tim := rfl
@[simp] theorem wr_tci (k : Nat) (v : Byte) : (s.wr k v).tci = s.tci := rfl
@[simp] theorem wr_tciNext (k : Nat) (v : Byte) : (s.wr k v).tciNext = s.tciNext := rfl
@[simp] theorem wr_tpo (k : Nat) (v : Byte) : (s.wr k v).tpo = s.tpo := rfl
@[simp] theorem wr_txts (k : Nat) (v : Byte) : (s.wr k v).txts = s.txts := rfl
@[simp] theorem wr_rtc (k : Nat) (v : Byte) : (s.wr k v).rtc = s.rtc := rfl
@[simp] theorem wr_vuv (k : Nat) (v : Byte) : (s.wr k v).vuv = s.vuv := rfl
@[simp] theorem wr_stn (k : Nat) (v : Byte) : (s.wr k v).stn = s.stn := rfl
@[simp] theorem wr_twn (k : Nat) (v : Byte) : (s.wr k v).twn = s.twn := rfl
@[simp] theorem wr_can (k : Nat) (v : Byte) : (s.wr k v).can = s.can := rfl
@[simp] theorem wr_rind (k : Nat) (v : Byte) : (s.wr k v).rind = s.rind := rfl
@[simp] theorem wr_keep (k : Nat) (v : Byte) : (s.wr k v).keep = s.keep := rfl
@[simp] theorem wr_wdt (k : Nat) (v : Byte) : (s.wr k v).wdt = s.wdt := rfl
@[simp] theorem wr_upd (k : Nat) (v : Byte) : (s.wr k v).upd = s.upd := rfl
@[simp] theorem wr_svc (k : Nat) (v : Byte) : (s.wr k v).svc = s.svc := rfl
@[simp] theorem wr_bgd (k : Nat) (v : Byte) : (s.wr k v).bgd = s.bgd := rfl
@[simp] theorem wr_rndQ (k : Nat) (v : Byte) : (s.wr k v).rndQ = s.rndQ := rfl

@[simp] theorem setCore_pending (c : Nat) (v : CoreSt) : (s.setCore c v).pending = s.pending := rfl
@[simp] theorem setCore_rdata (c : Nat) (v : CoreSt) : (s.setCore c v).rdata = s.rdata := rfl
@[simp] theorem setCore_freeCtr (c : Nat) (v : CoreSt) : (s.setCore c v).freeCtr = s.freeCtr := rfl
@[simp] theorem setCore_now (c : Nat) (v : CoreSt) : (s.setCore c v).now = s.now := rfl
@[simp] theorem setCore_mem (c : Nat) (v : CoreSt) : (s.setCore c v).mem = s.mem := rfl
@[simp] theorem setCore_ecc (c : Nat) (v : CoreSt) : (s.setCore c v).ecc = s.ecc := rfl
@[simp] theorem setCore_regs (c : Nat) (v : CoreSt) : (s.setCore c v).regs = s.regs := rfl
@[simp] theorem setCore_hidden (c : Nat) (v : CoreSt) : (s.setCore c v).hidden = s.hidden := rfl
@[simp] theorem setCore_rbuf (c : Nat) (v : CoreSt) : (s.setCore c v).rbuf = s.rbuf := rfl
@[simp] theorem setCore_stage (c : Nat) (v : CoreSt) : (s.setCore c v).stage = s.stage := rfl
@[simp] theorem setCore_wire (c : Nat) (v : CoreSt) : (s.setCore c v).wire = s.wire := rfl
@[simp] theorem setCore_evt (c : Nat) (v : CoreSt) : (s.setCore c v).evt = s.evt := rfl
@[simp] theorem setCore_sys (c : Nat) (v : CoreSt) : (s.setCore c v).sys = s.sys := rfl
@[simp] theorem setCore_pwr (c : Nat) (v : CoreSt) : (s.setCore c v).pwr = s.pwr := rfl
@[simp] theorem setCore_fns (c : Nat) (v : CoreSt) : (s.setCore c v).fns = s.fns := rfl
@[simp] theorem setCore_softRst (c : Nat) (v : CoreSt) : (s.setCore c v).softRst = s.softRst := rfl
@[simp] theorem setCore_ctxs (c : Nat) (v : CoreSt) : (s.setCore c v).ctxs = s.ctxs := rfl
@[simp] theorem setCore_svrel (c : Nat) (v : CoreSt) : (s.setCore c v).svrel = s.svrel := rfl
@[simp] theorem setCore_svflt (c : Nat) (v : CoreSt) : (s.setCore c v).svflt = s.svflt := rfl
@[simp] theorem setCore_scn (c : Nat) (v : CoreSt) : (s.setCore c v).scn = s.scn := rfl
@[simp] theorem setCore_arbs (c : Nat) (v : CoreSt) : (s.setCore c v).arbs = s.arbs := rfl
@[simp] theorem setCore_img (c : Nat) (v : CoreSt) : (s.setCore c v).img = s.img := rfl
@[simp] theorem setCore_tmc (c : Nat) (v : CoreSt) : (s.setCore c v).tmc = s.tmc := rfl
@[simp] theorem setCore_grf (c : Nat) (v : CoreSt) : (s.setCore c v).grf = s.grf := rfl
@[simp] theorem setCore_tim (c : Nat) (v : CoreSt) : (s.setCore c v).tim = s.tim := rfl
@[simp] theorem setCore_tci (c : Nat) (v : CoreSt) : (s.setCore c v).tci = s.tci := rfl
@[simp] theorem setCore_tciNext (c : Nat) (v : CoreSt) : (s.setCore c v).tciNext = s.tciNext := rfl
@[simp] theorem setCore_tpo (c : Nat) (v : CoreSt) : (s.setCore c v).tpo = s.tpo := rfl
@[simp] theorem setCore_txts (c : Nat) (v : CoreSt) : (s.setCore c v).txts = s.txts := rfl
@[simp] theorem setCore_rtc (c : Nat) (v : CoreSt) : (s.setCore c v).rtc = s.rtc := rfl
@[simp] theorem setCore_vuv (c : Nat) (v : CoreSt) : (s.setCore c v).vuv = s.vuv := rfl
@[simp] theorem setCore_stn (c : Nat) (v : CoreSt) : (s.setCore c v).stn = s.stn := rfl
@[simp] theorem setCore_twn (c : Nat) (v : CoreSt) : (s.setCore c v).twn = s.twn := rfl
@[simp] theorem setCore_can (c : Nat) (v : CoreSt) : (s.setCore c v).can = s.can := rfl
@[simp] theorem setCore_rind (c : Nat) (v : CoreSt) : (s.setCore c v).rind = s.rind := rfl
@[simp] theorem setCore_keep (c : Nat) (v : CoreSt) : (s.setCore c v).keep = s.keep := rfl
@[simp] theorem setCore_wdt (c : Nat) (v : CoreSt) : (s.setCore c v).wdt = s.wdt := rfl
@[simp] theorem setCore_upd (c : Nat) (v : CoreSt) : (s.setCore c v).upd = s.upd := rfl
@[simp] theorem setCore_svc (c : Nat) (v : CoreSt) : (s.setCore c v).svc = s.svc := rfl
@[simp] theorem setCore_bgd (c : Nat) (v : CoreSt) : (s.setCore c v).bgd = s.bgd := rfl
@[simp] theorem setCore_rndQ (c : Nat) (v : CoreSt) : (s.setCore c v).rndQ = s.rndQ := rfl

@[simp] theorem setCtx_pending (c x : Nat) (v : Ctx) : (s.setCtx c x v).pending = s.pending := rfl
@[simp] theorem setCtx_rdata (c x : Nat) (v : Ctx) : (s.setCtx c x v).rdata = s.rdata := rfl
@[simp] theorem setCtx_freeCtr (c x : Nat) (v : Ctx) : (s.setCtx c x v).freeCtr = s.freeCtr := rfl
@[simp] theorem setCtx_now (c x : Nat) (v : Ctx) : (s.setCtx c x v).now = s.now := rfl
@[simp] theorem setCtx_mem (c x : Nat) (v : Ctx) : (s.setCtx c x v).mem = s.mem := rfl
@[simp] theorem setCtx_ecc (c x : Nat) (v : Ctx) : (s.setCtx c x v).ecc = s.ecc := rfl
@[simp] theorem setCtx_regs (c x : Nat) (v : Ctx) : (s.setCtx c x v).regs = s.regs := rfl
@[simp] theorem setCtx_hidden (c x : Nat) (v : Ctx) : (s.setCtx c x v).hidden = s.hidden := rfl
@[simp] theorem setCtx_rbuf (c x : Nat) (v : Ctx) : (s.setCtx c x v).rbuf = s.rbuf := rfl
@[simp] theorem setCtx_stage (c x : Nat) (v : Ctx) : (s.setCtx c x v).stage = s.stage := rfl
@[simp] theorem setCtx_wire (c x : Nat) (v : Ctx) : (s.setCtx c x v).wire = s.wire := rfl
@[simp] theorem setCtx_evt (c x : Nat) (v : Ctx) : (s.setCtx c x v).evt = s.evt := rfl
@[simp] theorem setCtx_sys (c x : Nat) (v : Ctx) : (s.setCtx c x v).sys = s.sys := rfl
@[simp] theorem setCtx_pwr (c x : Nat) (v : Ctx) : (s.setCtx c x v).pwr = s.pwr := rfl
@[simp] theorem setCtx_fns (c x : Nat) (v : Ctx) : (s.setCtx c x v).fns = s.fns := rfl
@[simp] theorem setCtx_softRst (c x : Nat) (v : Ctx) : (s.setCtx c x v).softRst = s.softRst := rfl
@[simp] theorem setCtx_cores (c x : Nat) (v : Ctx) : (s.setCtx c x v).cores = s.cores := rfl
@[simp] theorem setCtx_svrel (c x : Nat) (v : Ctx) : (s.setCtx c x v).svrel = s.svrel := rfl
@[simp] theorem setCtx_svflt (c x : Nat) (v : Ctx) : (s.setCtx c x v).svflt = s.svflt := rfl
@[simp] theorem setCtx_scn (c x : Nat) (v : Ctx) : (s.setCtx c x v).scn = s.scn := rfl
@[simp] theorem setCtx_arbs (c x : Nat) (v : Ctx) : (s.setCtx c x v).arbs = s.arbs := rfl
@[simp] theorem setCtx_img (c x : Nat) (v : Ctx) : (s.setCtx c x v).img = s.img := rfl
@[simp] theorem setCtx_tmc (c x : Nat) (v : Ctx) : (s.setCtx c x v).tmc = s.tmc := rfl
@[simp] theorem setCtx_grf (c x : Nat) (v : Ctx) : (s.setCtx c x v).grf = s.grf := rfl
@[simp] theorem setCtx_tim (c x : Nat) (v : Ctx) : (s.setCtx c x v).tim = s.tim := rfl
@[simp] theorem setCtx_tci (c x : Nat) (v : Ctx) : (s.setCtx c x v).tci = s.tci := rfl
@[simp] theorem setCtx_tciNext (c x : Nat) (v : Ctx) : (s.setCtx c x v).tciNext = s.tciNext := rfl
@[simp] theorem setCtx_tpo (c x : Nat) (v : Ctx) : (s.setCtx c x v).tpo = s.tpo := rfl
@[simp] theorem setCtx_txts (c x : Nat) (v : Ctx) : (s.setCtx c x v).txts = s.txts := rfl
@[simp] theorem setCtx_rtc (c x : Nat) (v : Ctx) : (s.setCtx c x v).rtc = s.rtc := rfl
@[simp] theorem setCtx_vuv (c x : Nat) (v : Ctx) : (s.setCtx c x v).vuv = s.vuv := rfl
@[simp] theorem setCtx_stn (c x : Nat) (v : Ctx) : (s.setCtx c x v).stn = s.stn := rfl
@[simp] theorem setCtx_twn (c x : Nat) (v : Ctx) : (s.setCtx c x v).twn = s.twn := rfl
@[simp] theorem setCtx_can (c x : Nat) (v : Ctx) : (s.setCtx c x v).can = s.can := rfl
@[simp] theorem setCtx_rind (c x : Nat) (v : Ctx) : (s.setCtx c x v).rind = s.rind := rfl
@[simp] theorem setCtx_keep (c x : Nat) (v : Ctx) : (s.setCtx c x v).keep = s.keep := rfl
@[simp] theorem setCtx_wdt (c x : Nat) (v : Ctx) : (s.setCtx c x v).wdt = s.wdt := rfl
@[simp] theorem setCtx_upd (c x : Nat) (v : Ctx) : (s.setCtx c x v).upd = s.upd := rfl
@[simp] theorem setCtx_svc (c x : Nat) (v : Ctx) : (s.setCtx c x v).svc = s.svc := rfl
@[simp] theorem setCtx_bgd (c x : Nat) (v : Ctx) : (s.setCtx c x v).bgd = s.bgd := rfl
@[simp] theorem setCtx_rndQ (c x : Nat) (v : Ctx) : (s.setCtx c x v).rndQ = s.rndQ := rfl

@[simp] theorem setCx_pending (c : Nat) (v : Ctx) : (s.setCx c v).pending = s.pending := rfl
@[simp] theorem setCx_rdata (c : Nat) (v : Ctx) : (s.setCx c v).rdata = s.rdata := rfl
@[simp] theorem setCx_freeCtr (c : Nat) (v : Ctx) : (s.setCx c v).freeCtr = s.freeCtr := rfl
@[simp] theorem setCx_now (c : Nat) (v : Ctx) : (s.setCx c v).now = s.now := rfl
@[simp] theorem setCx_mem (c : Nat) (v : Ctx) : (s.setCx c v).mem = s.mem := rfl
@[simp] theorem setCx_ecc (c : Nat) (v : Ctx) : (s.setCx c v).ecc = s.ecc := rfl
@[simp] theorem setCx_regs (c : Nat) (v : Ctx) : (s.setCx c v).regs = s.regs := rfl
@[simp] theorem setCx_hidden (c : Nat) (v : Ctx) : (s.setCx c v).hidden = s.hidden := rfl
@[simp] theorem setCx_rbuf (c : Nat) (v : Ctx) : (s.setCx c v).rbuf = s.rbuf := rfl
@[simp] theorem setCx_stage (c : Nat) (v : Ctx) : (s.setCx c v).stage = s.stage := rfl
@[simp] theorem setCx_wire (c : Nat) (v : Ctx) : (s.setCx c v).wire = s.wire := rfl
@[simp] theorem setCx_evt (c : Nat) (v : Ctx) : (s.setCx c v).evt = s.evt := rfl
@[simp] theorem setCx_sys (c : Nat) (v : Ctx) : (s.setCx c v).sys = s.sys := rfl
@[simp] theorem setCx_pwr (c : Nat) (v : Ctx) : (s.setCx c v).pwr = s.pwr := rfl
@[simp] theorem setCx_fns (c : Nat) (v : Ctx) : (s.setCx c v).fns = s.fns := rfl
@[simp] theorem setCx_softRst (c : Nat) (v : Ctx) : (s.setCx c v).softRst = s.softRst := rfl
@[simp] theorem setCx_cores (c : Nat) (v : Ctx) : (s.setCx c v).cores = s.cores := rfl
@[simp] theorem setCx_svrel (c : Nat) (v : Ctx) : (s.setCx c v).svrel = s.svrel := rfl
@[simp] theorem setCx_svflt (c : Nat) (v : Ctx) : (s.setCx c v).svflt = s.svflt := rfl
@[simp] theorem setCx_scn (c : Nat) (v : Ctx) : (s.setCx c v).scn = s.scn := rfl
@[simp] theorem setCx_arbs (c : Nat) (v : Ctx) : (s.setCx c v).arbs = s.arbs := rfl
@[simp] theorem setCx_img (c : Nat) (v : Ctx) : (s.setCx c v).img = s.img := rfl
@[simp] theorem setCx_tmc (c : Nat) (v : Ctx) : (s.setCx c v).tmc = s.tmc := rfl
@[simp] theorem setCx_grf (c : Nat) (v : Ctx) : (s.setCx c v).grf = s.grf := rfl
@[simp] theorem setCx_tim (c : Nat) (v : Ctx) : (s.setCx c v).tim = s.tim := rfl
@[simp] theorem setCx_tci (c : Nat) (v : Ctx) : (s.setCx c v).tci = s.tci := rfl
@[simp] theorem setCx_tciNext (c : Nat) (v : Ctx) : (s.setCx c v).tciNext = s.tciNext := rfl
@[simp] theorem setCx_tpo (c : Nat) (v : Ctx) : (s.setCx c v).tpo = s.tpo := rfl
@[simp] theorem setCx_txts (c : Nat) (v : Ctx) : (s.setCx c v).txts = s.txts := rfl
@[simp] theorem setCx_rtc (c : Nat) (v : Ctx) : (s.setCx c v).rtc = s.rtc := rfl
@[simp] theorem setCx_vuv (c : Nat) (v : Ctx) : (s.setCx c v).vuv = s.vuv := rfl
@[simp] theorem setCx_stn (c : Nat) (v : Ctx) : (s.setCx c v).stn = s.stn := rfl
@[simp] theorem setCx_twn (c : Nat) (v : Ctx) : (s.setCx c v).twn = s.twn := rfl
@[simp] theorem setCx_can (c : Nat) (v : Ctx) : (s.setCx c v).can = s.can := rfl
@[simp] theorem setCx_rind (c : Nat) (v : Ctx) : (s.setCx c v).rind = s.rind := rfl
@[simp] theorem setCx_keep (c : Nat) (v : Ctx) : (s.setCx c v).keep = s.keep := rfl
@[simp] theorem setCx_wdt (c : Nat) (v : Ctx) : (s.setCx c v).wdt = s.wdt := rfl
@[simp] theorem setCx_upd (c : Nat) (v : Ctx) : (s.setCx c v).upd = s.upd := rfl
@[simp] theorem setCx_svc (c : Nat) (v : Ctx) : (s.setCx c v).svc = s.svc := rfl
@[simp] theorem setCx_bgd (c : Nat) (v : Ctx) : (s.setCx c v).bgd = s.bgd := rfl
@[simp] theorem setCx_rndQ (c : Nat) (v : Ctx) : (s.setCx c v).rndQ = s.rndQ := rfl

@[simp] theorem send_pending (i : TxItem) : (s.send i).pending = s.pending := rfl
@[simp] theorem send_rdata (i : TxItem) : (s.send i).rdata = s.rdata := rfl
@[simp] theorem send_freeCtr (i : TxItem) : (s.send i).freeCtr = s.freeCtr := rfl
@[simp] theorem send_now (i : TxItem) : (s.send i).now = s.now := rfl
@[simp] theorem send_mem (i : TxItem) : (s.send i).mem = s.mem := rfl
@[simp] theorem send_ecc (i : TxItem) : (s.send i).ecc = s.ecc := rfl
@[simp] theorem send_regs (i : TxItem) : (s.send i).regs = s.regs := rfl
@[simp] theorem send_hidden (i : TxItem) : (s.send i).hidden = s.hidden := rfl
@[simp] theorem send_rbuf (i : TxItem) : (s.send i).rbuf = s.rbuf := rfl
@[simp] theorem send_stage (i : TxItem) : (s.send i).stage = s.stage := rfl
@[simp] theorem send_evt (i : TxItem) : (s.send i).evt = s.evt := rfl
@[simp] theorem send_sys (i : TxItem) : (s.send i).sys = s.sys := rfl
@[simp] theorem send_pwr (i : TxItem) : (s.send i).pwr = s.pwr := rfl
@[simp] theorem send_fns (i : TxItem) : (s.send i).fns = s.fns := rfl
@[simp] theorem send_softRst (i : TxItem) : (s.send i).softRst = s.softRst := rfl
@[simp] theorem send_cores (i : TxItem) : (s.send i).cores = s.cores := rfl
@[simp] theorem send_ctxs (i : TxItem) : (s.send i).ctxs = s.ctxs := rfl
@[simp] theorem send_svrel (i : TxItem) : (s.send i).svrel = s.svrel := rfl
@[simp] theorem send_svflt (i : TxItem) : (s.send i).svflt = s.svflt := rfl
@[simp] theorem send_scn (i : TxItem) : (s.send i).scn = s.scn := rfl
@[simp] theorem send_arbs (i : TxItem) : (s.send i).arbs = s.arbs := rfl
@[simp] theorem send_img (i : TxItem) : (s.send i).img = s.img := rfl
@[simp] theorem send_tmc (i : TxItem) : (s.send i).tmc = s.tmc := rfl
@[simp] theorem send_grf (i : TxItem) : (s.send i).grf = s.grf := rfl
@[simp] theorem send_tim (i : TxItem) : (s.send i).tim = s.tim := rfl
@[simp] theorem send_tci (i : TxItem) : (s.send i).tci = s.tci := rfl
@[simp] theorem send_tciNext (i : TxItem) : (s.send i).tciNext = s.tciNext := rfl
@[simp] theorem send_tpo (i : TxItem) : (s.send i).tpo = s.tpo := rfl
@[simp] theorem send_txts (i : TxItem) : (s.send i).txts = s.txts := rfl
@[simp] theorem send_rtc (i : TxItem) : (s.send i).rtc = s.rtc := rfl
@[simp] theorem send_vuv (i : TxItem) : (s.send i).vuv = s.vuv := rfl
@[simp] theorem send_stn (i : TxItem) : (s.send i).stn = s.stn := rfl
@[simp] theorem send_twn (i : TxItem) : (s.send i).twn = s.twn := rfl
@[simp] theorem send_can (i : TxItem) : (s.send i).can = s.can := rfl
@[simp] theorem send_rind (i : TxItem) : (s.send i).rind = s.rind := rfl
@[simp] theorem send_keep (i : TxItem) : (s.send i).keep = s.keep := rfl
@[simp] theorem send_wdt (i : TxItem) : (s.send i).wdt = s.wdt := rfl
@[simp] theorem send_upd (i : TxItem) : (s.send i).upd = s.upd := rfl
@[simp] theorem send_svc (i : TxItem) : (s.send i).svc = s.svc := rfl
@[simp] theorem send_bgd (i : TxItem) : (s.send i).bgd = s.bgd := rfl
@[simp] theorem send_rndQ (i : TxItem) : (s.send i).rndQ = s.rndQ := rfl

@[simp] theorem free_pending : (s.free.2).pending = s.pending := rfl
@[simp] theorem free_rdata : (s.free.2).rdata = s.rdata := rfl
@[simp] theorem free_now : (s.free.2).now = s.now := rfl
@[simp] theorem free_mem : (s.free.2).mem = s.mem := rfl
@[simp] theorem free_ecc : (s.free.2).ecc = s.ecc := rfl
@[simp] theorem free_regs : (s.free.2).regs = s.regs := rfl
@[simp] theorem free_hidden : (s.free.2).hidden = s.hidden := rfl
@[simp] theorem free_rbuf : (s.free.2).rbuf = s.rbuf := rfl
@[simp] theorem free_stage : (s.free.2).stage = s.stage := rfl
@[simp] theorem free_wire : (s.free.2).wire = s.wire := rfl
@[simp] theorem free_evt : (s.free.2).evt = s.evt := rfl
@[simp] theorem free_sys : (s.free.2).sys = s.sys := rfl
@[simp] theorem free_pwr : (s.free.2).pwr = s.pwr := rfl
@[simp] theorem free_fns : (s.free.2).fns = s.fns := rfl
@[simp] theorem free_softRst : (s.free.2).softRst = s.softRst := rfl
@[simp] theorem free_cores : (s.free.2).cores = s.cores := rfl
@[simp] theorem free_ctxs : (s.free.2).ctxs = s.ctxs := rfl
@[simp] theorem free_svrel : (s.free.2).svrel = s.svrel := rfl
@[simp] theorem free_svflt : (s.free.2).svflt = s.svflt := rfl
@[simp] theorem free_scn : (s.free.2).scn = s.scn := rfl
@[simp] theorem free_arbs : (s.free.2).arbs = s.arbs := rfl
@[simp] theorem free_img : (s.free.2).img = s.img := rfl
@[simp] theorem free_tmc : (s.free.2).tmc = s.tmc := rfl
@[simp] theorem free_grf : (s.free.2).grf = s.grf := rfl
@[simp] theorem free_tim : (s.free.2).tim = s.tim := rfl
@[simp] theorem free_tci : (s.free.2).tci = s.tci := rfl
@[simp] theorem free_tciNext : (s.free.2).tciNext = s.tciNext := rfl
@[simp] theorem free_tpo : (s.free.2).tpo = s.tpo := rfl
@[simp] theorem free_txts : (s.free.2).txts = s.txts := rfl
@[simp] theorem free_rtc : (s.free.2).rtc = s.rtc := rfl
@[simp] theorem free_vuv : (s.free.2).vuv = s.vuv := rfl
@[simp] theorem free_stn : (s.free.2).stn = s.stn := rfl
@[simp] theorem free_twn : (s.free.2).twn = s.twn := rfl
@[simp] theorem free_can : (s.free.2).can = s.can := rfl
@[simp] theorem free_rind : (s.free.2).rind = s.rind := rfl
@[simp] theorem free_keep : (s.free.2).keep = s.keep := rfl
@[simp] theorem free_wdt : (s.free.2).wdt = s.wdt := rfl
@[simp] theorem free_upd : (s.free.2).upd = s.upd := rfl
@[simp] theorem free_svc : (s.free.2).svc = s.svc := rfl
@[simp] theorem free_bgd : (s.free.2).bgd = s.bgd := rfl
@[simp] theorem free_rndQ : (s.free.2).rndQ = s.rndQ := rfl

/-! ## Reading after writing -/

@[simp] theorem reg_setReg (k j : Nat) (v : Word) : (s.setReg k v).reg j = if j = k then v else s.reg j := Sparse.get_set _ _ _ _ _
theorem reg_setReg_same (k : Nat) (v : Word) : (s.setReg k v).reg k = v := by simp
theorem reg_setReg_ne {k j : Nat} (v : Word) (h : j ≠ k) : (s.setReg k v).reg j = s.reg j := by simp [h]
@[simp] theorem reg_setRf (k j hi lo v : Nat) : (s.setRf k hi lo v).reg j = if j = k then setFld (s.reg k) hi lo v else s.reg j := reg_setReg _ _ _ _
@[simp] theorem reg_setRb (k j i : Nat) (b : Bool) : (s.setRb k i b).reg j = if j = k then setFld (s.reg k) i i (bn b) else s.reg j := reg_setReg _ _ _ _
@[simp] theorem rd_wr (k j : Nat) (v : Byte) : (s.wr k v).rd j = if j = k then v else s.rd j := Sparse.get_set _ _ _ _ _
@[simp] theorem core_setCore (c d : Nat) (v : CoreSt) : (s.setCore c v).core d = if d = c then v else s.core d := Sparse.get_set _ _ _ _ _
@[simp] theorem ctx_setCtx (c x d y : Nat) (v : Ctx) : (s.setCtx c x v).ctx d y = if d * 8 + y = c * 8 + x then v else s.ctx d y :=
  Sparse.get_set _ _ _ _ _

theorem reg_of_regs {s t : State} (h : t.regs = s.regs) (k : Nat) : t.reg k = s.reg k := by unfold reg; rw [h]
theorem rd_of_mem {s t : State} (h : t.mem = s.mem) (k : Nat) : t.rd k = s.rd k := by unfold rd; rw [h]
theorem core_of_cores {s t : State} (h : t.cores = s.cores) (k : Nat) : t.core k = s.core k := by unfold core; rw [h]
theorem ctx_of_ctxs {s t : State} (h : t.ctxs = s.ctxs) (k x : Nat) : t.ctx k x = s.ctx k x := by unfold ctx; rw [h]

@[simp] theorem rd_setReg (k j : Nat) (v : Word) : (s.setReg k v).rd j = s.rd j := rfl
@[simp] theorem core_setReg (k j : Nat) (v : Word) : (s.setReg k v).core j = s.core j := rfl
@[simp] theorem ctx_setReg (k j x : Nat) (v : Word) : (s.setReg k v).ctx j x = s.ctx j x := rfl
@[simp] theorem reg_wr (k j : Nat) (v : Byte) : (s.wr k v).reg j = s.reg j := rfl
@[simp] theorem core_wr (k j : Nat) (v : Byte) : (s.wr k v).core j = s.core j := rfl
@[simp] theorem ctx_wr (k j x : Nat) (v : Byte) : (s.wr k v).ctx j x = s.ctx j x := rfl
@[simp] theorem reg_setCore (c j : Nat) (v : CoreSt) : (s.setCore c v).reg j = s.reg j := rfl
@[simp] theorem rd_setCore (c j : Nat) (v : CoreSt) : (s.setCore c v).rd j = s.rd j := rfl
@[simp] theorem ctx_setCore (c j x : Nat) (v : CoreSt) : (s.setCore c v).ctx j x = s.ctx j x := rfl
@[simp] theorem reg_setCtx (c x j : Nat) (v : Ctx) : (s.setCtx c x v).reg j = s.reg j := rfl
@[simp] theorem rd_setCtx (c x j : Nat) (v : Ctx) : (s.setCtx c x v).rd j = s.rd j := rfl
@[simp] theorem core_setCtx (c x j : Nat) (v : Ctx) : (s.setCtx c x v).core j = s.core j := rfl
@[simp] theorem reg_send (j : Nat) (i : TxItem) : (s.send i).reg j = s.reg j := rfl
@[simp] theorem rd_send (j : Nat) (i : TxItem) : (s.send i).rd j = s.rd j := rfl
@[simp] theorem send_wire (i : TxItem) : (s.send i).wire = s.wire ++ [i] := rfl
@[simp] theorem reg_free (j : Nat) : s.free.2.reg j = s.reg j := rfl
@[simp] theorem rd_free (j : Nat) : s.free.2.rd j = s.rd j := rfl

/-! ## Fields of words -/

end State

/-- A bit of a field. -/
theorem fld_testBit (w : Word) (hi lo i : Nat) : (fld w hi lo).testBit i = (decide (i < hi + 1 - lo) && w.getLsbD (lo + i)) := by
  unfold fld
  rw [Nat.testBit_mod_two_pow, Nat.testBit_div_two_pow, BitVec.testBit_toNat, Nat.add_comm i lo]

/-- A bit of a word after a store to a field. -/
theorem setFld_getLsbD (w : Word) (hi lo v j : Nat) : (setFld w hi lo v).getLsbD j =
    (if lo ≤ j ∧ j < hi + 1 then decide (j < 32) && v.testBit (j - lo) else w.getLsbD j) := by
  unfold setFld
  simp only [BitVec.getLsbD_or, BitVec.getLsbD_and, BitVec.getLsbD_not, BitVec.getLsbD_ofNat, Nat.testBit_mul_two_pow, Nat.testBit_two_pow_sub_one, Nat.testBit_mod_two_pow]
  by_cases h32 : j < 32
  · by_cases h1 : lo ≤ j
    · by_cases h2 : j < hi + 1
      · have : j - lo < hi + 1 - lo := by omega
        simp [h32, h1, h2, this]
      · have : ¬ j - lo < hi + 1 - lo := by omega
        simp [h32, h1, h2, this]
    · simp [h32, h1]
  · have : w.getLsbD j = false := by simp [BitVec.getLsbD_of_ge _ _ (Nat.le_of_not_lt h32)]
    simp [h32, this]

/-- A field reads as what was stored in it, modulo its size. -/
theorem fld_setFld (w : Word) (hi lo v : Nat) (h32 : hi < 32) : fld (setFld w hi lo v) hi lo = v % 2 ^ (hi + 1 - lo) := by
  apply Nat.eq_of_testBit_eq
  intro i
  rw [fld_testBit, setFld_getLsbD, Nat.testBit_mod_two_pow]
  by_cases h : i < hi + 1 - lo
  · have h1 : lo + i < hi + 1 := by omega
    have h2 : lo + i < 32 := by omega
    simp [h, h1, h2]
  · simp [h]

/-- A field that a store does not touch reads as before. -/
theorem fld_setFld_ne (w : Word) (hi lo v a b : Nat) (h : a < lo ∨ hi < b) : fld (setFld w hi lo v) a b = fld w a b := by
  apply Nat.eq_of_testBit_eq
  intro i
  rw [fld_testBit, fld_testBit, setFld_getLsbD]
  by_cases hi' : i < a + 1 - b
  · have : ¬ (lo ≤ b + i ∧ b + i < hi + 1) := by omega
    have : ¬ (lo ≤ b + i ∧ b + i ≤ hi) := by omega
    simp [*]
  · simp [hi']
end Sys2Proof.Machine
end

