-- ==== Sys2Proof/Laws/Events.lean ====
section
/-! SUPPORT. What an occurrence of an event changes, and nothing else (02 R67–R72). -/

-- one declaration at a time: many at once take a thread and its stack each
set_option Elab.async false

namespace Sys2Proof.Machine

namespace Only

theorem refl (s : State) (R : List Nat) : Only s s R := ⟨fun _ _ _ => rfl, rfl⟩

/-- The fields of the first state that `Only` leaves alone, put into the second. -/
theorem eq {s t : State} {R : List Nat} (h : Only s t R) : t = { s with regs := t.regs, hidden := t.hidden, evt := t.evt, freeCtr := t.freeCtr } := by
  have e := h.rest
  cases s; cases t
  simp only [State.mk.injEq] at e ⊢
  simp_all

theorem trans {s t u : State} {R : List Nat} (h : Only s t R) (k : Only t u R) : Only s u R := by
  refine ⟨fun j hj hl => (k.regs j hj hl).trans (h.regs j hj hl), ?_⟩
  rw [k.eq, h.eq]

theorem mono {s t : State} {R Q : List Nat} (h : Only s t R) (hs : ∀ k ∈ R, k ∈ Q) : Only s t Q :=
  ⟨fun j hj hl => h.regs j (fun hr => hj (hs j hr)) hl, h.rest⟩

theorem setReg (s : State) {k : Nat} {v : Word} {R : List Nat} (hk : k ∈ R) : Only s (s.setReg k v) R :=
  ⟨fun _ hj _ => State.reg_setReg_ne s v (fun h => hj (h ▸ hk)), rfl⟩

theorem setRb (s : State) {k i : Nat} {b : Bool} {R : List Nat} (hk : k ∈ R) : Only s (s.setRb k i b) R := setReg s hk

theorem free (s : State) (R : List Nat) : Only s s.free.2 R := ⟨fun _ _ _ => rfl, rfl⟩

theorem evt (s : State) (e : Evt) (R : List Nat) : Only s { s with evt := e } R := ⟨fun _ _ _ => rfl, rfl⟩

theorem ite {s a b : State} {R : List Nat} {c : Prop} [Decidable c] (ha : Only s a R) (hb : Only s b R) : Only s (if c then a else b) R := by
  split
  · exact ha
  · exact hb

theorem count (s : State) {k n : Nat} {R : List Nat} (hk : k ∈ R ∨ k ∈ lossCounters) : Only s (s.count k n) R := by
  unfold State.count
  refine ite ⟨fun _ _ _ => rfl, rfl⟩ ⟨fun j hj hl => State.reg_setReg_ne s _ fun h => ?_, rfl⟩
  subst h
  exact hk.elim hj hl

theorem foldl {β : Type} {s a : State} {l : List β} {f : State → β → State} {R : List Nat} (ha : Only s a R) (hf : ∀ t b, Only t (f t b) R) :
    Only s (l.foldl f a) R := by
  induction l generalizing a with
  | nil => exact ha
  | cons b l ih => exact ih (ha.trans (hf a b))

end Only

namespace State

theorem offerSlot_only (e : Nat) (d : Word) (q : Half) (n : Nat) (s : State) (R : List Nat) : Only s (offerSlot e d q n s) R := by
  unfold offerSlot
  exact Only.ite (Only.ite (Only.count s (.inr (by simp [lossCounters]))) (Only.evt s _ R)) (Only.refl s R)

theorem forward_only (s : State) (e : Nat) (d : Word) (R : List Nat) : Only s (s.forward e d) R := by
  unfold forward
  lift_lets
  intro seq src u r u1 u2 u3
  have h0 : Only s u R := Only.evt s _ R
  have h1 : Only s u1 R := Only.ite (h0.trans (Only.ite (Only.evt u _ R) (Only.count u (.inr (by simp [lossCounters]))))) h0
  have h2 : Only s u2 R := Only.ite (h1.trans (Only.ite (Only.evt u1 _ R) (Only.count u1 (.inr (by simp [lossCounters]))))) h1
  have h3 : Only s u3 R := Only.ite (h2.trans (Only.ite (Only.foldl (Only.refl _ R) fun t n => offerSlot_only _ _ _ n t R) (Only.refl _ R))) h2
  exact Only.ite (h3.trans (Only.evt u3 _ R)) h3

theorem raise_only (s : State) (e d : Nat) {R : List Nat} (hR : rawReg e ∈ R) : Only s (s.raise e d) R := by
  unfold raise
  exact Only.ite (Only.refl s R) (Only.ite ((Only.setRb s hR).trans (forward_only _ _ _ R)) (Only.setRb s hR))

theorem raiseFree_only (s : State) (e : Nat) {R : List Nat} (hR : rawReg e ∈ R) : Only s (s.raiseFree e) R :=
  (Only.free s R).trans (raise_only _ _ _ hR)

theorem rawReg_not_loss (e : Nat) : rawReg e ∉ lossCounters := by
  simp only [rawReg, lossCounters, List.mem_cons, List.not_mem_nil, or_false, Reg.EVT_RAW, Reg.page, Reg.EVT_TASK_OVR, Reg.EVT_LOG_DROP, Reg.EVT_STW_OVF]
  omega

theorem setFld_bit_mono (w : Word) (i j : Nat) (h : fld w j j = 1) : fld (setFld w i i 1) j j = 1 := by
  by_cases hij : j = i
  · subst hij
    apply Nat.eq_of_testBit_eq
    intro n
    have hw := congrArg (Nat.testBit · 0) h
    simp only [fld_testBit, setFld_getLsbD] at hw ⊢
    cases n with
    | zero =>
      simp at hw ⊢
      exact (BitVec.lt_of_getLsbD hw)
    | succ n => simp [Nat.testBit_succ]
  · rw [fld_setFld_ne _ _ _ _ _ _ (by omega), h]

/-- An occurrence while the core clock runs sets its EVT_RAW bit (02 R67, 03 R124). -/
theorem raise_raw (s : State) (e d : Nat) (hc : s.pwr.coreRun = true) (h : e - (pageInfo (evPage e)).ev < 32) : raw (s.raise e d) e = true := by
  have key : ∀ t : State, (∀ k, k ∉ lossCounters → t.reg k = (s.setRb (rawReg e) (e - (pageInfo (evPage e)).ev) true).reg k) → raw t e = true := by
    intro t ht
    unfold raw rb rf
    rw [ht _ (rawReg_not_loss e)]
    simp [fld_setFld _ _ _ _ h, bn]
  unfold raise
  rw [if_neg (by simp [hc])]
  dsimp only
  split
  · exact key _ fun k hk => (forward_only _ _ _ []).regs k (by simp) hk
  · exact key _ fun k _ => rfl

/-- An occurrence of another event leaves an EVT_RAW bit set. -/
theorem raise_raw_mono (s : State) (e d f : Nat) (h : raw s f = true) : raw (s.raise e d) f = true := by
  have key : ∀ t : State, (∀ k, k ∉ lossCounters → t.reg k = (s.setRb (rawReg e) (e - (pageInfo (evPage e)).ev) true).reg k) → raw t f = true := by
    intro t ht
    unfold raw rb rf at h ⊢
    rw [ht _ (rawReg_not_loss f), reg_setRb]
    simp only [beq_iff_eq] at h ⊢
    split
    · rename_i he
      rw [he] at h
      exact setFld_bit_mono _ _ _ h
    · exact h
  unfold raise
  split
  · exact h
  dsimp only
  split
  · exact key _ fun k hk => (forward_only _ _ _ []).regs k (by simp) hk
  · exact key _ fun k _ => rfl

end State
end Sys2Proof.Machine
end

