-- ==== Sys2Proof/Laws/Commands.lean ====
section
/-! SUPPORT. What a register command leaves alone beside its own effect. -/

-- one declaration at a time: many at once take a thread and its stack each
set_option Elab.async false

set_option linter.all false

namespace Sys2Proof.Machine

namespace Did

theorem eq {s t : State} {R : List Nat} (h : Did s t R) :
    t = { s with regs := t.regs, hidden := t.hidden, evt := t.evt, freeCtr := t.freeCtr, stage := t.stage, twn := t.twn } := by
  have e := h.rest
  cases s; cases t
  simp only [State.mk.injEq] at e ⊢
  simp_all

theorem refl (s : State) (R : List Nat) : Did s s R := ⟨fun _ _ _ _ => rfl, rfl⟩

theorem trans {s t u : State} {R : List Nat} (h : Did s t R) (k : Did t u R) : Did s u R := by
  refine ⟨fun j hj hl hc => (k.regs j hj hl hc).trans (h.regs j hj hl hc), ?_⟩
  rw [k.eq, h.eq]

theorem mono {s t : State} {R Q : List Nat} (h : Did s t R) (hs : ∀ k ∈ R, k ∈ Q) : Did s t Q :=
  ⟨fun j hj hl hc => h.regs j (fun hr => hj (hs j hr)) hl hc, h.rest⟩

theorem ofOnly {s t : State} {R : List Nat} (h : Only s t R) : Did s t R := by
  refine ⟨fun j hj hl _ => h.regs j hj hl, ?_⟩
  have := h.eq
  generalize t.regs = A, t.hidden = B, t.evt = C, t.freeCtr = D at this
  subst this
  rfl

theorem setReg (s : State) {k : Nat} {v : Word} {R : List Nat} (hk : k ∈ R) : Did s (s.setReg k v) R := ofOnly (Only.setReg s hk)
theorem setRb (s : State) {k i : Nat} {b : Bool} {R : List Nat} (hk : k ∈ R) : Did s (s.setRb k i b) R := setReg s hk
theorem setRf (s : State) {k h l v : Nat} {R : List Nat} (hk : k ∈ R) : Did s (s.setRf k h l v) R := setReg s hk
theorem raise (s : State) {e n : Nat} {R : List Nat} (hk : rawReg e ∈ R) : Did s (s.raise e n) R := ofOnly (State.raise_only s e n hk)
theorem raiseFree (s : State) {e : Nat} {R : List Nat} (hk : rawReg e ∈ R) : Did s (s.raiseFree e) R := ofOnly (State.raiseFree_only s e hk)
theorem free (s : State) (R : List Nat) : Did s s.free.2 R := ofOnly (Only.free s R)
theorem wign (s : State) {p : Nat} {R : List Nat} (hk : Reg.PAGE_STAT p ∈ R) : Did s (s.wign p) R := setReg s hk
theorem count (s : State) {k n : Nat} {R : List Nat} (hk : k ∈ R) : Did s (s.count k n) R := ofOnly (Only.count s (.inl hk))
theorem ite {s a b : State} {R : List Nat} {c : Prop} [Decidable c] (ha : Did s a R) (hb : Did s b R) : Did s (if c then a else b) R := by
  split
  · exact ha
  · exact hb

end Did

namespace State

theorem fcRestart_did (s : State) (n : Nat) (R : List Nat) : Did s (s.fcRestart n) R := by
  unfold fcRestart
  split
  · exact Did.refl s R
  · dsimp only
    have h := raise_only (s.setRf Reg.TWN_STAT 10 8 0) 104 n (R := [rawReg 104]) (by simp)
    generalize (s.setRf Reg.TWN_STAT 10 8 0).raise 104 n = t at h ⊢
    refine ⟨fun j hj hl hc => ?_, ?_⟩
    · show t.reg j = _
      rw [h.regs j (fun hm => hc (by simp [copyMarks] at hm ⊢; exact .inr hm)) hl]
      exact reg_setReg_ne s _ fun e => hc (by simp [copyMarks, e])
    · have := h.eq
      generalize t.regs = A, t.hidden = B, t.evt = C, t.freeCtr = D at this
      subst this
      rfl

theorem cfgNote_did (s : State) (a : Nat) : Did s (s.cfgNote a) [] := by
  unfold cfgNote
  split
  · dsimp only
    refine Did.trans (t := if _ then _ else _) ?_ (fcRestart_did _ _ _)
    exact Did.ite ⟨fun _ _ _ _ => rfl, rfl⟩ (Did.refl s [])
  · exact Did.refl s []

theorem stageLoad_did (s : State) (n a : Nat) (t : Target) : Did s (s.stageLoad n a t) [] := by
  have h : ∀ x, Did s { s with stage := x } [] := fun x => ⟨fun _ _ _ _ => rfl, rfl⟩
  unfold stageLoad
  exact h _

theorem any_some {α : Type} {o : Option α} {p : α → Bool} (h : o.any p = true) : ∃ t, o = some t ∧ p t = true := by
  cases o with
  | none => simp at h
  | some t => exact ⟨t, rfl, by simpa using h⟩

theorem region_page {a : Nat} (h : 0x01000000 ≤ a ∧ a < 0x01025000) :
    region a = some ⟨(a - 0x01000000) / 0x1000, (pageInfo ((a - 0x01000000) / 0x1000)).dom, true, false⟩ := by
  simp only [region, if_pos h]

theorem check_page (s : State) {ag : Agent} {a n dm : Nat} {t : Target} (hr : region a = some ⟨n, dm, true, false⟩) (hk : s.pwr.coreRun = true)
    (hd : s.domOn dm = true) (hu : (ag == Agent.debug && s.rb Reg.FUS_CTRL 1) = false)
    (ho : s.bootGrant ag a true = true ∨ (s.bootWindow ag = false ∧ s.rb (Reg.OWNER n) (rightBits ag).2 = true))
    (ht : target n (a % 0x1000 / 4 * 4) = some t) : s.check ag a true = .pass := by
  unfold check
  rcases ho with ho | ⟨hb, ho⟩
  · simp only [hk, hr, hd, Bool.not_true, Bool.false_eq_true, if_false, ho, Bool.true_or, ht, Option.isNone_some, Bool.and_false]
  · simp only [hk, hr, hd, Bool.not_true, Bool.false_eq_true, if_false, hu, hb, ho, Bool.not_false, Bool.true_and, if_true, ht, Option.isNone_some, Bool.or_true,
      Bool.and_false]

theorem regChecks_page (s : State) {ag : Agent} {a n : Nat} {t : Target} (f : State → State) (hc : s.check ag a true = .pass) (hn : (a - 0x01000000) / 0x1000 = n)
    (hs : s.serviceOk ag n = true) (ht : target n (a % 0x1000 / 4 * 4) = some t) (hx : ((t.row.stone && ag != .steward) || (s.shut && s.inCfgSet a)) = false) :
    s.regChecks ag a f = f s := by
  unfold regChecks guarded
  simp only [hc, hn, hs, ht, hx, Bool.not_true, Bool.false_eq_true, if_false]

theorem serviceOk_of {s : State} {ag : Agent} {n : Nat} (h : s.mode ≠ Mode.service ∨ ag = .steward ∨ n ∈ [0x00, 0x19, 0x1A, 0x1B, 0x17, 0x18]) :
    s.serviceOk ag n = true := by
  unfold serviceOk
  rcases h with h | h | h
  · simp [h]
  · simp [h]
  · rw [List.contains_iff_mem.mpr h]; simp

/-- A write that passes runs its effect. -/
theorem regChecks_of (s : State) {ag : Agent} {a : Nat} (h : Writes s ag a) (f : State → State) : s.regChecks ag a f = f s := by
  have hp : a % 0x1000 / 4 * 4 = a % 0x1000 := by have := h.inPage.2.2; omega
  have hreg := region_page ⟨h.inPage.1, h.inPage.2.1⟩
  have h1 := h.power; have h2 := h.right; have h3 := h.service; have h4 := h.exists'
  generalize hn : (a - 0x01000000) / 0x1000 = n at hreg h1 h2 h3 h4
  obtain ⟨t, ht, hst⟩ := any_some h4
  rw [← hp] at ht
  refine regChecks_page s f (check_page s hreg h.clock h1 ?_ h2 ht) hn (serviceOk_of h3) ht ?_
  · by_cases hd : ag = .debug
    · simp [h.unlocked hd]
    · simp [hd]
  · rcases h.standby with h | h
    · rw [h]; cases hx : t.row.stone <;> simp_all
    · rw [h]; cases hx : t.row.stone <;> simp_all

theorem regWrite_of (s : State) {ag : Agent} {a : Nat} (h : Writes s ag a) (f : State → State) : Did (f s) (s.regWrite ag a f) [] := by
  unfold regWrite
  rw [regChecks_of s h]
  obtain ⟨t, ht, _⟩ := any_some h.exists'
  dsimp only
  rw [ht]
  dsimp only
  split
  · exact cfgNote_did _ _
  · exact (cfgNote_did _ _).trans (stageLoad_did _ _ _ _)

end State
end Sys2Proof.Machine
end

