-- ==== Sys2Proof/Laws/Cores.lean ====
section
/-! SUPPORT. What an executed Limlis instruction does to its core and leaves alone elsewhere. -/

-- one declaration at a time: many at once take a thread and its stack each
set_option Elab.async false

namespace Sys2Proof.Machine
namespace State
variable (s : State)

/-- From `s` to `t` only arbiters change, and only what lane `c` itself holds of them. -/
structure ArbsOf (c : Nat) (s t : State) : Prop where
  rest : { t with arbs := s.arbs } = s
  own : ∀ j, (s.arb j).owner.any (· != c) = false → (t.arb j).owner.any (· != c) = false

theorem ArbsOf.refl (c : Nat) : ArbsOf c s s := ⟨rfl, fun _ h => h⟩

theorem ArbsOf.trans {c : Nat} {s t u : State} (h : ArbsOf c s t) (k : ArbsOf c t u) : ArbsOf c s u :=
  ⟨by rw [show ({ u with arbs := s.arbs } : State) = { ({ u with arbs := t.arbs } : State) with arbs := s.arbs } from rfl, k.rest, h.rest], fun j e => k.own j (h.own j e)⟩

theorem ArbsOf.core {c : Nat} {s t : State} (h : ArbsOf c s t) (d : Nat) : t.core d = s.core d := core_of_cores (by rw [← h.rest]) d
theorem ArbsOf.ctx {c : Nat} {s t : State} (h : ArbsOf c s t) (d x : Nat) : t.ctx d x = s.ctx d x := ctx_of_ctxs (by rw [← h.rest]) d x
theorem ArbsOf.eq {c : Nat} {s t : State} (h : ArbsOf c s t) : t = { s with arbs := t.arbs } := by rw [← h.rest]

theorem setArb_owner (c i : Nat) (o : Option Nat) (ho : o = none ∨ o = some c) : ArbsOf c s (s.setArb i { s.arb i with owner := o }) := by
  refine ⟨rfl, fun j h => ?_⟩
  unfold setArb arb
  dsimp only
  rw [Sparse.get_set]
  split
  · rcases ho with e | e <;> simp [e]
  · exact h

theorem foldArb_owner (c : Nat) (o : Option Nat) (ho : o = none ∨ o = some c) (l : List Nat) :
    ArbsOf c s (l.foldl (fun (t : State) i => t.setArb i { t.arb i with owner := o }) s) := by
  induction l generalizing s with
  | nil => exact .refl s c
  | cons i l ih => exact (setArb_owner s c i o ho).trans (ih _)

/-- The arbiters that a lane holds change, and no other's. -/
theorem ownOnly_arbs (c : Nat) (ids : List Nat) : ArbsOf c s (s.ownOnly c ids) := by
  unfold ownOnly
  dsimp only
  exact (foldArb_owner s c none (.inl rfl) _).trans (foldArb_owner _ c (some c) (.inr rfl) _)

theorem keepBeats_arbs (c : Nat) (left : Bool) (id : Option Nat) : ArbsOf c s (s.keepBeats c left id) := ownOnly_arbs s c _

/-- Ending a lock touches the lock and the arbiters. -/
theorem endLock_arbs (p x : Nat) : ArbsOf p (s.setCtx p x { s.ctx p x with lock := none }) (s.endLock p x) ∨ ((s.ctx p x).lock = none ∧ s.endLock p x = s) := by
  unfold endLock
  dsimp only
  split
  · rename_i h; exact .inr ⟨h, rfl⟩
  · split
    · exact .inl (.refl _ p)
    · exact .inl (ownOnly_arbs _ p _)

@[simp] theorem endLock_core (p x d : Nat) : (s.endLock p x).core d = s.core d := by
  rcases endLock_arbs s p x with h | ⟨_, h⟩
  · rw [h.core]; rfl
  · rw [h]

theorem endLock_ctx (p x d y : Nat) : (s.endLock p x).ctx d y = if d * 8 + y = p * 8 + x then { s.ctx d y with lock := none } else s.ctx d y := by
  have hxy : d * 8 + y = p * 8 + x → s.ctx d y = s.ctx p x := fun h => by unfold ctx; rw [h]
  rcases endLock_arbs s p x with h | ⟨e, h⟩
  · rw [h.ctx, ctx_setCtx]
    split
    · rename_i e; rw [hxy e]
    · rfl
  · rw [h]
    split
    · rename_i i
      rw [hxy i]
      rw [show ({ s.ctx p x with lock := none } : Ctx) = { s.ctx p x with lock := (s.ctx p x).lock } by rw [e]]
    · rfl

theorem endLock_rest (p x : Nat) : { s.endLock p x with ctxs := s.ctxs, arbs := s.arbs } = s := by
  rcases endLock_arbs s p x with h | ⟨_, h⟩
  · have e := h.rest
    generalize s.endLock p x = t at e ⊢
    rw [show ({ t with ctxs := s.ctxs, arbs := s.arbs } : State) =
      { ({ t with arbs := (s.setCtx p x { s.ctx p x with lock := none }).arbs } : State) with ctxs := s.ctxs } from rfl, e]
    rfl
  · rw [h]

theorem endLock_own (p x j : Nat) (h : (s.arb j).owner.any (· != p) = false) : ((s.endLock p x).arb j).owner.any (· != p) = false := by
  rcases endLock_arbs s p x with k | ⟨_, k⟩
  · exact k.own j h
  · rw [k]; exact h

theorem cx_def (c : Nat) : s.cx c = s.ctx c (s.core c).cur := rfl

theorem endLock_cx (c : Nat) : (s.endLock c (s.core c).cur).cx c = { s.cx c with lock := none } := by
  rw [cx_def, endLock_core, endLock_ctx]
  simp [cx_def]

theorem only_withScn {s t : State} {R : List Nat} (h : Only s t R) (x : Scn) : Only { s with scn := x } { t with scn := x } R :=
  ⟨h.regs, congrArg (fun u : State => { u with scn := x }) h.rest⟩

/-- HOLD's single step has ended, or nothing has changed (06 R230). -/
theorem stepDone_spec : s.stepDone = s ∨ (s.scn.hold = .step ∧ Only { s with scn := { s.scn with hold := .none } } s.stepDone [Reg.SCN_HOLDSTAT, rawReg 25]) := by
  unfold stepDone
  split
  · rename_i h
    simp only [Bool.and_eq_true, beq_iff_eq] at h
    have h1 : Only s ((s.setRb Reg.SCN_HOLDSTAT 24 false).setRf Reg.SCN_HOLDSTAT 0 0 (bn (!s.scn.interrupted))) [Reg.SCN_HOLDSTAT, rawReg 25] :=
      (Only.setReg s (.head _)).trans (Only.setReg _ (.head _))
    exact .inr ⟨h.1.1, (only_withScn h1 { s.scn with hold := .none }).trans (raise_only _ 25 0 (.tail _ (.head _)))⟩
  · exact .inl rfl

theorem stepDone_cx (c : Nat) : s.stepDone.cx c = s.cx c := by
  rcases stepDone_spec s with e | ⟨_, ho⟩
  · rw [e]
  · have h := ho.eq
    generalize s.stepDone = t at h ⊢
    rw [h]
    rfl

theorem lockExpire_eq (c : Nat) : s.lockExpire c = s ∨ s.lockExpire c = s.endLock c (s.core c).cur := by
  unfold lockExpire
  split <;> simp

theorem lockExpire_core (c d : Nat) : (s.lockExpire c).core d = s.core d := by
  rcases lockExpire_eq s c with h | h <;> rw [h]
  simp

theorem lock_eta (x : Ctx) (l : Option Lock) (h : l = x.lock) : { x with lock := l } = x := by subst h; rfl

theorem lockExpire_cx (c : Nat) : (s.lockExpire c).cx c = unexpired (s.cx c) := by
  unfold lockExpire unexpired
  cases hl : (s.cx c).lock with
  | none => simp [lock_eta _ _ hl.symm]
  | some l =>
    simp only [Option.any_some, beq_iff_eq]
    by_cases h0 : l.limit = 0
    · rw [if_pos h0, endLock_cx]
      simp [Option.filter, h0]
    · rw [if_neg h0]
      simp [Option.filter, h0, lock_eta _ _ hl.symm]

theorem lockExpire_ctx (c d x : Nat) (h : d * 8 + x ≠ c * 8 + (s.core c).cur) : (s.lockExpire c).ctx d x = s.ctx d x := by
  rcases lockExpire_eq s c with e | e <;> rw [e]
  rw [endLock_ctx, if_neg h]

theorem lockExpire_rest (c : Nat) : { s.lockExpire c with ctxs := s.ctxs, arbs := s.arbs } = s := by
  rcases lockExpire_eq s c with e | e <;> rw [e]
  exact endLock_rest s c _

theorem setCx_core (c d : Nat) (v : Ctx) : (s.setCx c v).core d = s.core d := rfl
theorem setCx_cx (c : Nat) (v : Ctx) : (s.setCx c v).cx c = v := by simp [cx_def, setCx]
theorem setCx_ctx (c d x : Nat) (v : Ctx) (h : d * 8 + x ≠ c * 8 + (s.core c).cur) : (s.setCx c v).ctx d x = s.ctx d x := by simp [setCx, h]

/-- Ending a lock that has no memory instruction left. -/
def spend (s : State) (c : Nat) : State := if (s.cx c).lock.any (·.mem == 0) then s.endLock c (s.core c).cur else s

theorem spend_core (c d : Nat) : (s.spend c).core d = s.core d := by
  unfold spend
  split
  · exact endLock_core ..
  · rfl

theorem spend_cx (c : Nat) : (s.spend c).cx c = unspent (s.cx c) := by
  unfold spend unspent
  cases hl : (s.cx c).lock with
  | none => simp [lock_eta _ _ hl.symm]
  | some l =>
    simp only [Option.any_some, beq_iff_eq]
    by_cases h0 : l.mem = 0
    · rw [if_pos h0, endLock_cx]
      simp [Option.filter, h0]
    · rw [if_neg h0]
      simp [Option.filter, h0, lock_eta _ _ hl.symm]

theorem spend_ctx (c d x : Nat) (h : d * 8 + x ≠ c * 8 + (s.core c).cur) : (s.spend c).ctx d x = s.ctx d x := by
  unfold spend
  split
  · rw [endLock_ctx, if_neg h]
  · rfl

theorem spend_rest (c : Nat) : { s.spend c with ctxs := s.ctxs, arbs := s.arbs } = s := by
  unfold spend
  split
  · exact endLock_rest ..
  · rfl

/-- The context that `retire` leaves, before a spent lock ends. -/
def retireCx (x0 u : Ctx) (c : Nat) (k : Kind) (e : Eff) : Ctx :=
  let y := e.now { (advance' (countLock u k e.goes (lastRep x0)) (pcSize c) e.goes (lastRep x0)).land with skipBp := false, beat := none }
  { y with flights := y.flights ++ e.fly.map fun d => ⟨2, d.1, d.2⟩ }

/-- The core may issue another instruction after this one, as far as a stop goes (06 R637). -/
def GoesOn (k : CoreSt) : Prop := k.stop = none ∨ 1 < k.grace

theorem spent_eq (c : Nat) (h : GoesOn (s.core c)) : s.spent c = s.setCore c { s.core c with grace := (s.core c).grace - 1, credit := false } := by
  unfold spent
  dsimp only
  rw [if_neg]
  rcases h with h | h
  · simp [h]
  · simp; omega

theorem retire_eq (c : Nat) (k : Kind) (x0 : Ctx) (e : Eff) (h : GoesOn (s.core c)) :
    s.retire c k x0 e =
      let t := (s.setCx c (retireCx x0 (s.cx c) c k e)).spend c
      t.setCore c { t.core c with grace := (t.core c).grace - 1, credit := false } :=
  spent_eq ((s.setCx c (retireCx x0 (s.cx c) c k e)).spend c) c (by rw [spend_core]; exact h)

theorem retire_cx (c : Nat) (k : Kind) (x0 : Ctx) (e : Eff) (h : GoesOn (s.core c)) : (s.retire c k x0 e).cx c = unspent (retireCx x0 (s.cx c) c k e) := by
  rw [retire_eq _ _ _ _ _ h]
  dsimp only
  generalize hv : retireCx x0 (s.cx c) c k e = v
  have h1 := spend_cx (s.setCx c v) c
  rw [setCx_cx] at h1
  rw [← h1, cx_def, cx_def]
  simp

theorem retire_core (c : Nat) (k : Kind) (x0 : Ctx) (e : Eff) (d : Nat) (h : GoesOn (s.core c)) : (s.retire c k x0 e).core d =
    if d = c then { s.core c with grace := (s.core c).grace - 1, credit := false } else s.core d := by
  rw [retire_eq _ _ _ _ _ h]
  simp [spend_core, setCx_core]

theorem retire_ctx (c : Nat) (k : Kind) (x0 : Ctx) (e : Eff) (d x : Nat) (hg : GoesOn (s.core c)) (h : d * 8 + x ≠ c * 8 + (s.core c).cur) :
    (s.retire c k x0 e).ctx d x = s.ctx d x := by
  rw [retire_eq _ _ _ _ _ hg]
  simp only [ctx_setCore]
  rw [spend_ctx, setCx_ctx]
  · exact h
  · exact h

theorem retire_rest (c : Nat) (k : Kind) (x0 : Ctx) (e : Eff) (h : GoesOn (s.core c)) :
    { s.retire c k x0 e with ctxs := s.ctxs, arbs := s.arbs, cores := s.cores } = s := by
  rw [retire_eq _ _ _ _ _ h]
  dsimp only
  generalize retireCx x0 (s.cx c) c k e = v
  have h := spend_rest (s.setCx c v) c
  generalize (s.setCx c v).spend c = t at h ⊢
  have hs : s = { s.setCx c v with ctxs := s.ctxs } := rfl
  rw [hs, ← h]
  rfl

/-- Another lane's access, or a write from elsewhere, meets an access of lane `c` to key `k` at step number `n` (06 R242). -/
def meets (l : List PanAcc) (c k n : Nat) (w : Bool) : Bool :=
  l.any fun e => e.key == k && e.lane != c && (e.lane == 255 || (e.step == n && (w || e.wrote)))

theorem panClash_eq (c k : Nat) (w : Bool) : s.panClash c k w = (s.solves c && meets s.img.acc c k (s.core c).stepNo w) := rfl

/-- `v` is `u` but for what the lock and the transfers of core `c` hold and what it notes. -/
structure SameButLock (u v : State) (c : Nat) : Prop where
  rest : { v with ctxs := u.ctxs, arbs := u.arbs, img := { v.img with acc := u.img.acc } } = u
  own : ∀ j, (u.arb j).owner.any (· != c) = false → (v.arb j).owner.any (· != c) = false
  notes : ∀ k n w, meets v.img.acc c k n w = meets u.img.acc c k n w
  ctx : ∀ d x, d * 8 + x ≠ c * 8 + (u.core c).cur → v.ctx d x = u.ctx d x
  cx : v.cx c = unexpired (u.cx c)

theorem SameButLock.core {u v : State} {c : Nat} (h : SameButLock u v c) (d : Nat) : v.core d = u.core d :=
  core_of_cores (by rw [← h.rest]) d

theorem SameButLock.eq {u v : State} {c : Nat} (h : SameButLock u v c) : v = { u with ctxs := v.ctxs, arbs := v.arbs, img := { u.img with acc := v.img.acc } } := by
  rw [← h.rest]

theorem lockExpire_same (c : Nat) : SameButLock s (s.lockExpire c) c := by
  refine ⟨?_, fun j h => ?_, fun k n w => ?_, lockExpire_ctx s c, lockExpire_cx s c⟩
  · have h := lockExpire_rest s c
    generalize s.lockExpire c = t at h ⊢
    rw [show t = { s with ctxs := t.ctxs, arbs := t.arbs } by rw [← h]]
  · rcases lockExpire_eq s c with e | e <;> rw [e]
    · exact h
    · exact endLock_own s _ _ j h
  · have h := congrArg State.img (lockExpire_rest s c)
    rw [show (s.lockExpire c).img = s.img from h]

/-- What an execution leaves alone, whatever the accesses before `u` did. -/
theorem retire_only {u v : State} {c : Nat} (h : SameButLock u v c) (hg : GoesOn (u.core c)) (k : Kind) (x0 : Ctx) (e : Eff) : CoreOnly u ((v.retire c k x0 e).stepDone) c := by
  have hg' : GoesOn (v.core c) := by rw [h.core]; exact hg
  have h1 := h.rest
  have h2 := retire_rest v c k x0 e hg'
  have hc : ∀ d, (v.retire c k x0 e).core d = if d = c then { u.core c with grace := (u.core c).grace - 1, credit := false } else u.core d := by
    intro d
    rw [retire_core _ _ _ _ _ _ hg', h.core, h.core]
  have hx : ∀ d x, d * 8 + x ≠ c * 8 + (u.core c).cur → (v.retire c k x0 e).ctx d x = u.ctx d x := by
    intro d x hd
    rw [retire_ctx _ _ _ _ _ _ _ hg' (by rw [h.core]; exact hd), h.ctx d x hd]
  generalize v.retire c k x0 e = w at *
  have hv : { w with ctxs := u.ctxs, arbs := u.arbs, cores := u.cores, img := { w.img with acc := u.img.acc } } = u := by
    have h3 : { v with ctxs := u.ctxs, arbs := u.arbs, cores := u.cores, img := { v.img with acc := u.img.acc } } = u := by rw [← h1]
    rw [← h2] at h3
    exact h3
  have hv2 : w = { u with ctxs := w.ctxs, arbs := w.arbs, cores := w.cores, img := { u.img with acc := w.img.acc } } := by rw [← hv]
  have hregs : w.regs = u.regs := by rw [← hv]
  have hscn : w.scn = u.scn := by rw [← hv]
  rcases stepDone_spec w with e | ⟨hs, ho⟩
  · rw [e]
    refine ⟨fun _ j => reg_of_regs hregs j, hx, by simpa using hc c, fun d hd => by simpa [hd] using hc d, ?_⟩
    clear hc hx h1 h2 hregs hscn e
    generalize w.ctxs = A, w.arbs = B, w.cores = C, w.img.acc = D at hv2
    subst hv2
    rfl
  · refine ⟨fun h => absurd (hscn ▸ hs) h, ?_, ?_, ?_, ?_⟩
    · intro d x h
      rw [← hx d x h]
      exact ctx_of_ctxs (by rw [ho.eq]) d x
    · rw [core_of_cores (s := w) (by rw [ho.eq])]
      simpa using hc c
    · intro d hd
      rw [core_of_cores (s := w) (by rw [ho.eq])]
      simpa [hd] using hc d
    · have hv' := ho.eq
      generalize w.stepDone = z at hv' ⊢
      clear hc hx h1 h2 hregs hscn ho hs hv
      generalize z.regs = P, z.hidden = Q, z.evt = R, z.freeCtr = S at hv'
      generalize w.ctxs = A, w.arbs = B, w.cores = C, w.img.acc = D at hv2
      subst hv2
      subst hv'
      rfl

theorem lastRep_unexpired (x : Ctx) : lastRep (unexpired x) = lastRep x := rfl

/-- The execution of an instruction whose accesses lead from `s` to `u`, but for the lock. -/
theorem issueThen_eq {c : Nat} {k : Kind} {body : Ctx → State → Eff} {post : State → State} (h : Executes s c k)
    (hd : (body (unexpired (s.cx c)) (s.lockExpire c)).did = true) :
    s.issueThen c k body post = (post ((body (unexpired (s.cx c)) (s.lockExpire c)).st.retire c k (unexpired (s.cx c)) (body (unexpired (s.cx c)) (s.lockExpire c)))).stepDone := by
  have hp : s.passBrk c = s := by unfold passBrk; simp [h.passed]
  unfold issueThen
  have h3 : (decide (c < 68) && !(s.cx c).skipBp && s.bpMatch ((s.scanOf c).getD 0) (s.cx c).pc) = false := by
    rcases h.unbroken with h | h | h
    · simp [h]
    · simp [Nat.not_lt.mpr h]
    · simp [h]
  rw [if_neg (by simp [h.issues]), if_neg (by simp [h.whole]), hp]
  dsimp only
  rw [if_neg (by simp [h.unforced]), if_neg (by simp [h3]), if_neg h.word, if_neg (by simp [h.placed])]
  unfold finish
  dsimp only
  rw [lockExpire_cx, if_pos hd]

/-- An instruction whose accesses lead from `s` to `u`, but for the lock. -/
theorem issue_ran_over {u : State} {c : Nat} {k : Kind} {body : Ctx → State → Eff} (h : Executes s c k)
    (hd : (body (unexpired (s.cx c)) (s.lockExpire c)).did = true)
    (hu : SameButLock u (body (unexpired (s.cx c)) (s.lockExpire c)).st c) (hg : GoesOn (u.core c)) (hl : lastRep (u.cx c) = lastRep (s.cx c)) :
    Ran u (s.issue c k body) c k (body (unexpired (s.cx c)) (s.lockExpire c)).goes (body (unexpired (s.cx c)) (s.lockExpire c)).now
      (body (unexpired (s.cx c)) (s.lockExpire c)).fly := by
  have he : s.issue c k body = _ := issueThen_eq s h hd
  rw [he]
  refine ⟨retire_only hu hg k _ _, ?_⟩
  generalize body (unexpired (s.cx c)) (s.lockExpire c) = E at hu ⊢
  have hr := retire_cx E.st c k (unexpired (s.cx c)) E (by rw [hu.core]; exact hg)
  rw [hu.cx] at hr
  have hs : ((E.st.retire c k (unexpired (s.cx c)) E).stepDone).cx c = (E.st.retire c k (unexpired (s.cx c)) E).cx c := stepDone_cx _ c
  show ((E.st.retire c k (unexpired (s.cx c)) E).stepDone).cx c = _
  rw [hs, hr]
  unfold retireCx ctxAfter
  rw [lastRep_unexpired, hl]

/-- An instruction that touches its own context alone. -/
theorem issue_ran {c : Nat} {k : Kind} {body : Ctx → State → Eff} (h : Executes s c k)
    (hd : (body (unexpired (s.cx c)) (s.lockExpire c)).did = true) (hst : (body (unexpired (s.cx c)) (s.lockExpire c)).st = s.lockExpire c) :
    Ran s (s.issue c k body) c k (body (unexpired (s.cx c)) (s.lockExpire c)).goes (body (unexpired (s.cx c)) (s.lockExpire c)).now
      (body (unexpired (s.cx c)) (s.lockExpire c)).fly :=
  issue_ran_over s h hd (by rw [hst]; exact lockExpire_same s c) h.goesOn rfl

end State
end Sys2Proof.Machine
end

