-- ==== Sys2Proof/Laws/Flags.lean ====
section
/-! SUPPORT. The results and flags of the Limlis arithmetic in numbers (04 R128; 05 R181, R185). -/

-- one declaration at a time: many at once take a thread and its stack each
set_option Elab.async false

namespace Sys2Proof.Machine

theorem beq_zero_eq {w : Nat} (r : BitVec w) : (r == 0) = decide (r.toNat = 0) := by
  rw [Bool.eq_iff_iff]; simp [← BitVec.toNat_inj]

theorem msb_eq {w : Nat} (hw : 0 < w) (r : BitVec w) : r.msb = decide (2 ^ w ≤ 2 * r.toNat) := by
  have : 2 ^ w = 2 * 2 ^ (w - 1) := by rw [← Nat.pow_succ']; congr 1; omega
  rw [BitVec.msb_eq_decide, this, decide_eq_decide]
  omega

theorem bn_eq (n : Nat) (hn : n ≤ 1) : (if (n == 1) = true then 1 else 0) = n := by
  rcases Nat.le_one_iff_eq_zero_or_eq_one.mp hn with h | h <;> subst h <;> rfl

theorem bn_eq' (n : Nat) (hn : n ≤ 1) : (if (n == 0) = true then 0 else 1) = n := by
  rcases Nat.le_one_iff_eq_zero_or_eq_one.mp hn with h | h <;> subst h <;> rfl

theorem addAlu_r {w : Nat} (a b : BitVec w) (n : Nat) (hn : n ≤ 1) : (addAlu a b (n == 1)).r = a + b + BitVec.ofNat w n := by
  apply BitVec.eq_of_toNat_eq
  simp only [addAlu, BitVec.toNat_ofNat, BitVec.toNat_add, bn_eq n hn, Nat.add_mod_mod, Nat.mod_add_mod]

theorem addAlu_flags {w : Nat} (hw : 0 < w) (a b : BitVec w) (n : Nat) (hn : n ≤ 1) (z : Ctx) :
    z.setCznv (addAlu a b (n == 1)).c (addAlu a b (n == 1)).z (addAlu a b (n == 1)).n (addAlu a b (n == 1)).v =
     flagsOf (a + b + BitVec.ofNat w n) (decide (2 ^ w ≤ a.toNat + b.toNat + n)) (a.toInt + b.toInt + n) z := by
  have hc := bn_eq n hn
  have hr := addAlu_r a b n hn
  have h1 : (addAlu a b (n == 1)).c = decide (2 ^ w ≤ a.toNat + b.toNat + n) := by simp only [addAlu, hc]
  have h2 : (addAlu a b (n == 1)).z = decide ((addAlu a b (n == 1)).r.toNat = 0) := beq_zero_eq _
  have h3 : (addAlu a b (n == 1)).n = decide (2 ^ w ≤ 2 * (addAlu a b (n == 1)).r.toNat) := msb_eq hw _
  have h4 : (addAlu a b (n == 1)).v = decide (a.toInt + b.toInt + n < -2 ^ (w - 1) ∨ 2 ^ (w - 1) ≤ a.toInt + b.toInt + n) := by
    simp only [addAlu, hc]
    have hp : 2 ^ w = 2 * 2 ^ (w - 1) := by rw [← Nat.pow_succ']; congr 1; omega
    have hpi : ((2 : Int) ^ (w - 1)) = ((2 ^ (w - 1) : Nat) : Int) := by simp
    have ha := a.isLt; have hb := b.isLt
    rw [decide_eq_decide, BitVec.toInt_eq_toNat_cond, BitVec.toInt_eq_toNat_cond, BitVec.toInt_eq_toNat_cond, BitVec.toNat_ofNat, hpi]
    have hm : (a.toNat + b.toNat + n) % 2 ^ w = if a.toNat + b.toNat + n < 2 ^ w then a.toNat + b.toNat + n else a.toNat + b.toNat + n - 2 ^ w := by
      split
      · rename_i h; exact Nat.mod_eq_of_lt h
      · rename_i h
        rw [Nat.mod_eq_sub_mod (by omega), Nat.mod_eq_of_lt (by omega)]
    rw [hm]
    generalize 2 ^ (w - 1) = P at *
    generalize 2 ^ w = Q at *
    subst hp
    split <;> split <;> split <;> split <;> omega
  unfold flagsOf Ctx.setCznv
  rw [h1, h2, h3, h4, hr]

theorem subAlu_r {w : Nat} (a b : BitVec w) (n : Nat) (hn : n ≤ 1) : (subAlu a b (n == 0)).r = a - b - BitVec.ofNat w n := by
  simp only [subAlu, bn_eq' n hn]

theorem subAlu_flags {w : Nat} (hw : 0 < w) (a b : BitVec w) (n : Nat) (hn : n ≤ 1) (z : Ctx) :
    z.setCznv (subAlu a b (n == 0)).c (subAlu a b (n == 0)).z (subAlu a b (n == 0)).n (subAlu a b (n == 0)).v =
     flagsOf (a - b - BitVec.ofNat w n) (decide (b.toNat + n ≤ a.toNat)) (a.toInt - b.toInt - n) z := by
  have hc := bn_eq' n hn
  have hr := subAlu_r a b n hn
  have h1 : (subAlu a b (n == 0)).c = decide (b.toNat + n ≤ a.toNat) := by simp only [subAlu, hc]
  have h2 : (subAlu a b (n == 0)).z = decide ((subAlu a b (n == 0)).r.toNat = 0) := beq_zero_eq _
  have h3 : (subAlu a b (n == 0)).n = decide (2 ^ w ≤ 2 * (subAlu a b (n == 0)).r.toNat) := msb_eq hw _
  have h4 : (subAlu a b (n == 0)).v = decide (a.toInt - b.toInt - n < -2 ^ (w - 1) ∨ 2 ^ (w - 1) ≤ a.toInt - b.toInt - n) := by
    simp only [subAlu, hc]
    have hp : 2 ^ w = 2 * 2 ^ (w - 1) := by rw [← Nat.pow_succ']; congr 1; omega
    have hpi : ((2 : Int) ^ (w - 1)) = ((2 ^ (w - 1) : Nat) : Int) := by simp
    have ha := a.isLt; have hb := b.isLt
    have hP : 1 ≤ 2 ^ (w - 1) := Nat.one_le_two_pow
    have hn2 : n % 2 ^ w = n := Nat.mod_eq_of_lt (by omega)
    rw [decide_eq_decide, BitVec.toInt_eq_toNat_cond, BitVec.toInt_eq_toNat_cond, BitVec.toInt_eq_toNat_cond, BitVec.toNat_sub, BitVec.toNat_sub, BitVec.toNat_ofNat, hpi, hn2]
    have hm : (2 ^ w - n + (2 ^ w - b.toNat + a.toNat) % 2 ^ w) % 2 ^ w =
        if b.toNat + n ≤ a.toNat then a.toNat - b.toNat - n else 2 ^ w + a.toNat - b.toNat - n := by
      rw [Nat.add_mod_mod]
      split
      · rename_i h
        rw [show 2 ^ w - n + (2 ^ w - b.toNat + a.toNat) = a.toNat - b.toNat - n + 2 ^ w + 2 ^ w by omega, Nat.add_mod_right, Nat.add_mod_right, Nat.mod_eq_of_lt (by omega)]
      · rename_i h
        rw [show 2 ^ w - n + (2 ^ w - b.toNat + a.toNat) = 2 ^ w + a.toNat - b.toNat - n + 2 ^ w by omega, Nat.add_mod_right, Nat.mod_eq_of_lt (by omega)]
    rw [hm]
    generalize 2 ^ (w - 1) = P at *
    generalize 2 ^ w = Q at *
    subst hp
    split <;> split <;> split <;> split <;> omega
  unfold flagsOf Ctx.setCznv
  rw [h1, h2, h3, h4, hr]
end Sys2Proof.Machine
end

