-- ==== Sys2Proof/Laws/Keeps.lean ====
section
/-! SUPPORT. What no command undoes, said once as a relation between the state before and a state after: `Keeps s t`. The files beside this one prove it of
every shared operation and every meaning. -/

-- one declaration at a time: many at once take a thread and its stack each
set_option Elab.async false

namespace Sys2Proof.Machine

/-- From `s` to `t` the queue and the clock stand, memory and registers keep their canonical form, no free value is taken back and nothing that has left the
device is recalled. -/
structure Keeps (s t : State) : Prop where
  pending : t.pending = s.pending
  now : t.now = s.now
  mem : Memory.wf s.mem = true → Memory.wf t.mem = true
  regs : Sparse.wf regReset s.regs = true → Sparse.wf regReset t.regs = true
  free : s.freeCtr ≤ t.freeCtr
  wire : s.wire <+: t.wire

namespace Keeps

theorem refl (s : State) : Keeps s s := ⟨rfl, rfl, id, id, Nat.le_refl _, List.prefix_rfl⟩

theorem trans {s t u : State} (h : Keeps s t) (k : Keeps t u) : Keeps s u :=
  ⟨k.pending.trans h.pending, k.now.trans h.now, fun w => k.mem (h.mem w), fun w => k.regs (h.regs w), Nat.le_trans h.free k.free, h.wire.trans k.wire⟩

/-- A change of other fields. -/
theorem upd {s t u : State} (h : Keeps s t) (hp : u.pending = t.pending) (hn : u.now = t.now) (hm : u.mem = t.mem) (hr : u.regs = t.regs)
    (hf : u.freeCtr = t.freeCtr) (hw : u.wire = t.wire) : Keeps s u :=
  ⟨hp.trans h.pending, hn.trans h.now, by rw [hm]; exact h.mem, by rw [hr]; exact h.regs, by rw [hf]; exact h.free, by rw [hw]; exact h.wire⟩

/-- A record with the fields that `Keeps` speaks of taken from `t`. -/
theorem mkUpd {s t : State} (h : Keeps s t) (rdata : DWord) (ecc : List (Nat × Nat)) (hidden : List (Nat × Word)) (rbuf : List (Nat × Word)) (stage : List
    (Nat × Word)) (evt : Evt) (sys : Sys) (pwr : Pwr) (fns : List (Nat × Fn)) (softRst : List Nat) (cores : List (Nat × CoreSt)) (ctxs : List (Nat × Ctx))
    (svrel : BitVec 4) (svflt : BitVec 4) (scn : Scn) (arbs : List (Nat × Arb)) (img : Img) (tmc : Tmc) (grf : Grf) (tim : Tim) (tci : List (Nat × List Capt)) (tciNext : List (Nat × Nat))
    (tpo : List (Nat × Tpo)) (txts : List (Nat × List TxTs)) (rtc : Rtc) (vuv : Vuv) (stn : Stn) (twn : Twn) (can : List (Nat × Can)) (rind : Rind) (keep :
    Keep) (wdt : Wdt) (upd : Upd) (svc : Svc) (bgd : Bgd) (rndQ : List RindFrame) :
    Keeps s ⟨t.pending, rdata, t.freeCtr, t.now, t.mem, ecc, t.regs, hidden, rbuf, stage, t.wire, evt, sys, pwr, fns, softRst, cores, ctxs, svrel, svflt,
      scn, arbs, img, tmc, grf, tim, tci, tciNext, tpo, txts, rtc, vuv, stn, twn, can, rind, keep, wdt, upd, svc, bgd, rndQ⟩ :=
  h.upd rfl rfl rfl rfl rfl rfl

theorem ite {s a b : State} {c : Prop} [Decidable c] (ha : Keeps s a) (hb : Keeps s b) : Keeps s (if c then a else b) := by
  split
  · exact ha
  · exact hb

theorem ite2 {s : State} {α : Type} {a b : α × State} {c : Prop} [Decidable c] (ha : Keeps s a.2) (hb : Keeps s b.2) : Keeps s (if c then a else b).2 := by
  split
  · exact ha
  · exact hb

theorem foldl {β : Type} {s a : State} {l : List β} {f : State → β → State} (ha : Keeps s a) (hf : ∀ t b, Keeps s t → Keeps s (f t b)) :
    Keeps s (l.foldl f a) := by
  induction l generalizing a with
  | nil => exact ha
  | cons b l ih => exact ih (hf a b ha)

end Keeps

/-- The same of what a meaning answers. -/
structure Keeps.Out (s : State) (o : Res State) : Prop where
  ok : ∃ t, o = .next t ∧ Keeps s t

namespace Keeps

theorem out {s t : State} (h : Keeps s t) : Out s (.next t) := ⟨⟨t, rfl, h⟩⟩

theorem outIte {s : State} {a b : Res State} {c : Prop} [Decidable c] (ha : Out s a) (hb : Out s b) : Out s (if c then a else b) := by
  split
  · exact ha
  · exact hb

theorem cut {s x : State} {P : Prop} (hx : Keeps s x) (hP : Keeps s x → P) : P := hP hx

end Keeps

namespace State
variable {s0 s : State}

theorem setReg_keeps (h : Keeps s0 s) (k : Nat) (v : Word) : Keeps s0 (s.setReg k v) :=
  h.trans ⟨rfl, rfl, id, fun w => Sparse.wf_set w k v, Nat.le_refl _, List.prefix_rfl⟩
theorem wr_keeps (h : Keeps s0 s) (k : Nat) (v : Byte) : Keeps s0 (s.wr k v) :=
  h.trans ⟨rfl, rfl, fun w => Sparse.wf_set w k v, id, Nat.le_refl _, List.prefix_rfl⟩
theorem clearMem_keeps (h : Keeps s0 s) (lo hi : Nat) : Keeps s0 (s.clearMem lo hi) :=
  h.trans ⟨rfl, rfl, fun w => Sparse.wf_clear w lo hi, id, Nat.le_refl _, List.prefix_rfl⟩
theorem copyMem_keeps (h : Keeps s0 s) (src dst n : Nat) : Keeps s0 (s.copyMem src dst n) :=
  h.trans ⟨rfl, rfl, fun w => Sparse.wf_copy w src dst n, id, Nat.le_refl _, List.prefix_rfl⟩
theorem wrLE_keeps (h : Keeps s0 s) (k n v : Nat) : Keeps s0 (s.wrLE k n v) := by
  induction n generalizing s k v with
  | zero => exact h
  | succ n ih => exact ih (wr_keeps h _ _) _ _
theorem wrBytes_keeps (h : Keeps s0 s) (k : Nat) (l : List Byte) : Keeps s0 (s.wrBytes k l) := by
  induction l generalizing s k with
  | nil => exact h
  | cons b t ih => exact ih (wr_keeps h _ _) _

theorem free_keeps (h : Keeps s0 s) : Keeps s0 s.free.2 :=
  h.trans ⟨rfl, rfl, id, id, Nat.le_succ _, List.prefix_rfl⟩
theorem free64_keeps (h : Keeps s0 s) : Keeps s0 s.free64.2 :=
  h.trans ⟨rfl, rfl, id, id, Nat.le_succ _, List.prefix_rfl⟩
theorem send_keeps (h : Keeps s0 s) (t : TxItem) : Keeps s0 (s.send t) :=
  h.trans ⟨rfl, rfl, id, id, Nat.le_refl _, List.prefix_append _ _⟩
theorem freeBytes_keeps (h : Keeps s0 s) (l : List Byte) : Keeps s0 (s.freeBytes l).2 := by
  induction l generalizing s with
  | nil => exact h
  | cons b t ih => exact ih (free_keeps h)
theorem sramWr_keeps (h : Keeps s0 s) (o : Nat) (l : List Byte) : Keeps s0 (s.sramWr o l) := by
  induction l generalizing s o with
  | nil => exact h
  | cons b t ih => exact ih (wr_keeps h _ _) _
theorem latchWords_keeps (h : Keeps s0 s) (n a : Nat) (l : List Word) : Keeps s0 (s.latchWords n a l) := by
  induction l generalizing s a with
  | nil => exact h
  | cons b t ih =>
    unfold latchWords
    refine ih (s := _) ?_ _
    exact h.upd rfl rfl rfl rfl rfl rfl

end State
end Sys2Proof.Machine
end

