-- ==== Sys2Proof/Laws/KeepsPages.lean ====
section
/-! SUPPORT. `Keeps` of the operations and meanings of Machine/Pages.lean. -/

-- one declaration at a time: many at once take a thread and its stack each
set_option Elab.async false

set_option linter.all false

namespace Sys2Proof.Machine

open State

theorem State.setCore_keeps {s0 s : State} (h : Keeps s0 s) (c : Nat) (v : CoreSt) : Keeps s0 (setCore s c v) := by
  unfold setCore
  repeat' first
    | with_reducible assumption
    | ((conv in (State.mk ..) => skip); with_reducible apply Keeps.mkUpd)

theorem State.setCtx_keeps {s0 s : State} (h : Keeps s0 s) (c : Nat) (x : Nat) (v : Ctx) : Keeps s0 (setCtx s c x v) := by
  unfold setCtx
  repeat' first
    | with_reducible assumption
    | ((conv in (State.mk ..) => skip); with_reducible apply Keeps.mkUpd)

theorem State.setCx_keeps {s0 s : State} (h : Keeps s0 s) (c : Nat) (v : Ctx) : Keeps s0 (setCx s c v) := by
  unfold setCx
  repeat' first
    | with_reducible assumption
    | with_reducible first | apply State.setCtx_keeps

theorem State.setRf_keeps {s0 s : State} (h : Keeps s0 s) (k : Nat) (hi : Nat) (lo : Nat) (v : Nat) : Keeps s0 (setRf s k hi lo v) := by
  unfold setRf
  repeat' first
    | with_reducible assumption
    | with_reducible first | apply State.setReg_keeps

theorem State.setRb_keeps {s0 s : State} (h : Keeps s0 s) (k : Nat) (i : Nat) (b : Bool) : Keeps s0 (setRb s k i b) := by
  unfold setRb
  repeat' first
    | with_reducible assumption
    | with_reducible first | apply State.setRf_keeps

theorem State.setReg64_keeps {s0 s : State} (h : Keeps s0 s) (k : Nat) (v : Nat) : Keeps s0 (setReg64 s k v) := by
  unfold setReg64
  repeat' first
    | with_reducible assumption
    | with_reducible first | apply State.setReg_keeps

theorem State.count_keeps {s0 s : State} (h : Keeps s0 s) (k : Nat) (n : Nat) : Keeps s0 (count s k n) := by
  unfold count
  repeat' first
    | with_reducible assumption
    | with_reducible first | apply State.setReg_keeps
    | with_reducible apply Keeps.ite
    | ((conv in (State.mk ..) => skip); with_reducible apply Keeps.mkUpd)

theorem State.bump_keeps {s0 s : State} (h : Keeps s0 s) (k : Nat) : Keeps s0 (bump s k) := by
  unfold bump
  repeat' first
    | with_reducible assumption
    | with_reducible first | apply State.count_keeps

theorem State.wign_keeps {s0 s : State} (h : Keeps s0 s) (p : Nat) : Keeps s0 (wign s p) := by
  unfold wign
  repeat' first
    | with_reducible assumption
    | with_reducible first | apply State.setRb_keeps

end Sys2Proof.Machine
end

