-- ==== Sys2Proof/Laws/KeepsOps.lean ====
section
/-! SUPPORT. `Keeps` of the operations and meanings of Machine/Ops.lean. -/

-- one declaration at a time: many at once take a thread and its stack each
set_option Elab.async false

set_option linter.all false

namespace Sys2Proof.Machine

open State

theorem State.voidTrim_keeps {s0 s : State} (h : Keeps s0 s)  : Keeps s0 (voidTrim s) := by
  unfold voidTrim
  repeat' first
    | with_reducible assumption
    | with_reducible apply Keeps.ite
    | split
    | ((conv in (State.mk ..) => skip); with_reducible apply Keeps.mkUpd)

theorem State.timFresh_keeps {s0 s : State} (h : Keeps s0 s)  : Keeps s0 (timFresh s) := by
  unfold timFresh
  repeat' first
    | with_reducible assumption
    | with_reducible apply Keeps.ite
    | split
    | ((conv in (State.mk ..) => skip); with_reducible apply Keeps.mkUpd)

theorem State.offerSlot_keeps {s0 s : State} (h : Keeps s0 s) (e : Nat) (detail : Word) (seq : Half) (n : Nat) : Keeps s0 (offerSlot e detail seq n s) := by
  unfold offerSlot
  repeat' first
    | with_reducible assumption
    | with_reducible first | apply State.bump_keeps
    | split
    | ((conv in (State.mk ..) => skip); with_reducible apply Keeps.mkUpd)

theorem State.offerTask_keeps {s0 s : State} (h : Keeps s0 s) (e : Nat) (detail : Word) (seq : Half) : Keeps s0 (offerTask s e detail seq) := by
  unfold offerTask
  repeat' first
    | refine fun x => ?_
    | with_reducible assumption
    | with_reducible first | apply State.offerSlot_keeps
    | with_reducible refine Keeps.foldl ?_ ?_
    | split

theorem State.toLog_keeps {s0 s : State} (h : Keeps s0 s) (r : LogRec) : Keeps s0 (toLog s r) := by
  unfold toLog
  repeat' first
    | with_reducible assumption
    | with_reducible first | apply State.bump_keeps
    | split
    | ((conv in (State.mk ..) => skip); with_reducible apply Keeps.mkUpd)

theorem State.toSteward_keeps {s0 s : State} (h : Keeps s0 s) (e : Nat) (seq : Half) : Keeps s0 (toSteward s e seq) := by
  unfold toSteward
  repeat' first
    | with_reducible assumption
    | with_reducible first | apply State.bump_keeps
    | split
    | ((conv in (State.mk ..) => skip); with_reducible apply Keeps.mkUpd)

theorem State.toMsix_keeps {s0 s : State} (h : Keeps s0 s) (vec : Nat) : Keeps s0 (toMsix s vec) := by
  unfold toMsix
  repeat' first
    | with_reducible assumption
    | ((conv in (State.mk ..) => skip); with_reducible apply Keeps.mkUpd)

theorem State.forward_keeps {s0 s : State} (h : Keeps s0 s) (e : Nat) (detail : Word) : Keeps s0 (forward s e detail) := by
  unfold forward
  repeat' first
    | with_reducible assumption
    | with_reducible first | apply State.toLog_keeps | apply State.toSteward_keeps | apply State.offerTask_keeps | apply State.toMsix_keeps
    | with_reducible apply Keeps.ite
    | ((conv in (State.mk ..) => skip); with_reducible apply Keeps.mkUpd)

theorem State.raise_keeps {s0 s : State} (h : Keeps s0 s) (e : Nat) (detail : Nat) : Keeps s0 (raise s e detail) := by
  unfold raise
  repeat' first
    | with_reducible assumption
    | with_reducible first | apply State.setRb_keeps | apply State.forward_keeps
    | with_reducible apply Keeps.ite

theorem State.raiseFree_keeps {s0 s : State} (h : Keeps s0 s) (e : Nat) : Keeps s0 (raiseFree s e) := by
  unfold raiseFree
  repeat' first
    | with_reducible assumption
    | with_reducible first | apply State.free_keeps | apply State.raise_keeps

theorem State.swapHalves_keeps {s0 s : State} (h : Keeps s0 s)  : Keeps s0 (swapHalves s) := by
  unfold swapHalves
  repeat' first
    | with_reducible assumption
    | ((conv in (State.mk ..) => skip); with_reducible apply Keeps.mkUpd)

theorem State.badAddr_keeps {s0 s : State} (h : Keeps s0 s) (ag : Agent) (a : Nat) (w : Bool) : Keeps s0 (badAddr s ag a w) := by
  unfold badAddr
  repeat' first
    | with_reducible assumption
    | with_reducible first | apply State.raise_keeps | apply State.setReg_keeps

theorem State.denied_keeps {s0 s : State} (h : Keeps s0 s) (ag : Agent) (a : Nat) (w : Bool) : Keeps s0 (denied s ag a w) := by
  unfold denied
  repeat' first
    | with_reducible assumption
    | with_reducible first | apply State.raise_keeps | apply State.setReg_keeps

theorem State.check_keeps {s0 s : State} (h : Keeps s0 s) (ag : Agent) (a : Nat) (w : Bool) : ∀ t, (check s ag a w) = .stop t → Keeps s0 t := by
  intro t ht
  unfold check at ht
  try dsimp only at ht
  repeat' (first | cases ht | split at ht)
  repeat' first
    | with_reducible assumption
    | with_reducible first | apply State.badAddr_keeps | apply State.wign_keeps | apply State.denied_keeps

theorem State.guarded_keeps {s0 s : State} (h : Keeps s0 s) (ag : Agent) (a : Nat) (f : State → State) (hf3 : ∀ x0, Keeps s0 x0 → Keeps s0 (f x0)) : Keeps s0 (guarded s ag a f) := by
  unfold guarded
  repeat' first
    | with_reducible assumption
    | with_reducible apply hf3
    | split
    | with_reducible (refine State.check_keeps ?_ _ _ _ _ ‹_›)

theorem State.guardedRd_keeps {s0 s : State} (h : Keeps s0 s) (ag : Agent) (a : Nat) (f : State → DWord × State) (hf3 : ∀ x0, Keeps s0 x0 → Keeps s0 (f x0).2) : Keeps s0 (guardedRd s ag a f) := by
  unfold guardedRd
  repeat' first
    | with_reducible assumption
    | with_reducible apply hf3
    | split
    | ((conv in (State.mk ..) => skip); with_reducible apply Keeps.mkUpd)
    | with_reducible (refine State.check_keeps ?_ _ _ _ _ ‹_›)

end Sys2Proof.Machine
end

