-- ==== Sys2Proof/Laws/KeepsRindDie.lean ====
section
/-! SUPPORT. `Keeps` of the operations and meanings of Machine/RindDie.lean. -/

-- one declaration at a time: many at once take a thread and its stack each
set_option Elab.async false

set_option linter.all false

namespace Sys2Proof.Machine

open State

theorem State.rndPush_keeps {s0 s : State} (h : Keeps s0 s) (f : RindFrame) : Keeps s0 (rndPush s f) := by
  unfold rndPush
  repeat' first
    | with_reducible assumption
    | split
    | ((conv in (State.mk ..) => skip); with_reducible apply Keeps.mkUpd)

theorem State.rndPushAll_keeps {s0 s : State} (h : Keeps s0 s)  : Keeps s0 (rndPushAll s) := by
  unfold rndPushAll
  repeat' first
    | refine fun x => ?_
    | with_reducible assumption
    | with_reducible first | apply State.rndPush_keeps
    | with_reducible refine Keeps.foldl ?_ ?_

theorem State.rindDrive_keeps {s0 s : State} (h : Keeps s0 s) (c : Nat) (v : Bool) : Keeps s0 (rindDrive s c v) := by
  unfold rindDrive
  repeat' first
    | with_reducible assumption
    | with_reducible first | apply State.bump_keeps
    | with_reducible apply Keeps.ite
    | ((conv in (State.mk ..) => skip); with_reducible apply Keeps.mkUpd)

theorem State.chanDown_keeps {s0 s : State} (h : Keeps s0 s) (c : Nat) : Keeps s0 (chanDown s c) := by
  unfold chanDown
  repeat' first
    | with_reducible assumption
    | with_reducible first | apply State.rindDrive_keeps
    | ((try lift_lets); intro x; refine Keeps.cut (s := s0) (x := x) ?_ ?_; unfold x; rotate_left; intro hx; clear_value x; rotate_right)
    | ((try lift_lets); intro x; clear_value x)
    | ((conv in (State.mk ..) => skip); with_reducible apply Keeps.mkUpd)

theorem State.rindSafeVal_keeps {s0 s : State} (h : Keeps s0 s) (c : Nat) : Keeps s0 (rindSafeVal s c).2 := by
  unfold rindSafeVal
  repeat' first
    | with_reducible assumption
    | with_reducible first | apply State.free_keeps
    | split

theorem State.rindSafeAll_keeps {s0 s : State} (h : Keeps s0 s)  : Keeps s0 (rindSafeAll s) := by
  unfold rindSafeAll
  repeat' first
    | refine fun x => ?_
    | with_reducible assumption
    | with_reducible first | apply State.rindSafeVal_keeps | apply State.rindDrive_keeps
    | with_reducible refine Keeps.foldl ?_ ?_
    | split

theorem State.rindEnter_keeps {s0 s : State} (h : Keeps s0 s) (cause : Nat) : Keeps s0 (rindEnter s cause) := by
  unfold rindEnter
  repeat' first
    | with_reducible assumption
    | with_reducible first | apply State.rindSafeAll_keeps | apply State.raise_keeps | apply State.bump_keeps
    | ((conv in (State.mk ..) => skip); with_reducible apply Keeps.mkUpd)

theorem State.rindStart_keeps {s0 s : State} (h : Keeps s0 s)  : Keeps s0 (rindStart s) := by
  unfold rindStart
  repeat' first
    | with_reducible assumption
    | with_reducible first | apply State.rindEnter_keeps
    | ((conv in (State.mk ..) => skip); with_reducible apply Keeps.mkUpd)

theorem State.rindStop_keeps {s0 s : State} (h : Keeps s0 s)  : Keeps s0 (rindStop s) := by
  unfold rindStop
  repeat' first
    | refine fun x => ?_
    | with_reducible assumption
    | with_reducible first | apply State.rindDrive_keeps
    | with_reducible refine Keeps.foldl ?_ ?_
    | ((try lift_lets); intro x; refine Keeps.cut (s := s0) (x := x) ?_ ?_; unfold x; rotate_left; intro hx; clear_value x; rotate_right)
    | ((try lift_lets); intro x; clear_value x)
    | ((conv in (State.mk ..) => skip); with_reducible apply Keeps.mkUpd)

theorem State.rindDrop_keeps {s0 s : State} (h : Keeps s0 s)  : Keeps s0 (rindDrop s) := by
  unfold rindDrop
  repeat' first
    | with_reducible assumption
    | ((conv in (State.mk ..) => skip); with_reducible apply Keeps.mkUpd)

theorem State.rndFault_keeps {s0 s : State} (h : Keeps s0 s)  : Keeps s0 (rndFault s) := by
  unfold rndFault
  repeat' first
    | with_reducible assumption
    | with_reducible first | apply State.setRb_keeps | apply State.raise_keeps
    | split

end Sys2Proof.Machine
end

