-- ==== Sys2Proof/Laws/KeepsWire.lean ====
section
/-! SUPPORT. `Keeps` of the operations and meanings of Machine/Wire.lean. -/

-- one declaration at a time: many at once take a thread and its stack each
set_option Elab.async false

set_option linter.all false

namespace Sys2Proof.Machine

open State

theorem State.setLead_keeps {s0 s : State} (h : Keeps s0 s) (b : Bool) : Keeps s0 (setLead s b) := by
  unfold setLead
  repeat' first
    | with_reducible assumption
    | with_reducible first | apply State.setRb_keeps

theorem State.setEpoch_keeps {s0 s : State} (h : Keeps s0 s) (e : Nat) : Keeps s0 (setEpoch s e) := by
  unfold setEpoch
  repeat' first
    | with_reducible assumption
    | with_reducible first | apply State.setRf_keeps

theorem State.twnSend_keeps {s0 s : State} (h : Keeps s0 s) (type : Nat) (flags : Nat) (addr : Nat) (payload : List Byte) : Keeps s0 (twnSend s type flags addr payload) := by
  unfold twnSend
  repeat' first
    | with_reducible assumption
    | with_reducible first | apply State.send_keeps
    | split

theorem State.twnCmd_keeps {s0 s : State} (h : Keeps s0 s) (code : Nat) (a1 : Nat) (a64 : Nat) : Keeps s0 (twnCmd s code a1 a64) := by
  unfold twnCmd
  repeat' first
    | with_reducible assumption
    | with_reducible first | apply State.twnSend_keeps

theorem State.stnNum_keeps {s0 s : State} (h : Keeps s0 s)  : Keeps s0 (stnNum s).2 := by
  unfold stnNum
  repeat' first
    | with_reducible assumption
    | with_reducible first | apply State.free_keeps
    | ((try lift_lets); intro x; refine Keeps.cut (s := s0) (x := x.2) ?_ ?_; unfold x; rotate_left; intro hx; clear_value x; rotate_right)
    | ((try lift_lets); intro x; clear_value x)
    | split

theorem State.vuvSrc_keeps {s0 s : State} (h : Keeps s0 s)  : Keeps s0 (vuvSrc s).2 := by
  unfold vuvSrc
  repeat' first
    | with_reducible assumption
    | with_reducible first | apply State.stnNum_keeps
    | split

theorem State.vuvCopy_keeps {s0 s : State} (h : Keeps s0 s) (n : Net) (type : Nat) (flags : Nat) (src : Nat) (epoch : Nat) (seq : Nat) (time : Nat) (segs : List (List Byte)) : Keeps s0 (vuvCopy s n type flags src epoch seq time segs) := by
  unfold vuvCopy
  repeat' first
    | with_reducible assumption
    | with_reducible first | apply State.free_keeps | apply State.bump_keeps | apply State.send_keeps
    | with_reducible apply Keeps.ite
    | split

theorem State.vuvSend_keeps {s0 s : State} (h : Keeps s0 s) (type : Nat) (flags : Nat) (epoch : Nat) (seq : Nat) (time : Nat) (segs : List (List Byte)) : Keeps s0 (vuvSend s type flags epoch seq time segs) := by
  unfold vuvSend
  repeat' first
    | with_reducible assumption
    | with_reducible first | apply State.vuvSrc_keeps | apply State.vuvCopy_keeps

theorem State.ctlSend_keeps {s0 s : State} (h : Keeps s0 s) (type : Nat) (segs : List (List Byte)) : Keeps s0 (ctlSend s type segs) := by
  unfold ctlSend
  repeat' first
    | with_reducible assumption
    | with_reducible first | apply State.vuvSend_keeps

theorem State.divergeRaise_keeps {s0 s : State} (h : Keeps s0 s) (cause : Nat) : Keeps s0 (divergeRaise s cause) := by
  unfold divergeRaise
  repeat' first
    | with_reducible assumption
    | with_reducible first | apply State.raise_keeps | apply State.setRf_keeps

theorem State.divergeHere_keeps {s0 s : State} (h : Keeps s0 s) (cause : Nat) : Keeps s0 (divergeHere s cause) := by
  unfold divergeHere
  repeat' first
    | with_reducible assumption
    | with_reducible first | apply State.twnCmd_keeps | apply State.divergeRaise_keeps
    | ((try lift_lets); intro x; refine Keeps.cut (s := s0) (x := x) ?_ ?_; unfold x; rotate_left; intro hx; clear_value x; rotate_right)
    | ((try lift_lets); intro x; clear_value x)
    | ((conv in (State.mk ..) => skip); with_reducible apply Keeps.mkUpd)

theorem State.fcRestart_keeps {s0 s : State} (h : Keeps s0 s) (cause : Nat) : Keeps s0 (fcRestart s cause) := by
  unfold fcRestart
  repeat' first
    | with_reducible assumption
    | with_reducible first | apply State.raise_keeps | apply State.setRf_keeps
    | ((try lift_lets); intro x; refine Keeps.cut (s := s0) (x := x) ?_ ?_; unfold x; rotate_left; intro hx; clear_value x; rotate_right)
    | ((try lift_lets); intro x; clear_value x)
    | split
    | ((conv in (State.mk ..) => skip); with_reducible apply Keeps.mkUpd)

theorem State.regChecks_keeps {s0 s : State} (h : Keeps s0 s) (ag : Agent) (a : Nat) (f : State → State) (hf3 : ∀ x0, Keeps s0 x0 → Keeps s0 (f x0)) : Keeps s0 (regChecks s ag a f) := by
  unfold regChecks
  repeat' first
    | refine fun x => ?_
    | with_reducible assumption
    | with_reducible first | apply State.guarded_keeps | apply State.wign_keeps
    | with_reducible apply hf3
    | with_reducible apply Keeps.ite
    | split

theorem State.cfgNote_keeps {s0 s : State} (h : Keeps s0 s) (a : Nat) : Keeps s0 (cfgNote s a) := by
  unfold cfgNote
  repeat' first
    | with_reducible assumption
    | with_reducible first | apply State.fcRestart_keeps
    | split
    | ((conv in (State.mk ..) => skip); with_reducible apply Keeps.mkUpd)

theorem State.stageLoad_keeps {s0 s : State} (h : Keeps s0 s) (n : Nat) (a : Nat) (t : Target) : Keeps s0 (stageLoad s n a t) := by
  unfold stageLoad
  repeat' first
    | with_reducible assumption
    | ((conv in (State.mk ..) => skip); with_reducible apply Keeps.mkUpd)

theorem State.regWrite_keeps {s0 s : State} (h : Keeps s0 s) (ag : Agent) (a : Nat) (f : State → State) (hf3 : ∀ x0, Keeps s0 x0 → Keeps s0 (f x0)) : Keeps s0 (regWrite s ag a f) := by
  unfold regWrite
  repeat' first
    | refine fun x => ?_
    | with_reducible assumption
    | with_reducible first | apply State.regChecks_keeps | apply State.cfgNote_keeps | apply State.stageLoad_keeps
    | with_reducible apply hf3
    | split

end Sys2Proof.Machine
end

