-- ==== Sys2Proof/Laws/KeepsLanes.lean ====
section
/-! SUPPORT. `Keeps` of the operations and meanings of Machine/Lanes.lean. -/

-- one declaration at a time: many at once take a thread and its stack each
set_option Elab.async false

set_option linter.all false

namespace Sys2Proof.Machine

open State

theorem State.setArb_keeps {s0 s : State} (h : Keeps s0 s) (id : Nat) (a : Arb) : Keeps s0 (setArb s id a) := by
  unfold setArb
  repeat' first
    | refine fun x => ?_
    | with_reducible assumption
    | with_reducible apply Keeps.ite
    | split
    | ((conv in (State.mk ..) => skip); with_reducible apply Keeps.mkUpd)

theorem State.ownOnly_keeps {s0 s : State} (h : Keeps s0 s) (p : Nat) (ids : List Nat) : Keeps s0 (ownOnly s p ids) := by
  unfold ownOnly
  repeat' first
    | refine fun x => ?_
    | with_reducible assumption
    | with_reducible first | apply State.setArb_keeps
    | with_reducible apply Keeps.ite
    | with_reducible refine Keeps.foldl ?_ ?_
    | split
    | ((conv in (State.mk ..) => skip); with_reducible apply Keeps.mkUpd)

theorem State.dropTransfer_keeps {s0 s : State} (h : Keeps s0 s) (p : Nat) : Keeps s0 (dropTransfer s p) := by
  unfold dropTransfer
  repeat' first
    | with_reducible assumption
    | with_reducible first | apply State.count_keeps | apply State.ownOnly_keeps
    | with_reducible apply Keeps.ite
    | split
    | ((conv in (State.mk ..) => skip); with_reducible apply Keeps.mkUpd)

theorem State.breakLock_keeps {s0 s : State} (h : Keeps s0 s) (p : Nat) (x : Nat) (cause : Nat) : Keeps s0 (breakLock s p x cause) := by
  unfold breakLock
  repeat' first
    | with_reducible assumption
    | with_reducible first | apply State.setCtx_keeps | apply State.ownOnly_keeps | apply State.setReg_keeps | apply setReg_keeps | apply State.bump_keeps | apply State.count_keeps | apply State.raise_keeps
    | with_reducible apply Keeps.ite
    | ((try lift_lets); intro x; refine Keeps.cut (s := s0) (x := x) ?_ ?_; unfold x; rotate_left; intro hx; clear_value x; rotate_right)
    | ((try lift_lets); intro x; refine Keeps.cut (s := s0) (x := x.2) ?_ ?_; unfold x; rotate_left; intro hx; clear_value x; rotate_right)
    | ((try lift_lets); intro x; clear_value x)
    | split
    | ((conv in (State.mk ..) => skip); with_reducible apply Keeps.mkUpd)

theorem State.endLock_keeps {s0 s : State} (h : Keeps s0 s) (p : Nat) (x : Nat) : Keeps s0 (endLock s p x) := by
  unfold endLock
  repeat' first
    | with_reducible assumption
    | with_reducible first | apply State.setCtx_keeps | apply State.ownOnly_keeps
    | with_reducible apply Keeps.ite
    | ((try lift_lets); intro x; refine Keeps.cut (s := s0) (x := x) ?_ ?_; unfold x; rotate_left; intro hx; clear_value x; rotate_right)
    | ((try lift_lets); intro x; refine Keeps.cut (s := s0) (x := x.2) ?_ ?_; unfold x; rotate_left; intro hx; clear_value x; rotate_right)
    | ((try lift_lets); intro x; clear_value x)
    | split
    | ((conv in (State.mk ..) => skip); with_reducible apply Keeps.mkUpd)

theorem State.endStop_keeps {s0 s : State} (h : Keeps s0 s) (p : Nat) : Keeps s0 (endStop s p) := by
  unfold endStop
  repeat' first
    | with_reducible assumption
    | with_reducible first | apply State.setCore_keeps | apply State.endLock_keeps | apply State.ownOnly_keeps | apply State.breakLock_keeps | apply State.dropTransfer_keeps
    | with_reducible apply Keeps.ite
    | split
    | ((conv in (State.mk ..) => skip); with_reducible apply Keeps.mkUpd)

theorem State.stopsOver_keeps {s0 s : State} (h : Keeps s0 s)  : Keeps s0 (stopsOver s) := by
  unfold stopsOver
  repeat' first
    | refine fun x => ?_
    | with_reducible assumption
    | with_reducible first | apply State.endStop_keeps
    | with_reducible apply Keeps.ite
    | with_reducible refine Keeps.foldl ?_ ?_
    | split
    | ((conv in (State.mk ..) => skip); with_reducible apply Keeps.mkUpd)

theorem State.abortLane_keeps {s0 s : State} (h : Keeps s0 s) (p : Nat) : Keeps s0 (abortLane s p) := by
  unfold abortLane
  repeat' first
    | refine fun x => ?_
    | with_reducible assumption
    | with_reducible first | apply State.breakLock_keeps | apply State.setCtx_keeps | apply State.dropTransfer_keeps | apply State.setCore_keeps | apply State.raise_keeps
    | with_reducible apply Keeps.ite
    | with_reducible refine Keeps.foldl ?_ ?_
    | split
    | ((conv in (State.mk ..) => skip); with_reducible apply Keeps.mkUpd)

theorem State.abortTasks_keeps {s0 s : State} (h : Keeps s0 s)  : Keeps s0 (abortTasks s) := by
  unfold abortTasks
  repeat' first
    | refine fun x => ?_
    | with_reducible assumption
    | with_reducible first | apply State.abortLane_keeps
    | with_reducible refine Keeps.foldl ?_ ?_
    | ((try lift_lets); intro x; refine Keeps.cut (s := s0) (x := x) ?_ ?_; unfold x; rotate_left; intro hx; clear_value x; rotate_right)
    | ((try lift_lets); intro x; clear_value x)
    | ((conv in (State.mk ..) => skip); with_reducible apply Keeps.mkUpd)

theorem State.stopSolving_keeps {s0 s : State} (h : Keeps s0 s) (cause : Nat) (src : Option Nat) (k : Nat) : Keeps s0 (stopSolving s cause src k) := by
  unfold stopSolving
  repeat' first
    | with_reducible assumption
    | with_reducible first | apply exec_keeps | apply State.breakLock_keeps | apply State.dropTransfer_keeps | apply State.setCore_keeps
    | with_reducible apply Keeps.ite
    | split
    | ((conv in (State.mk ..) => skip); with_reducible apply Keeps.mkUpd)

theorem State.stopAllSolving_keeps {s0 s : State} (h : Keeps s0 s) (cause : Nat) (src : Option Nat) : Keeps s0 (stopAllSolving s cause src) := by
  unfold stopAllSolving
  repeat' first
    | refine fun x => ?_
    | with_reducible assumption
    | with_reducible first | apply State.stopSolving_keeps | apply State.setRb_keeps
    | with_reducible refine Keeps.foldl ?_ ?_
    | ((try lift_lets); intro x; refine Keeps.cut (s := s0) (x := x) ?_ ?_; unfold x; rotate_left; intro hx; clear_value x; rotate_right)
    | ((try lift_lets); intro x; clear_value x)
    | ((conv in (State.mk ..) => skip); with_reducible apply Keeps.mkUpd)

theorem State.setPhase_keeps {s0 s : State} (h : Keeps s0 s) (ph : Nat) : Keeps s0 (setPhase s ph) := by
  unfold setPhase
  repeat' first
    | with_reducible assumption
    | with_reducible first | apply State.setRf_keeps

theorem State.modeStat_keeps {s0 s : State} (h : Keeps s0 s) (target : Nat) (result : Nat) (reason : Nat) : Keeps s0 (modeStat s target result reason) := by
  unfold modeStat
  repeat' first
    | with_reducible assumption
    | with_reducible first | apply State.setReg_keeps

theorem State.refuseMode_keeps {s0 s : State} (h : Keeps s0 s) (target : Nat) (reason : Nat) : Keeps s0 (refuseMode s target reason) := by
  unfold refuseMode
  repeat' first
    | with_reducible assumption
    | with_reducible first | apply State.raiseFree_keeps | apply State.modeStat_keeps

theorem State.settleRequests_keeps {s0 s : State} (h : Keeps s0 s) (old : Nat) (new : Nat) (row : Nat) : Keeps s0 (settleRequests s old new row) := by
  unfold settleRequests
  repeat' first
    | with_reducible assumption
    | with_reducible first | apply State.modeStat_keeps | apply State.refuseMode_keeps
    | split
    | ((conv in (State.mk ..) => skip); with_reducible apply Keeps.mkUpd)

theorem State.lanesIdle_keeps {s0 s : State} (h : Keeps s0 s)  : Keeps s0 (lanesIdle s) := by
  unfold lanesIdle
  repeat' first
    | refine fun x => ?_
    | with_reducible assumption
    | with_reducible first | apply State.endStop_keeps | apply State.endLock_keeps | apply State.ownOnly_keeps | apply State.setCore_keeps | apply exec_keeps
    | with_reducible apply Keeps.ite
    | with_reducible refine Keeps.foldl ?_ ?_
    | split
    | ((conv in (State.mk ..) => skip); with_reducible apply Keeps.mkUpd)

theorem State.haltAll_keeps {s0 s : State} (h : Keeps s0 s) (src : Nat) : Keeps s0 (haltAll s src) := by
  unfold haltAll
  repeat' first
    | refine fun x => ?_
    | with_reducible assumption
    | with_reducible first | apply exec_keeps | apply State.endLock_keeps | apply State.ownOnly_keeps | apply State.setCore_keeps
    | with_reducible apply Keeps.ite
    | with_reducible refine Keeps.foldl ?_ ?_
    | split
    | ((conv in (State.mk ..) => skip); with_reducible apply Keeps.mkUpd)

theorem State.enterHold_keeps {s0 s : State} (h : Keeps s0 s)  : Keeps s0 (enterHold s) := by
  unfold enterHold
  repeat' first
    | with_reducible assumption
    | with_reducible first | apply State.setRf_keeps | apply State.setPhase_keeps | apply State.haltAll_keeps
    | split
    | ((conv in (State.mk ..) => skip); with_reducible apply Keeps.mkUpd)

theorem State.lanesResume_keeps {s0 s : State} (h : Keeps s0 s)  : Keeps s0 (lanesResume s) := by
  unfold lanesResume
  repeat' first
    | refine fun x => ?_
    | with_reducible assumption
    | with_reducible first | apply State.endStop_keeps | apply State.setCore_keeps
    | with_reducible apply Keeps.ite
    | with_reducible refine Keeps.foldl ?_ ?_
    | split
    | ((conv in (State.mk ..) => skip); with_reducible apply Keeps.mkUpd)

theorem State.resumeCycle_keeps {s0 s : State} (h : Keeps s0 s)  : Keeps s0 (resumeCycle s) := by
  unfold resumeCycle
  repeat' first
    | with_reducible assumption
    | with_reducible first | apply State.setPhase_keeps
    | split
    | ((conv in (State.mk ..) => skip); with_reducible apply Keeps.mkUpd)

theorem State.stnSafeBuf_keeps {s0 s : State} (h : Keeps s0 s)  : Keeps s0 (stnSafeBuf s) := by
  unfold stnSafeBuf
  repeat' first
    | refine fun x => ?_
    | with_reducible assumption
    | with_reducible first | apply State.wr_keeps
    | with_reducible refine Keeps.foldl ?_ ?_
    | split

theorem State.stnSafeState_keeps {s0 s : State} (h : Keeps s0 s) (old : Nat) : Keeps s0 (stnSafeState s old) := by
  unfold stnSafeState
  repeat' first
    | with_reducible assumption
    | with_reducible first | apply State.setRf_keeps | apply State.stnSafeBuf_keeps | apply State.raise_keeps
    | split
    | ((conv in (State.mk ..) => skip); with_reducible apply Keeps.mkUpd)

theorem State.stnRunState_keeps {s0 s : State} (h : Keeps s0 s)  : Keeps s0 (stnRunState s) := by
  unfold stnRunState
  repeat' first
    | with_reducible assumption
    | with_reducible first | apply State.raise_keeps | apply State.setRf_keeps
    | ((try lift_lets); intro x; refine Keeps.cut (s := s0) (x := x) ?_ ?_; unfold x; rotate_left; intro hx; clear_value x; rotate_right)
    | ((try lift_lets); intro x; clear_value x)
    | ((conv in (State.mk ..) => skip); with_reducible apply Keeps.mkUpd)

theorem State.releaseAll_keeps {s0 s : State} (h : Keeps s0 s)  : Keeps s0 (releaseAll s) := by
  unfold releaseAll
  repeat' first
    | refine fun x => ?_
    | with_reducible assumption
    | with_reducible first | apply State.setRb_keeps
    | with_reducible refine Keeps.foldl ?_ ?_
    | split

theorem State.tellPartner_keeps {s0 s : State} (h : Keeps s0 s) (old : Nat) (new : Nat) : Keeps s0 (tellPartner s old new) := by
  unfold tellPartner
  repeat' first
    | with_reducible assumption
    | with_reducible first | apply State.divergeHere_keeps | apply State.twnCmd_keeps
    | split

theorem State.rndMode_keeps {s0 s : State} (h : Keeps s0 s) (old : Nat) (new : Nat) : Keeps s0 (rndMode s old new) := by
  unfold rndMode
  repeat' first
    | with_reducible assumption
    | with_reducible first | apply State.safeHalt_keeps | apply State.rndPush_keeps | apply State.release_keeps
    | with_reducible apply Keeps.ite
    | split
    | ((conv in (State.mk ..) => skip); with_reducible apply Keeps.mkUpd)

theorem State.enterNet_keeps {s0 s : State} (h : Keeps s0 s) (old : Nat) (new : Nat) : Keeps s0 (enterNet s old new) := by
  unfold enterNet
  repeat' first
    | with_reducible assumption
    | with_reducible first | apply State.rndMode_keeps | apply State.tellPartner_keeps | apply State.fcRestart_keeps | apply State.setLead_keeps | apply State.releaseAll_keeps | apply State.stnRunState_keeps | apply State.stnSafeState_keeps | apply State.setRf_keeps | apply State.stnSafeBuf_keeps
    | with_reducible apply Keeps.ite
    | ((conv in (State.mk ..) => skip); with_reducible apply Keeps.mkUpd)

theorem State.postpone_keeps {s0 s : State} (h : Keeps s0 s) (twin : Bool) : Keeps s0 (postpone s twin) := by
  unfold postpone
  repeat' first
    | with_reducible assumption
    | with_reducible first | apply State.setRf_keeps | apply State.raise_keeps
    | with_reducible apply Keeps.ite
    | split
    | ((conv in (State.mk ..) => skip); with_reducible apply Keeps.mkUpd)

theorem State.attemptCut_keeps {s0 s : State} (h : Keeps s0 s)  : Keeps s0 (attemptCut s) := by
  unfold attemptCut
  repeat' first
    | with_reducible assumption
    | with_reducible first | apply State.postpone_keeps
    | with_reducible apply Keeps.ite
    | split
    | ((conv in (State.mk ..) => skip); with_reducible apply Keeps.mkUpd)

theorem State.enterMode_keeps {s0 s : State} (h : Keeps s0 s) (old : Nat) (new : Nat) : Keeps s0 (enterMode s old new) := by
  unfold enterMode
  repeat' first
    | with_reducible assumption
    | with_reducible first | apply State.enterNet_keeps | apply State.attemptCut_keeps | apply State.abortTasks_keeps | apply State.setRf_keeps | apply State.setRb_keeps | apply State.enterHold_keeps | apply State.lanesResume_keeps | apply State.resumeCycle_keeps | apply State.safeHalt_keeps | apply State.lanesIdle_keeps | apply State.setPhase_keeps
    | with_reducible apply Keeps.ite
    | split
    | ((conv in (State.mk ..) => skip); with_reducible apply Keeps.mkUpd)

theorem State.changeMode_keeps {s0 s : State} (h : Keeps s0 s) (new : Nat) (row : Nat) : Keeps s0 (changeMode s new row) := by
  unfold changeMode
  repeat' first
    | with_reducible assumption
    | with_reducible first | apply State.setReg_keeps | apply State.settleRequests_keeps | apply State.raise_keeps | apply State.enterMode_keeps
    | ((try lift_lets); intro x; refine Keeps.cut (s := s0) (x := x) ?_ ?_; unfold x; rotate_left; intro hx; clear_value x; rotate_right)
    | ((try lift_lets); intro x; clear_value x)
    | ((conv in (State.mk ..) => skip); with_reducible apply Keeps.mkUpd)

theorem State.haltPartner_keeps {s0 s : State} (h : Keeps s0 s) (code : Nat) : Keeps s0 (haltPartner s code) := by
  unfold haltPartner
  repeat' first
    | with_reducible assumption
    | with_reducible first | apply State.free64_keeps | apply State.twnCmd_keeps | apply State.twnSend_keeps | apply State.setLead_keeps | apply State.divergeHere_keeps
    | ((try lift_lets); intro x; refine Keeps.cut (s := s0) (x := x) ?_ ?_; unfold x; rotate_left; intro hx; clear_value x; rotate_right)
    | ((try lift_lets); intro x; refine Keeps.cut (s := s0) (x := x.2) ?_ ?_; unfold x; rotate_left; intro hx; clear_value x; rotate_right)
    | ((try lift_lets); intro x; clear_value x)
    | split
    | ((conv in (State.mk ..) => skip); with_reducible apply Keeps.mkUpd)

theorem State.safeHalt_keeps {s0 s : State} (h : Keeps s0 s) (code : Nat) (lockCause : Nat) (src : Option Nat) : Keeps s0 (safeHalt s code lockCause src) := by
  unfold safeHalt
  repeat' first
    | with_reducible assumption
    | with_reducible first | apply State.stopAllSolving_keeps | apply State.setReg_keeps | apply State.raise_keeps | apply State.changeMode_keeps | apply State.setPhase_keeps | apply State.haltPartner_keeps
    | ((try lift_lets); intro x; refine Keeps.cut (s := s0) (x := x) ?_ ?_; unfold x; rotate_left; intro hx; clear_value x; rotate_right)
    | ((try lift_lets); intro x; clear_value x)
    | split
    | ((conv in (State.mk ..) => skip); with_reducible apply Keeps.mkUpd)

end Sys2Proof.Machine
end

