-- ==== Sys2Proof/Laws/KeepsModes.lean ====
section
/-! SUPPORT. `Keeps` of the operations and meanings of Machine/Modes.lean. -/

-- one declaration at a time: many at once take a thread and its stack each
set_option Elab.async false

set_option linter.all false

namespace Sys2Proof.Machine

open State

theorem State.mapCheck_keeps {s0 s : State} (h : Keeps s0 s)  : Keeps s0 (mapCheck s) := by
  unfold mapCheck
  repeat' first
    | with_reducible assumption
    | with_reducible first | apply State.setRb_keeps | apply State.setRf_keeps

theorem State.requestMode_keeps {s0 s : State} (h : Keeps s0 s) (target : Nat) : Keeps s0 (requestMode s target) := by
  unfold requestMode
  repeat' first
    | with_reducible assumption
    | with_reducible first | apply State.refuseMode_keeps | apply State.modeStat_keeps
    | split
    | ((conv in (State.mk ..) => skip); with_reducible apply Keeps.mkUpd)

theorem State.setFn_keeps {s0 s : State} (h : Keeps s0 s) (id : Nat) (f : Fn) : Keeps s0 (setFn s id f) := by
  unfold setFn
  repeat' first
    | with_reducible assumption
    | ((conv in (State.mk ..) => skip); with_reducible apply Keeps.mkUpd)

theorem State.syncBusy_keeps {s0 s : State} (h : Keeps s0 s) (p : Nat) : Keeps s0 (syncBusy s p) := by
  unfold syncBusy
  repeat' first
    | with_reducible assumption
    | with_reducible first | apply State.setRb_keeps

theorem State.holdReq_keeps {s0 s : State} (h : Keeps s0 s) (id : Nat) (t : Nat) : Keeps s0 (holdReq s id t) := by
  unfold holdReq
  repeat' first
    | with_reducible assumption
    | with_reducible first | apply State.syncBusy_keeps | apply State.setFn_keeps | apply State.free_keeps
    | with_reducible apply Keeps.ite

theorem State.syncHeld_keeps {s0 s : State} (h : Keeps s0 s) (d : Nat) : Keeps s0 (syncHeld s d) := by
  unfold syncHeld
  repeat' first
    | with_reducible assumption
    | with_reducible first | apply State.syncBusy_keeps | apply State.setRf_keeps

theorem State.domLost_keeps {s0 s : State} (h : Keeps s0 s) (d : Nat) : Keeps s0 (domLost s d) := by
  unfold domLost
  repeat' first
    | refine fun x => ?_
    | with_reducible assumption
    | with_reducible first | apply State.clearMem_keeps | apply clearMem_keeps | apply State.setCore_keeps | apply State.setCx_keeps | apply State.publish_keeps | apply State.rindDrop_keeps
    | with_reducible apply Keeps.ite
    | with_reducible refine Keeps.foldl ?_ ?_
    | split
    | ((conv in (State.mk ..) => skip); with_reducible apply Keeps.mkUpd)

theorem State.domLocks_keeps {s0 s : State} (h : Keeps s0 s) (d : Nat) : Keeps s0 (domLocks s d) := by
  unfold domLocks
  repeat' first
    | refine fun x => ?_
    | with_reducible assumption
    | with_reducible first | apply State.breakLock_keeps | apply State.dropTransfer_keeps
    | with_reducible apply Keeps.ite
    | with_reducible refine Keeps.foldl ?_ ?_
    | split
    | ((conv in (State.mk ..) => skip); with_reducible apply Keeps.mkUpd)

theorem State.domStart_keeps {s0 s : State} (h : Keeps s0 s) (d : Nat) (target : Nat) : Keeps s0 (domStart s d target) := by
  unfold domStart
  repeat' first
    | with_reducible assumption
    | with_reducible first | apply State.setFn_keeps | apply State.setRf_keeps | apply State.rindStop_keeps | apply State.domLocks_keeps | apply State.syncHeld_keeps | apply State.rndFault_keeps
    | with_reducible apply Keeps.ite

theorem State.domRequest_keeps {s0 s : State} (h : Keeps s0 s) (d : Nat) (target : Nat) : Keeps s0 (domRequest s d target) := by
  unfold domRequest
  repeat' first
    | with_reducible assumption
    | with_reducible first | apply State.raise_keeps | apply State.setReg_keeps | apply State.wign_keeps | apply State.syncHeld_keeps | apply State.holdReq_keeps | apply State.domStart_keeps
    | with_reducible apply Keeps.ite

theorem State.domDone_keeps {s0 s : State} (h : Keeps s0 s) (d : Nat) : Keeps s0 (domDone s d) := by
  unfold domDone
  repeat' first
    | with_reducible assumption
    | with_reducible first | apply State.setRf_keeps | apply State.rindStart_keeps | apply State.rndPushAll_keeps | apply State.timFresh_keeps | apply State.domLost_keeps | apply State.setFn_keeps | apply State.raise_keeps | apply State.rndFault_keeps | apply State.domStart_keeps | apply State.syncHeld_keeps
    | with_reducible apply Keeps.ite
    | split
    | ((conv in (State.mk ..) => skip); with_reducible apply Keeps.mkUpd)

theorem State.domReqWrite_keeps {s0 s : State} (h : Keeps s0 s) (d : Nat) (v : Word) : Keeps s0 (domReqWrite s d v) := by
  unfold domReqWrite
  repeat' first
    | with_reducible assumption
    | with_reducible first | apply State.setReg_keeps | apply setReg_keeps | apply State.free_keeps | apply free_keeps | apply State.domRequest_keeps
    | with_reducible apply Keeps.ite
    | split
    | ((conv in (State.mk ..) => skip); with_reducible apply Keeps.mkUpd)

theorem State.domForce_keeps {s0 s : State} (h : Keeps s0 s) (d : Nat) (st : Nat) : Keeps s0 (domForce s d st) := by
  unfold domForce
  repeat' first
    | with_reducible assumption
    | with_reducible first | apply State.domLost_keeps | apply State.syncBusy_keeps | apply State.setFn_keeps | apply State.setReg_keeps
    | split

theorem execSysModereq_keeps {s0 s : State} (h : Keeps s0 s) (ag : Agent) (v : Word) : Keeps.Out s0 (execSysModereq ag v s) := by
  unfold execSysModereq
  repeat' first
    | refine fun x => ?_
    | with_reducible assumption
    | with_reducible first | apply State.regWrite_keeps | apply State.requestMode_keeps
    | with_reducible apply Keeps.out

theorem execModeChange_keeps {s0 s : State} (h : Keeps s0 s)  : Keeps.Out s0 (execModeChange s) := by
  unfold execModeChange
  repeat' first
    | with_reducible assumption
    | with_reducible first | apply State.changeMode_keeps
    | with_reducible apply Keeps.out
    | split

theorem execMapCheck_keeps {s0 s : State} (h : Keeps s0 s)  : Keeps.Out s0 (execMapCheck s) := by
  unfold execMapCheck
  repeat' first
    | with_reducible assumption
    | with_reducible first | apply State.mapCheck_keeps
    | with_reducible apply Keeps.out

theorem execDomainRequest_keeps {s0 s : State} (h : Keeps s0 s) (ag : Agent) (d : Fin 15) (v : Word) : Keeps.Out s0 (execDomainRequest ag d v s) := by
  unfold execDomainRequest
  repeat' first
    | refine fun x => ?_
    | with_reducible assumption
    | with_reducible first | apply State.regWrite_keeps | apply State.domReqWrite_keeps
    | with_reducible apply Keeps.out
    | with_reducible apply Keeps.outIte

theorem execDomDone_keeps {s0 s : State} (h : Keeps s0 s) (d : Fin 15) : Keeps.Out s0 (execDomDone d s) := by
  unfold execDomDone
  repeat' first
    | with_reducible assumption
    | with_reducible first | apply State.domDone_keeps
    | with_reducible apply Keeps.out

theorem execPllUnlock_keeps {s0 s : State} (h : Keeps s0 s) (p : Fin 6) : Keeps.Out s0 (execPllUnlock p s) := by
  unfold execPllUnlock
  repeat' first
    | with_reducible assumption
    | with_reducible first | apply State.setRb_keeps | apply State.free_keeps | apply free_keeps | apply State.bump_keeps | apply State.raiseFree_keeps
    | with_reducible apply Keeps.out
    | with_reducible apply Keeps.ite
    | with_reducible apply Keeps.outIte
    | split
    | ((conv in (State.mk ..) => skip); with_reducible apply Keeps.mkUpd)

theorem execPllLock_keeps {s0 s : State} (h : Keeps s0 s) (p : Fin 6) : Keeps.Out s0 (execPllLock p s) := by
  unfold execPllLock
  repeat' first
    | with_reducible assumption
    | with_reducible first | apply State.setRb_keeps
    | with_reducible apply Keeps.out
    | split
    | ((conv in (State.mk ..) => skip); with_reducible apply Keeps.mkUpd)

theorem execRef25Measurement_keeps {s0 s : State} (h : Keeps s0 s) (ppm : Half) : Keeps.Out s0 (execRef25Measurement ppm s) := by
  unfold execRef25Measurement
  repeat' first
    | with_reducible assumption
    | with_reducible first | apply State.setRb_keeps | apply State.setReg_keeps
    | with_reducible apply Keeps.out
    | with_reducible apply Keeps.outIte

theorem execSupplyWarn_keeps {s0 s : State} (h : Keeps s0 s) (_i : Fin 6) : Keeps.Out s0 (execSupplyWarn _i s) := by
  unfold execSupplyWarn
  repeat' first
    | with_reducible assumption
    | with_reducible first | apply State.raiseFree_keeps
    | with_reducible apply Keeps.out

theorem execVbatLow_keeps {s0 s : State} (h : Keeps s0 s)  : Keeps.Out s0 (execVbatLow s) := by
  unfold execVbatLow
  repeat' first
    | with_reducible assumption
    | with_reducible first | apply State.raiseFree_keeps
    | with_reducible apply Keeps.out

end Sys2Proof.Machine
end

