-- ==== Sys2Proof/Laws/KeepsSwap.lean ====
section
/-! SUPPORT. `Keeps` of the operations and meanings of Machine/Swap.lean. -/

-- one declaration at a time: many at once take a thread and its stack each
set_option Elab.async false

set_option linter.all false

namespace Sys2Proof.Machine

open State

theorem State.swapPage_keeps {s0 s : State} (h : Keeps s0 s) (p : Nat) : Keeps s0 (swapPage s p) := by
  unfold swapPage
  dsimp only
  refine setRb_keeps (setReg_keeps (h.trans ?_) _ _) _ _ _
  exact ⟨rfl, rfl, id, fun _ => Sparse.wf_insertAll _ (Sparse.wf_nil _), Nat.le_refl _, List.prefix_rfl⟩

theorem State.copyPage_keeps {s0 s : State} (h : Keeps s0 s) (p : Nat) : Keeps s0 (copyPage s p) := by
  unfold copyPage
  repeat' first
    | refine fun x => ?_
    | with_reducible assumption
    | with_reducible first | apply State.setRb_keeps | apply State.setReg_keeps
    | with_reducible refine Keeps.foldl ?_ ?_

theorem State.reslot_keeps {s0 s : State} (h : Keeps s0 s)  : Keeps s0 (reslot s) := by
  unfold reslot
  repeat' first
    | with_reducible assumption
    | with_reducible first | apply State.count_keeps
    | ((conv in (State.mk ..) => skip); with_reducible apply Keeps.mkUpd)

theorem State.swapSets_keeps {s0 s : State} (h : Keeps s0 s)  : Keeps s0 (swapSets s) := by
  unfold swapSets
  repeat' first
    | refine fun x => ?_
    | with_reducible assumption
    | with_reducible first | apply State.reslot_keeps | apply State.swapPage_keeps
    | with_reducible apply Keeps.ite
    | with_reducible refine Keeps.foldl ?_ ?_
    | ((conv in (State.mk ..) => skip); with_reducible apply Keeps.mkUpd)

theorem State.configSwap_keeps {s0 s : State} (h : Keeps s0 s)  : Keeps s0 (configSwap s) := by
  unfold configSwap
  repeat' first
    | with_reducible assumption
    | with_reducible first | apply State.fcRestart_keeps | apply State.swapSets_keeps
    | ((try lift_lets); intro x; refine Keeps.cut (s := s0) (x := x) ?_ ?_; unfold x; rotate_left; intro hx; clear_value x; rotate_right)
    | ((try lift_lets); intro x; clear_value x)
    | ((conv in (State.mk ..) => skip); with_reducible apply Keeps.mkUpd)

theorem State.swapGo_keeps {s0 s : State} (h : Keeps s0 s)  : Keeps s0 (swapGo s) := by
  unfold swapGo
  repeat' first
    | with_reducible assumption
    | with_reducible first | apply State.wign_keeps | apply State.raise_keeps | apply State.setRb_keeps
    | with_reducible apply Keeps.ite
    | split
    | ((conv in (State.mk ..) => skip); with_reducible apply Keeps.mkUpd)

theorem State.swapCopy_keeps {s0 s : State} (h : Keeps s0 s)  : Keeps s0 (swapCopy s) := by
  unfold swapCopy
  repeat' first
    | with_reducible assumption
    | with_reducible first | apply State.wign_keeps | apply State.setRb_keeps
    | split

theorem State.softClear_keeps {s0 s : State} (h : Keeps s0 s) (p : Nat) : Keeps s0 (softClear s p) := by
  unfold softClear
  dsimp only
  refine setRb_keeps (setReg_keeps (h.trans ?_) _ _) _ _ _
  exact ⟨rfl, rfl, id, fun w => Sparse.wf_clear w _ _, Nat.le_refl _, List.prefix_rfl⟩

theorem State.thaw_keeps {s0 s : State} (h : Keeps s0 s) (p : Nat) : Keeps s0 (thaw s p) := by
  unfold thaw
  repeat' first
    | refine fun x => ?_
    | with_reducible assumption
    | with_reducible first | apply State.setReg_keeps | apply State.setRb_keeps
    | with_reducible refine Keeps.foldl ?_ ?_
    | ((conv in (State.mk ..) => skip); with_reducible apply Keeps.mkUpd)

theorem State.enRequest_keeps {s0 s : State} (h : Keeps s0 s) (p : Nat) (en : Bool) : Keeps s0 (enRequest s p en) := by
  unfold enRequest
  repeat' first
    | with_reducible assumption
    | with_reducible first | apply State.holdReq_keeps | apply State.setRb_keeps | apply State.rindStop_keeps | apply State.rndFault_keeps | apply State.syncBusy_keeps | apply State.setFn_keeps
    | with_reducible apply Keeps.ite
    | ((conv in (State.mk ..) => skip); with_reducible apply Keeps.mkUpd)

theorem State.softReset_keeps {s0 s : State} (h : Keeps s0 s) (p : Nat) : Keeps s0 (softReset s p) := by
  unfold softReset
  repeat' first
    | with_reducible assumption
    | with_reducible first | apply State.wign_keeps | apply State.syncBusy_keeps | apply State.setRb_keeps
    | split
    | ((conv in (State.mk ..) => skip); with_reducible apply Keeps.mkUpd)

theorem State.pendClear_keeps {s0 s : State} (h : Keeps s0 s) (p : Nat) (v : Word) : Keeps s0 (pendClear s p v) := by
  unfold pendClear
  repeat' first
    | with_reducible assumption
    | with_reducible first | apply State.setReg_keeps

theorem State.swRaise_keeps {s0 s : State} (h : Keeps s0 s) (v : Word) : Keeps s0 (swRaise s v) := by
  unfold swRaise
  repeat' first
    | refine fun x => ?_
    | with_reducible assumption
    | with_reducible first | apply State.free_keeps | apply State.raiseFree_keeps
    | with_reducible refine Keeps.foldl ?_ ?_
    | split

theorem State.logPut_keeps {s0 s : State} (h : Keeps s0 s) (r : LogRec) : Keeps s0 (logPut s r) := by
  unfold logPut
  repeat' first
    | refine fun x => ?_
    | with_reducible assumption
    | with_reducible first | apply State.wrBytes_keeps | apply State.setRf_keeps | apply State.bump_keeps | apply State.setReg_keeps
    | with_reducible refine Keeps.foldl ?_ ?_
    | split

theorem State.ridxWrite_keeps {s0 s : State} (h : Keeps s0 s) (v : Word) : Keeps s0 (ridxWrite s v) := by
  unfold ridxWrite
  repeat' first
    | with_reducible assumption
    | with_reducible first | apply State.setRf_keeps | apply State.setReg_keeps

theorem State.enDone_keeps {s0 s : State} (h : Keeps s0 s) (p : Nat) : Keeps s0 (enDone s p) := by
  unfold enDone
  repeat' first
    | with_reducible assumption
    | with_reducible first | apply State.syncBusy_keeps | apply State.setFn_keeps | apply State.setRb_keeps
    | ((try lift_lets); intro x; clear_value x)
    | split

theorem State.ownerPut_keeps {s0 s : State} (h : Keeps s0 s) (ag : Agent) (p : Nat) (v : Word) : Keeps s0 (ownerPut s ag p v) := by
  unfold ownerPut
  repeat' first
    | with_reducible assumption
    | with_reducible first | apply State.wign_keeps | apply State.setReg_keeps
    | split

theorem State.ctrlPut_keeps {s0 s : State} (h : Keeps s0 s) (p : Nat) (v : Word) : Keeps s0 (ctrlPut s p v) := by
  unfold ctrlPut
  repeat' first
    | with_reducible assumption
    | with_reducible first | apply State.setRb_keeps | apply State.enRequest_keeps | apply State.thaw_keeps | apply State.softReset_keeps
    | split

theorem State.cfgswapWrite_keeps {s0 s : State} (h : Keeps s0 s) (v : Word) : Keeps s0 (cfgswapWrite s v) := by
  unfold cfgswapWrite
  repeat' first
    | with_reducible assumption
    | with_reducible first | apply State.swapGo_keeps | apply State.swapCopy_keeps
    | split

theorem ctrlWrite_keeps {s0 s : State} (h : Keeps s0 s) (ag : Agent) (p : Fin 37) (f : State → State) (hf2 : ∀ x0, Keeps s0 x0 → Keeps s0 (f x0)) : Keeps s0 (ctrlWrite ag p f s) := by
  unfold ctrlWrite
  repeat' first
    | with_reducible assumption
    | with_reducible first | apply State.regWrite_keeps

theorem execBar0winWrite_keeps {s0 s : State} (h : Keeps s0 s) (ag : Agent) (v : Word) : Keeps.Out s0 (execBar0winWrite ag v s) := by
  unfold execBar0winWrite
  repeat' first
    | refine fun x => ?_
    | with_reducible assumption
    | with_reducible first | apply State.regWrite_keeps | apply State.setReg_keeps
    | with_reducible apply Keeps.out

theorem execSoftRst_keeps {s0 s : State} (h : Keeps s0 s) (ag : Agent) (p : Fin 37) : Keeps.Out s0 (execSoftRst ag p s) := by
  unfold execSoftRst
  repeat' first
    | refine fun x => ?_
    | with_reducible assumption
    | with_reducible first | apply ctrlWrite_keeps | apply State.softReset_keeps
    | with_reducible apply Keeps.out

theorem execPageEnable_keeps {s0 s : State} (h : Keeps s0 s) (ag : Agent) (p : Fin 37) (en : Bool) : Keeps.Out s0 (execPageEnable ag p en s) := by
  unfold execPageEnable
  repeat' first
    | refine fun x => ?_
    | with_reducible assumption
    | with_reducible first | apply ctrlWrite_keeps | apply State.enRequest_keeps
    | with_reducible apply Keeps.out

theorem execFreezeSet_keeps {s0 s : State} (h : Keeps s0 s) (ag : Agent) (p : Fin 37) : Keeps.Out s0 (execFreezeSet ag p s) := by
  unfold execFreezeSet
  repeat' first
    | refine fun x => ?_
    | with_reducible assumption
    | with_reducible first | apply ctrlWrite_keeps | apply State.setRb_keeps
    | with_reducible apply Keeps.out

theorem execFreezeClear_keeps {s0 s : State} (h : Keeps s0 s) (ag : Agent) (p : Fin 37) : Keeps.Out s0 (execFreezeClear ag p s) := by
  unfold execFreezeClear
  repeat' first
    | refine fun x => ?_
    | with_reducible assumption
    | with_reducible first | apply ctrlWrite_keeps | apply State.thaw_keeps
    | with_reducible apply Keeps.out

theorem execOwnerWrite_keeps {s0 s : State} (h : Keeps s0 s) (ag : Agent) (p : Fin 37) (v : Word) : Keeps.Out s0 (execOwnerWrite ag p v s) := by
  unfold execOwnerWrite
  repeat' first
    | refine fun x => ?_
    | with_reducible assumption
    | with_reducible first | apply State.guarded_keeps | apply State.ownerPut_keeps
    | with_reducible apply Keeps.out

theorem execOwnerLock_keeps {s0 s : State} (h : Keeps s0 s) (ag : Agent) (p : Fin 37) : Keeps.Out s0 (execOwnerLock ag p s) := by
  unfold execOwnerLock
  repeat' first
    | refine fun x => ?_
    | with_reducible assumption
    | with_reducible first | apply State.guarded_keeps | apply State.ownerPut_keeps
    | with_reducible apply Keeps.out

theorem execCfgswapGo_keeps {s0 s : State} (h : Keeps s0 s) (ag : Agent) : Keeps.Out s0 (execCfgswapGo ag s) := by
  unfold execCfgswapGo
  repeat' first
    | with_reducible assumption
    | with_reducible first | apply State.regWrite_keeps | apply State.swapGo_keeps
    | with_reducible apply Keeps.out

theorem execConfigSwap_keeps {s0 s : State} (h : Keeps s0 s)  : Keeps.Out s0 (execConfigSwap s) := by
  unfold execConfigSwap
  repeat' first
    | with_reducible assumption
    | with_reducible first | apply State.setRb_keeps | apply State.configSwap_keeps
    | with_reducible apply Keeps.out
    | with_reducible apply Keeps.outIte

theorem execCfgswapCopy_keeps {s0 s : State} (h : Keeps s0 s) (ag : Agent) : Keeps.Out s0 (execCfgswapCopy ag s) := by
  unfold execCfgswapCopy
  repeat' first
    | with_reducible assumption
    | with_reducible first | apply State.regWrite_keeps | apply State.swapCopy_keeps
    | with_reducible apply Keeps.out

theorem execCopyDone_keeps {s0 s : State} (h : Keeps s0 s)  : Keeps.Out s0 (execCopyDone s) := by
  unfold execCopyDone
  repeat' first
    | refine fun x => ?_
    | with_reducible assumption
    | with_reducible first | apply State.setRb_keeps | apply State.copyPage_keeps
    | with_reducible apply Keeps.out
    | with_reducible apply Keeps.outIte
    | with_reducible refine Keeps.foldl ?_ ?_

theorem execEvtPendClear_keeps {s0 s : State} (h : Keeps s0 s) (ag : Agent) (p : Fin 37) (v : Word) : Keeps.Out s0 (execEvtPendClear ag p v s) := by
  unfold execEvtPendClear
  repeat' first
    | refine fun x => ?_
    | with_reducible assumption
    | with_reducible first | apply State.regWrite_keeps | apply State.pendClear_keeps
    | with_reducible apply Keeps.out

theorem execEvtSwraise_keeps {s0 s : State} (h : Keeps s0 s) (ag : Agent) (v : Word) : Keeps.Out s0 (execEvtSwraise ag v s) := by
  unfold execEvtSwraise
  repeat' first
    | refine fun x => ?_
    | with_reducible assumption
    | with_reducible first | apply State.regWrite_keeps | apply State.swRaise_keeps
    | with_reducible apply Keeps.out

theorem execLogWrite_keeps {s0 s : State} (h : Keeps s0 s)  : Keeps.Out s0 (execLogWrite s) := by
  unfold execLogWrite
  repeat' first
    | with_reducible assumption
    | with_reducible first | apply State.logPut_keeps
    | with_reducible apply Keeps.out
    | split
    | ((conv in (State.mk ..) => skip); with_reducible apply Keeps.mkUpd)

theorem execLogRidxWrite_keeps {s0 s : State} (h : Keeps s0 s) (ag : Agent) (v : Word) : Keeps.Out s0 (execLogRidxWrite ag v s) := by
  unfold execLogRidxWrite
  repeat' first
    | refine fun x => ?_
    | with_reducible assumption
    | with_reducible first | apply State.regWrite_keeps | apply State.ridxWrite_keeps
    | with_reducible apply Keeps.out

theorem heldStart_keeps {s0 s : State} (h : Keeps s0 s) (id : Nat) : Keeps s0 (heldStart s id) := by
  unfold heldStart
  dsimp only
  split
  · split
    · repeat' first
    | with_reducible assumption
    | with_reducible first | apply State.syncHeld_keeps | apply State.domStart_keeps | apply State.setFn_keeps | apply State.chanDown_keeps | apply State.setRb_keeps | apply State.syncBusy_keeps | apply State.rindStop_keeps
    | split
    | ((conv in (State.mk ..) => skip); with_reducible apply Keeps.mkUpd)
    · repeat' first
    | with_reducible assumption
    | with_reducible first | apply State.syncHeld_keeps | apply State.domStart_keeps | apply State.setFn_keeps | apply State.chanDown_keeps | apply State.setRb_keeps | apply State.syncBusy_keeps | apply State.rindStop_keeps
    | split
    | ((conv in (State.mk ..) => skip); with_reducible apply Keeps.mkUpd)
  · exact h

end Sys2Proof.Machine
end

