-- ==== Sys2Proof/Laws/KeepsImage.lean ====
section
/-! SUPPORT. `Keeps` of the operations and meanings of Machine/Image.lean. -/

-- one declaration at a time: many at once take a thread and its stack each
set_option Elab.async false

set_option linter.all false

namespace Sys2Proof.Machine

open State

theorem State.setEcc_keeps {s0 s : State} (h : Keeps s0 s) (k : Nat) (m : Nat) : Keeps s0 (setEcc s k m) := by
  unfold setEcc
  repeat' first
    | with_reducible assumption
    | ((conv in (State.mk ..) => skip); with_reducible apply Keeps.mkUpd)

theorem State.ueRecord_keeps {s0 s : State} (h : Keeps s0 s) (mem : Nat) (lane : Nat) (half : Nat) (addr : Nat) : Keeps s0 (ueRecord s mem lane half addr) := by
  unfold ueRecord
  repeat' first
    | with_reducible assumption
    | with_reducible first | apply State.setReg_keeps | apply State.bump_keeps

theorem State.ueWord_keeps {s0 s : State} (h : Keeps s0 s) (k : Nat) : Keeps s0 (ueWord s k) := by
  unfold ueWord
  repeat' first
    | with_reducible assumption
    | with_reducible first | apply State.ueRecord_keeps | apply State.bump_keeps | apply State.wrLE_keeps | apply State.setEcc_keeps | apply State.setReg_keeps | apply State.raise_keeps | apply State.safeHalt_keeps
    | with_reducible apply Keeps.ite
    | ((conv in (State.mk ..) => skip); with_reducible apply Keeps.mkUpd)

theorem State.ceWord_keeps {s0 s : State} (h : Keeps s0 s) (k : Nat) : Keeps s0 (ceWord s k) := by
  unfold ceWord
  repeat' first
    | with_reducible assumption
    | with_reducible first | apply State.raise_keeps | apply State.bump_keeps | apply State.setEcc_keeps

theorem State.touch_keeps {s0 s : State} (h : Keeps s0 s) (k : Nat) : Keeps s0 (touch s k) := by
  unfold touch
  repeat' first
    | with_reducible assumption
    | with_reducible first | apply State.ceWord_keeps | apply State.ueWord_keeps
    | split

theorem State.rdT_keeps {s0 s : State} (h : Keeps s0 s) (k : Nat) : Keeps s0 (rdT s k).2 := by
  unfold rdT
  repeat' first
    | with_reducible assumption
    | with_reducible first | apply State.touch_keeps

theorem State.wrT_keeps {s0 s : State} (h : Keeps s0 s) (k : Nat) (v : Byte) : Keeps s0 (wrT s k v) := by
  unfold wrT
  repeat' first
    | with_reducible assumption
    | with_reducible first | apply State.wr_keeps | apply State.touch_keeps

theorem State.dirty_keeps {s0 s : State} (h : Keeps s0 s) (k : Nat) (nd : Bool) : Keeps s0 (dirty s k nd) := by
  unfold dirty
  repeat' first
    | with_reducible assumption
    | ((conv in (State.mk ..) => skip); with_reducible apply Keeps.mkUpd)

theorem State.noteAcc_keeps {s0 s : State} (h : Keeps s0 s) (a : PanAcc) : Keeps s0 (noteAcc s a) := by
  unfold noteAcc
  repeat' first
    | with_reducible assumption
    | with_reducible apply Keeps.ite
    | split
    | ((conv in (State.mk ..) => skip); with_reducible apply Keeps.mkUpd)

theorem State.panHost_keeps {s0 s : State} (h : Keeps s0 s) (k : Nat) : Keeps s0 (panHost s k) := by
  unfold panHost
  repeat' first
    | refine fun x => ?_
    | with_reducible assumption
    | with_reducible first | apply State.noteAcc_keeps | apply State.free_keeps | apply free_keeps | apply State.wr_keeps | apply wr_keeps
    | with_reducible apply Keeps.ite
    | split
    | ((conv in (State.mk ..) => skip); with_reducible apply Keeps.mkUpd)

theorem State.pantryWr_keeps {s0 s : State} (h : Keeps s0 s) (k : Nat) (v : Byte) (nd : Bool) : Keeps s0 (pantryWr s k v nd) := by
  unfold pantryWr
  repeat' first
    | with_reducible assumption
    | with_reducible first | apply State.dirty_keeps | apply State.wrT_keeps

theorem State.wrLines_keeps {s0 s : State} (h : Keeps s0 s) (k : Nat) (bs : List Byte) : Keeps s0 (wrLines s k bs) := by
  unfold wrLines
  repeat' first
    | refine fun x => ?_
    | with_reducible assumption
    | with_reducible first | apply State.wrBytes_keeps
    | with_reducible refine Keeps.foldl ?_ ?_
    | split
    | ((conv in (State.mk ..) => skip); with_reducible apply Keeps.mkUpd)

theorem State.recvBlock_keeps {s0 s : State} (h : Keeps s0 s) (b : Nat) (bs : List Byte) : Keeps s0 (recvBlock s b bs) := by
  unfold recvBlock
  repeat' first
    | with_reducible assumption
    | with_reducible first | apply State.wrLines_keeps
    | ((try lift_lets); intro x; refine Keeps.cut (s := s0) (x := x) ?_ ?_; unfold x; rotate_left; intro hx; clear_value x; rotate_right)
    | ((try lift_lets); intro x; clear_value x)
    | ((conv in (State.mk ..) => skip); with_reducible apply Keeps.mkUpd)

theorem State.touchRange_keeps {s0 s : State} (h : Keeps s0 s) (lo : Nat) (hi : Nat) : Keeps s0 (touchRange s lo hi) := by
  unfold touchRange
  repeat' first
    | refine fun x => ?_
    | with_reducible assumption
    | with_reducible first | apply State.touch_keeps
    | with_reducible refine Keeps.foldl ?_ ?_

theorem State.touchBlocks_keeps {s0 s : State} (h : Keeps s0 s) (base : Nat) (bs : List Nat) : Keeps s0 (touchBlocks s base bs) := by
  unfold touchBlocks
  repeat' first
    | refine fun x => ?_
    | with_reducible assumption
    | with_reducible first | apply State.touchRange_keeps
    | with_reducible apply Keeps.ite
    | with_reducible refine Keeps.foldl ?_ ?_
    | split
    | ((conv in (State.mk ..) => skip); with_reducible apply Keeps.mkUpd)

theorem State.copyWords_keeps {s0 s : State} (h : Keeps s0 s) (src : Nat) (dst : Nat) (n : Nat) : Keeps s0 (copyWords s src dst n) := by
  unfold copyWords
  repeat' first
    | with_reducible assumption
    | with_reducible first | apply State.touchRange_keeps | apply State.copyMem_keeps | apply copyMem_keeps
    | with_reducible apply Keeps.ite
    | split
    | ((conv in (State.mk ..) => skip); with_reducible apply Keeps.mkUpd)

theorem State.recvLate_keeps {s0 s : State} (h : Keeps s0 s) (b : Nat) : Keeps s0 (recvLate s b) := by
  unfold recvLate
  repeat' first
    | with_reducible assumption
    | with_reducible apply Keeps.ite
    | split
    | ((conv in (State.mk ..) => skip); with_reducible apply Keeps.mkUpd)

theorem State.canFill_keeps {s0 s : State} (h : Keeps s0 s)  : Keeps s0 (canFill s) := by
  unfold canFill
  repeat' first
    | with_reducible assumption
    | with_reducible first | apply State.free_keeps | apply free_keeps | apply State.recvLate_keeps | apply State.freeBytes_keeps | apply freeBytes_keeps | apply State.recvBlock_keeps
    | with_reducible apply Keeps.ite
    | split
    | ((conv in (State.mk ..) => skip); with_reducible apply Keeps.mkUpd)

theorem State.blkFree_keeps {s0 s : State} (h : Keeps s0 s) (b : Nat) : Keeps s0 (blkFree s b) := by
  unfold blkFree
  repeat' first
    | with_reducible assumption
    | with_reducible first | apply State.freeBytes_keeps | apply freeBytes_keeps | apply State.wrLines_keeps
    | with_reducible apply Keeps.ite
    | split
    | ((conv in (State.mk ..) => skip); with_reducible apply Keeps.mkUpd)

theorem State.localErr_keeps {s0 s : State} (h : Keeps s0 s)  : Keeps s0 (localErr s) := by
  unfold localErr
  repeat' first
    | with_reducible assumption
    | with_reducible first | apply State.blkFree_keeps
    | with_reducible apply Keeps.ite
    | split
    | ((conv in (State.mk ..) => skip); with_reducible apply Keeps.mkUpd)

theorem State.freezeBlock_keeps {s0 s : State} (h : Keeps s0 s) (b : Nat) : Keeps s0 (freezeBlock s b) := by
  unfold freezeBlock
  repeat' first
    | with_reducible assumption
    | with_reducible first | apply State.copyWords_keeps | apply State.clearMem_keeps | apply clearMem_keeps
    | with_reducible apply Keeps.ite
    | split
    | ((conv in (State.mk ..) => skip); with_reducible apply Keeps.mkUpd)

theorem State.freezeMarks_keeps {s0 s : State} (h : Keeps s0 s)  : Keeps s0 (freezeMarks s) := by
  unfold freezeMarks
  repeat' first
    | refine fun x => ?_
    | with_reducible assumption
    | with_reducible first | apply State.raise_keeps | apply State.bump_keeps
    | with_reducible refine Keeps.foldl ?_ ?_
    | ((conv in (State.mk ..) => skip); with_reducible apply Keeps.mkUpd)

theorem State.freezeImage_keeps {s0 s : State} (h : Keeps s0 s)  : Keeps s0 (freezeImage s) := by
  unfold freezeImage
  repeat' first
    | refine fun x => ?_
    | with_reducible assumption
    | with_reducible first | apply State.copyWords_keeps | apply State.freezeBlock_keeps | apply State.freezeMarks_keeps
    | with_reducible apply Keeps.ite
    | with_reducible refine Keeps.foldl ?_ ?_
    | split
    | ((conv in (State.mk ..) => skip); with_reducible apply Keeps.mkUpd)

theorem State.psnClear_keeps {s0 s : State} (h : Keeps s0 s) (v : Word) : Keeps s0 (psnClear s v) := by
  unfold psnClear
  repeat' first
    | with_reducible assumption
    | split
    | ((conv in (State.mk ..) => skip); with_reducible apply Keeps.mkUpd)

theorem execPsnclr_keeps {s0 s : State} (h : Keeps s0 s) (ag : Agent) (v : Word) : Keeps.Out s0 (execPsnclr ag v s) := by
  unfold execPsnclr
  repeat' first
    | refine fun x => ?_
    | with_reducible assumption
    | with_reducible first | apply State.regWrite_keeps | apply State.psnClear_keeps
    | with_reducible apply Keeps.out

end Sys2Proof.Machine
end

