-- ==== Sys2Proof/Laws/KeepsCells.lean ====
section
/-! SUPPORT. `Keeps` of the operations and meanings of Machine/Cells.lean. -/

-- one declaration at a time: many at once take a thread and its stack each
set_option Elab.async false

set_option linter.all false

namespace Sys2Proof.Machine

open State

theorem State.setCellBase_keeps {s0 s : State} (h : Keeps s0 s) (n : Nat) (b : Int) : Keeps s0 (setCellBase s n b) := by
  unfold setCellBase
  repeat' first
    | with_reducible assumption
    | ((conv in (State.mk ..) => skip); with_reducible apply Keeps.mkUpd)

theorem State.setStatus_keeps {s0 s : State} (h : Keeps s0 s) (n : Nat) (st : Nat) : Keeps s0 (setStatus s n st) := by
  unfold setStatus
  repeat' first
    | with_reducible assumption
    | with_reducible first | apply State.wr_keeps

theorem State.setOvf_keeps {s0 s : State} (h : Keeps s0 s) (n : Nat) : Keeps s0 (setOvf s n) := by
  unfold setOvf
  repeat' first
    | with_reducible assumption
    | with_reducible first | apply State.setStatus_keeps
    | with_reducible apply Keeps.ite
    | split
    | ((conv in (State.mk ..) => skip); with_reducible apply Keeps.mkUpd)

theorem State.cellOvf_keeps {s0 s : State} (h : Keeps s0 s) (n : Nat) : Keeps s0 (cellOvf s n) := by
  unfold cellOvf
  repeat' first
    | with_reducible assumption
    | with_reducible first | apply State.setOvf_keeps | apply State.bump_keeps | apply State.setReg_keeps | apply setReg_keeps | apply State.raise_keeps
    | with_reducible apply Keeps.ite
    | split
    | ((conv in (State.mk ..) => skip); with_reducible apply Keeps.mkUpd)

theorem State.setCellBuf_keeps {s0 s : State} (h : Keeps s0 s) (ag : Nat) (b : CellBuf) : Keeps s0 (setCellBuf s ag b) := by
  unfold setCellBuf
  repeat' first
    | with_reducible assumption
    | ((conv in (State.mk ..) => skip); with_reducible apply Keeps.mkUpd)

theorem State.cellLatch_keeps {s0 s : State} (h : Keeps s0 s) (ag : Nat) (n : Nat) (base : Int) : Keeps s0 (cellLatch s ag n base) := by
  unfold cellLatch
  repeat' first
    | with_reducible assumption
    | with_reducible first | apply State.setOvf_keeps | apply State.cellOvf_keeps | apply State.setCellBuf_keeps
    | with_reducible apply Keeps.ite
    | split
    | ((conv in (State.mk ..) => skip); with_reducible apply Keeps.mkUpd)

theorem State.cellRead_keeps {s0 s : State} (h : Keeps s0 s) (ag : Nat) (n : Nat) (i : Nat) (base : Int) : Keeps s0 (cellRead s ag n i base).2 := by
  unfold cellRead
  repeat' first
    | with_reducible assumption
    | with_reducible first | apply State.cellLatch_keeps
    | ((try lift_lets); intro x; refine Keeps.cut (s := s0) (x := x) ?_ ?_; unfold x; rotate_left; intro hx; clear_value x; rotate_right)
    | ((try lift_lets); intro x; clear_value x)
    | split

theorem State.cellStageFor_keeps {s0 s : State} (h : Keeps s0 s) (ag : Nat) (n : Nat) : Keeps s0 (cellStageFor s ag n) := by
  unfold cellStageFor
  repeat' first
    | with_reducible assumption
    | with_reducible first | apply State.setCellBuf_keeps
    | with_reducible apply Keeps.ite

theorem State.cellCommit_keeps {s0 s : State} (h : Keeps s0 s) (n : Nat) (v : Nat) : Keeps s0 (cellCommit s n v) := by
  unfold cellCommit
  repeat' first
    | with_reducible assumption
    | with_reducible first | apply State.setStatus_keeps | apply State.setCellBase_keeps | apply State.free64_keeps | apply State.wrLE_keeps
    | with_reducible apply Keeps.ite

theorem State.cellAny_keeps {s0 s : State} (h : Keeps s0 s) (n : Nat) : Keeps s0 (cellAny s n) := by
  unfold cellAny
  repeat' first
    | with_reducible assumption
    | with_reducible first | apply State.free64_keeps | apply free64_keeps | apply State.wrLE_keeps | apply wrLE_keeps
    | with_reducible apply Keeps.ite
    | split
    | ((conv in (State.mk ..) => skip); with_reducible apply Keeps.mkUpd)

theorem State.cellSetMode_keeps {s0 s : State} (h : Keeps s0 s) (n : Nat) (m : Byte) : Keeps s0 (cellSetMode s n m) := by
  unfold cellSetMode
  repeat' first
    | with_reducible assumption
    | with_reducible first | apply State.wrLE_keeps | apply wrLE_keeps | apply State.setStatus_keeps | apply State.cellAny_keeps | apply State.wr_keeps | apply wr_keeps | apply State.setCellBase_keeps
    | with_reducible apply Keeps.ite
    | split
    | ((conv in (State.mk ..) => skip); with_reducible apply Keeps.mkUpd)

theorem State.cellWriteByte_keeps {s0 s : State} (h : Keeps s0 s) (ag : Nat) (n : Nat) (i : Nat) (v : Byte) : Keeps s0 (cellWriteByte s ag n i v) := by
  unfold cellWriteByte
  repeat' first
    | with_reducible assumption
    | with_reducible first | apply State.cellStageFor_keeps | apply State.setCellBuf_keeps | apply State.cellCommit_keeps
    | with_reducible apply Keeps.ite
    | split
    | ((conv in (State.mk ..) => skip); with_reducible apply Keeps.mkUpd)

theorem State.cellFabWrite_keeps {s0 s : State} (h : Keeps s0 s) (ag : Nat) (n : Nat) (bs : List (Nat × Byte)) : Keeps s0 (cellFabWrite s ag n bs) := by
  unfold cellFabWrite
  repeat' first
    | refine fun x => ?_
    | with_reducible assumption
    | with_reducible first | apply State.cellSetMode_keeps | apply State.wign_keeps | apply State.cellWriteByte_keeps
    | with_reducible refine Keeps.foldl ?_ ?_
    | split

theorem State.preset_keeps {s0 s : State} (h : Keeps s0 s) (s0_1 : State) (n : Nat) : Keeps s0 (preset s0_1 s n).2 := by
  unfold preset
  dsimp only
  repeat' first
    | with_reducible assumption
    | with_reducible first | apply State.touchRange_keeps | apply State.setReg_keeps | apply setReg_keeps | apply State.raise_keeps
    | with_reducible apply Keeps.ite
    | split
    | ((conv in (State.mk ..) => skip); with_reducible apply Keeps.mkUpd)

theorem State.updateCell_keeps {s0 s : State} (h : Keeps s0 s) (s0_1 : State) (delta : Nat) (n : Nat) : Keeps s0 (updateCell s0_1 s delta n) := by
  unfold updateCell
  repeat' first
    | refine fun x => ?_
    | with_reducible assumption
    | with_reducible first | apply State.setStatus_keeps | apply State.preset_keeps | apply State.cellAny_keeps | apply State.count_keeps | apply State.wrLE_keeps | apply wrLE_keeps | apply State.cellOvf_keeps
    | with_reducible apply Keeps.ite
    | split
    | ((conv in (State.mk ..) => skip); with_reducible apply Keeps.mkUpd)

theorem State.updateCells_keeps {s0 s : State} (h : Keeps s0 s) (cts : Nat) : Keeps s0 (updateCells s cts) := by
  unfold updateCells
  repeat' first
    | refine fun x => ?_
    | with_reducible assumption
    | with_reducible first | apply State.updateCell_keeps | apply State.setRb_keeps | apply State.setReg64_keeps
    | with_reducible refine Keeps.foldl ?_ ?_
    | ((conv in (State.mk ..) => skip); with_reducible apply Keeps.mkUpd)

theorem execTmcModeWrite_keeps {s0 s : State} (h : Keeps s0 s) (ag : Agent) (cell : BitVec 12) (v : Byte) : Keeps.Out s0 (execTmcModeWrite ag cell v s) := by
  unfold execTmcModeWrite
  repeat' first
    | refine fun x => ?_
    | with_reducible assumption
    | with_reducible first | apply State.guarded_keeps | apply State.wign_keeps | apply State.cellFabWrite_keeps
    | with_reducible apply Keeps.out
    | split

theorem execCellCountCommit_keeps {s0 s : State} (h : Keeps s0 s) (ag : Agent) (cell : BitVec 12) (v : Byte) : Keeps.Out s0 (execCellCountCommit ag cell v s) := by
  unfold execCellCountCommit
  repeat' first
    | refine fun x => ?_
    | with_reducible assumption
    | with_reducible first | apply State.guarded_keeps | apply State.wign_keeps | apply State.cellFabWrite_keeps
    | with_reducible apply Keeps.out
    | split

theorem execUpdateDone_keeps {s0 s : State} (h : Keeps s0 s) (clk : BitVec 11) : Keeps.Out s0 (execUpdateDone clk s) := by
  unfold execUpdateDone
  repeat' first
    | with_reducible assumption
    | with_reducible first | apply State.setRb_keeps | apply State.setReg_keeps | apply State.raise_keeps
    | with_reducible apply Keeps.out
    | ((try lift_lets); intro x; refine Keeps.cut (s := s0) (x := x) ?_ ?_; unfold x; rotate_left; intro hx; clear_value x; rotate_right)
    | ((try lift_lets); intro x; clear_value x)
    | split
    | ((conv in (State.mk ..) => skip); with_reducible apply Keeps.mkUpd)

end Sys2Proof.Machine
end

