-- ==== Sys2Proof/Laws/KeepsArbiters.lean ====
section
/-! SUPPORT. `Keeps` of the operations and meanings of Machine/Arbiters.lean. -/

-- one declaration at a time: many at once take a thread and its stack each
set_option Elab.async false

set_option linter.all false

namespace Sys2Proof.Machine

open State

theorem State.arbMax_keeps {s0 s : State} (h : Keeps s0 s) (id : Nat) : Keeps s0 (arbMax s id) := by
  unfold arbMax
  repeat' first
    | with_reducible assumption
    | with_reducible first | apply State.setRf_keeps
    | with_reducible apply Keeps.ite

theorem State.forceWin_keeps {s0 s : State} (h : Keeps s0 s) (id : Nat) (w : Nat) : Keeps s0 (forceWin s id w) := by
  unfold forceWin
  repeat' first
    | with_reducible assumption
    | with_reducible first | apply State.bump_keeps | apply State.raise_keeps
    | ((try lift_lets); intro x; refine Keeps.cut (s := s0) (x := x) ?_ ?_; unfold x; rotate_left; intro hx; clear_value x; rotate_right)
    | ((try lift_lets); intro x; clear_value x)
    | split
    | ((conv in (State.mk ..) => skip); with_reducible apply Keeps.mkUpd)

theorem State.decideArb_keeps {s0 s : State} (h : Keeps s0 s) (id : Nat) (reqs : List Nat) : Keeps s0 (decideArb s id reqs) := by
  unfold decideArb
  dsimp only
  split
  · exact h
  · split
    · exact setArb_keeps h _ _
    · repeat' first
    | with_reducible assumption
    | with_reducible first | apply State.setArb_keeps | apply State.arbMax_keeps | apply State.forceWin_keeps
    | split

theorem State.arbCommitGo_keeps {s0 s : State} (h : Keeps s0 s)  : Keeps s0 (arbCommitGo s) := by
  unfold arbCommitGo
  repeat' first
    | refine fun x => ?_
    | with_reducible assumption
    | with_reducible first | apply State.setReg_keeps | apply State.bump_keeps | apply State.setRb_keeps | apply State.raise_keeps
    | with_reducible refine Keeps.foldl ?_ ?_

theorem State.arbCommitWrite_keeps {s0 s : State} (h : Keeps s0 s) (v : Word) : Keeps s0 (arbCommitWrite s v) := by
  unfold arbCommitWrite
  repeat' first
    | with_reducible assumption
    | with_reducible first | apply State.free_keeps | apply State.arbCommitGo_keeps
    | with_reducible apply Keeps.ite

theorem execArbiterDecision_keeps {s0 s : State} (h : Keeps s0 s) (id : Nat) (reqs : List Nat) (dead : Bool) : Keeps.Out s0 (execArbiterDecision id reqs dead s) := by
  unfold execArbiterDecision
  repeat' first
    | with_reducible assumption
    | with_reducible first | apply State.decideArb_keeps | apply State.bump_keeps
    | with_reducible apply Keeps.out
    | split

theorem execArbCommit_keeps {s0 s : State} (h : Keeps s0 s) (ag : Agent) (v : Word) : Keeps.Out s0 (execArbCommit ag v s) := by
  unfold execArbCommit
  repeat' first
    | refine fun x => ?_
    | with_reducible assumption
    | with_reducible first | apply State.regWrite_keeps | apply State.arbCommitWrite_keeps
    | with_reducible apply Keeps.out

end Sys2Proof.Machine
end

