-- ==== Sys2Proof/Laws/KeepsVuvas.lean ====
section
/-! SUPPORT. `Keeps` of the operations and meanings of Machine/Vuvas.lean. -/

-- one declaration at a time: many at once take a thread and its stack each
set_option Elab.async false

set_option linter.all false

namespace Sys2Proof.Machine

open State

theorem State.vuvCrc_keeps {s0 s : State} (h : Keeps s0 s) (net : Net) : Keeps s0 (vuvCrc s net) := by
  unfold vuvCrc
  repeat' first
    | with_reducible assumption
    | with_reducible first | apply State.bump_keeps | apply State.raise_keeps
    | ((try lift_lets); intro x; refine Keeps.cut (s := s0) (x := x) ?_ ?_; unfold x; rotate_left; intro hx; clear_value x; rotate_right)
    | ((try lift_lets); intro x; clear_value x)
    | split
    | ((conv in (State.mk ..) => skip); with_reducible apply Keeps.mkUpd)

theorem State.vuvRx_keeps {s0 s : State} (h : Keeps s0 s) (net : Net) (f : List Byte) (want : Nat) (k : VFrame → State → State) (hf5 : ∀ x0 x1, Keeps s0 x1 → Keeps s0 (k x0 x1)) : Keeps s0 (vuvRx s net f want k) := by
  unfold vuvRx
  repeat' first
    | with_reducible assumption
    | with_reducible first | apply State.free_keeps | apply free_keeps | apply State.bump_keeps | apply State.vuvCrc_keeps
    | with_reducible apply hf5
    | with_reducible apply Keeps.ite
    | ((try lift_lets); intro x; refine Keeps.cut (s := s0) (x := x) ?_ ?_; unfold x; rotate_left; intro hx; clear_value x; rotate_right)
    | ((try lift_lets); intro x; refine Keeps.cut (s := s0) (x := x.2) ?_ ?_; unfold x; rotate_left; intro hx; clear_value x; rotate_right)
    | ((try lift_lets); intro x; clear_value x)
    | split
    | ((conv in (State.mk ..) => skip); with_reducible apply Keeps.mkUpd)

theorem State.setStnRx_keeps {s0 s : State} (h : Keeps s0 s) (b : Nat) (r : StnRx) : Keeps s0 (setStnRx s b r) := by
  unfold setStnRx
  repeat' first
    | with_reducible assumption
    | ((conv in (State.mk ..) => skip); with_reducible apply Keeps.mkUpd)

theorem State.netSeen_keeps {s0 s : State} (h : Keeps s0 s) (net : Net) : Keeps s0 (netSeen s net) := by
  unfold netSeen
  repeat' first
    | with_reducible assumption
    | with_reducible first | apply State.raise_keeps | apply State.setRb_keeps
    | split
    | ((conv in (State.mk ..) => skip); with_reducible apply Keeps.mkUpd)

theorem State.inCopy_keeps {s0 s : State} (h : Keeps s0 s) (net : Net) (f : VFrame) (lands : Bool) : Keeps s0 (inCopy s net f lands) := by
  unfold inCopy
  repeat' first
    | with_reducible assumption
    | with_reducible first | apply State.bump_keeps | apply State.netSeen_keeps | apply State.wr_keeps | apply wr_keeps | apply State.wrLE_keeps | apply wrLE_keeps | apply State.setStnRx_keeps | apply State.recvBlock_keeps | apply State.recvLate_keeps
    | with_reducible apply Keeps.ite
    | split
    | ((conv in (State.mk ..) => skip); with_reducible apply Keeps.mkUpd)

theorem State.helloRec_keeps {s0 s : State} (h : Keeps s0 s) (b : Nat) (uid : Nat) (acc : Bool) : Keeps s0 (helloRec s b uid acc) := by
  unfold helloRec
  repeat' first
    | with_reducible assumption
    | with_reducible first | apply State.setReg64_keeps | apply State.setReg_keeps

theorem State.hello_keeps {s0 s : State} (h : Keeps s0 s) (f : VFrame) : Keeps s0 (hello s f) := by
  unfold hello
  repeat' first
    | with_reducible assumption
    | with_reducible first | apply State.helloRec_keeps | apply State.setStnRx_keeps | apply State.raise_keeps
    | with_reducible apply Keeps.ite
    | ((conv in (State.mk ..) => skip); with_reducible apply Keeps.mkUpd)

theorem State.sramPut_keeps {s0 s : State} (h : Keeps s0 s) (o : Nat) (y2 : List Byte) : Keeps s0 (sramPut s o y2) := by
  induction y2 generalizing s o with
  | nil => exact h
  | cons b t ih =>
    unfold sramPut
    dsimp only
    refine ih (wr_keeps ?_ _ _) _
    split
    · exact free_keeps h
    · exact h

theorem State.diag_keeps {s0 s : State} (h : Keeps s0 s) (f : VFrame) : Keeps s0 (diag s f) := by
  unfold diag
  repeat' first
    | with_reducible assumption
    | with_reducible first | apply State.raise_keeps | apply State.sramPut_keeps
    | split

theorem State.vuvFreezeStn_keeps {s0 s : State} (h : Keeps s0 s) (b : Nat) : Keeps s0 (vuvFreezeStn s b) := by
  unfold vuvFreezeStn
  repeat' first
    | with_reducible assumption
    | with_reducible first | apply State.wrLE_keeps | apply wrLE_keeps | apply State.touch_keeps | apply State.wr_keeps | apply wr_keeps | apply State.raise_keeps | apply State.setRb_keeps | apply State.setStnRx_keeps
    | with_reducible apply Keeps.ite
    | split
    | ((conv in (State.mk ..) => skip); with_reducible apply Keeps.mkUpd)

theorem State.netFreeze_keeps {s0 s : State} (h : Keeps s0 s) (net : Net) : Keeps s0 (netFreeze s net) := by
  unfold netFreeze
  repeat' first
    | with_reducible assumption
    | with_reducible first | apply State.raise_keeps | apply State.setRb_keeps
    | split
    | ((conv in (State.mk ..) => skip); with_reducible apply Keeps.mkUpd)

theorem State.vuvFreeze_keeps {s0 s : State} (h : Keeps s0 s)  : Keeps s0 (vuvFreeze s) := by
  unfold vuvFreeze
  repeat' first
    | refine fun x => ?_
    | with_reducible assumption
    | with_reducible first | apply State.vuvFreezeStn_keeps | apply State.netFreeze_keeps
    | with_reducible refine Keeps.foldl ?_ ?_
    | ((try lift_lets); intro x; refine Keeps.cut (s := s0) (x := x) ?_ ?_; unfold x; rotate_left; intro hx; clear_value x; rotate_right)
    | ((try lift_lets); intro x; clear_value x)
    | ((conv in (State.mk ..) => skip); with_reducible apply Keeps.mkUpd)

theorem State.vuvFrozen_keeps {s0 s : State} (h : Keeps s0 s)  : Keeps s0 (vuvFrozen s) := by
  unfold vuvFrozen
  repeat' first
    | refine fun x => ?_
    | with_reducible assumption
    | with_reducible first | apply State.setReg_keeps | apply State.wr_keeps
    | with_reducible refine Keeps.foldl ?_ ?_

theorem State.outFrames_keeps {s0 s : State} (h : Keeps s0 s) (base : Nat) (flags : Nat) (n : Nat) (time : Nat) : Keeps s0 (outFrames s base flags n time).2 := by
  unfold outFrames
  repeat' first
    | refine fun x => ?_
    | with_reducible assumption
    | with_reducible first | apply State.free_keeps | apply free_keeps | apply State.vuvSend_keeps | apply State.touchBlocks_keeps
    | with_reducible apply Keeps.ite
    | with_reducible refine Keeps.foldl ?_ ?_
    | split
    | ((conv in (State.mk ..) => skip); with_reducible apply Keeps.mkUpd)

theorem State.pubLate_keeps {s0 s : State} (h : Keeps s0 s) (now : Bool) : Keeps s0 (pubLate s now) := by
  unfold pubLate
  repeat' first
    | with_reducible assumption
    | with_reducible first | apply State.raise_keeps
    | split

theorem State.publishOut_keeps {s0 s : State} (h : Keeps s0 s) (base : Nat) (rep : Bool) : Keeps s0 (publishOut s base rep) := by
  unfold publishOut
  dsimp only
  split
  · split
    · repeat' first
    | with_reducible assumption
    | with_reducible first | apply State.outFrames_keeps | apply State.free_keeps | apply State.setReg_keeps | apply State.pubLate_keeps
    | split
    | ((conv in (State.mk ..) => skip); with_reducible apply Keeps.mkUpd)
    · refine pubLate_keeps ?_ _
      refine Keeps.upd (t := _) ?_ rfl rfl rfl rfl rfl rfl
      repeat' first
    | with_reducible assumption
    | with_reducible first | apply State.outFrames_keeps | apply State.free_keeps | apply State.setReg_keeps | apply State.pubLate_keeps
    | split
    | ((conv in (State.mk ..) => skip); with_reducible apply Keeps.mkUpd)
  · repeat' first
    | with_reducible assumption
    | with_reducible first | apply State.outFrames_keeps | apply State.free_keeps | apply State.setReg_keeps | apply State.pubLate_keeps
    | split
    | ((conv in (State.mk ..) => skip); with_reducible apply Keeps.mkUpd)

theorem State.holdFrames_keeps {s0 s : State} (h : Keeps s0 s) (n : Nat) : Keeps s0 (holdFrames s n) := by
  unfold holdFrames
  repeat' first
    | with_reducible assumption
    | with_reducible first | apply State.ctlSend_keeps | apply State.outFrames_keeps | apply State.publish_keeps
    | with_reducible apply Keeps.ite
    | split
    | ((conv in (State.mk ..) => skip); with_reducible apply Keeps.mkUpd)

theorem State.safeTx_keeps {s0 s : State} (h : Keeps s0 s)  : Keeps s0 (safeTx s) := by
  unfold safeTx
  repeat' first
    | refine fun x => ?_
    | with_reducible assumption
    | with_reducible first | apply State.ctlSend_keeps | apply State.setReg_keeps
    | with_reducible refine Keeps.foldl ?_ ?_
    | ((try lift_lets); intro x; refine Keeps.cut (s := s0) (x := x) ?_ ?_; unfold x; rotate_left; intro hx; clear_value x; rotate_right)
    | ((try lift_lets); intro x; clear_value x)
    | split
    | ((conv in (State.mk ..) => skip); with_reducible apply Keeps.mkUpd)

theorem State.releaseOne_keeps {s0 s : State} (h : Keeps s0 s) (b : Nat) : Keeps s0 (releaseOne s b) := by
  unfold releaseOne
  repeat' first
    | with_reducible assumption
    | with_reducible first | apply State.raise_keeps | apply State.setRb_keeps | apply State.setStnRx_keeps
    | split

theorem State.releaseTx_keeps {s0 s : State} (h : Keeps s0 s)  : Keeps s0 (releaseTx s) := by
  unfold releaseTx
  repeat' first
    | refine fun x => ?_
    | with_reducible assumption
    | with_reducible first | apply State.ctlSend_keeps | apply State.releaseOne_keeps
    | with_reducible refine Keeps.foldl ?_ ?_
    | split
    | ((conv in (State.mk ..) => skip); with_reducible apply Keeps.mkUpd)

theorem State.confTx_keeps {s0 s : State} (h : Keeps s0 s)  : Keeps s0 (confTx s) := by
  unfold confTx
  repeat' first
    | with_reducible assumption
    | with_reducible first | apply State.ctlSend_keeps | apply State.setStnRx_keeps | apply State.raise_keeps
    | ((try lift_lets); intro x; refine Keeps.cut (s := s0) (x := x) ?_ ?_; unfold x; rotate_left; intro hx; clear_value x; rotate_right)
    | ((try lift_lets); intro x; clear_value x)
    | split
    | ((conv in (State.mk ..) => skip); with_reducible apply Keeps.mkUpd)

theorem execNonVuvasFrame_keeps {s0 s : State} (h : Keeps s0 s) (net : Net) : Keeps.Out s0 (execNonVuvasFrame net s) := by
  unfold execNonVuvasFrame
  repeat' first
    | with_reducible assumption
    | with_reducible first | apply State.bump_keeps
    | with_reducible apply Keeps.out
    | split

theorem execInFrameRx_keeps {s0 s : State} (h : Keeps s0 s) (net : Net) (f : List Byte) (lands : Bool) : Keeps.Out s0 (execInFrameRx net f lands s) := by
  unfold execInFrameRx
  repeat' first
    | refine fun x => ?_
    | with_reducible assumption
    | with_reducible first | apply State.vuvRx_keeps | apply State.inCopy_keeps
    | with_reducible apply Keeps.out

theorem execHelloRx_keeps {s0 s : State} (h : Keeps s0 s) (net : Net) (f : List Byte) : Keeps.Out s0 (execHelloRx net f s) := by
  unfold execHelloRx
  repeat' first
    | refine fun x => ?_
    | with_reducible assumption
    | with_reducible first | apply State.vuvRx_keeps | apply State.hello_keeps
    | with_reducible apply Keeps.out

theorem execDiagRx_keeps {s0 s : State} (h : Keeps s0 s) (net : Net) (f : List Byte) : Keeps.Out s0 (execDiagRx net f s) := by
  unfold execDiagRx
  repeat' first
    | refine fun x => ?_
    | with_reducible assumption
    | with_reducible first | apply State.vuvRx_keeps | apply State.diag_keeps
    | with_reducible apply Keeps.out

theorem execSchedTx_keeps {s0 s : State} (h : Keeps s0 s)  : Keeps.Out s0 (execSchedTx s) := by
  unfold execSchedTx
  repeat' first
    | with_reducible assumption
    | with_reducible first | apply State.ctlSend_keeps
    | with_reducible apply Keeps.out
    | with_reducible apply Keeps.ite
    | with_reducible apply Keeps.outIte
    | split
    | ((conv in (State.mk ..) => skip); with_reducible apply Keeps.mkUpd)

theorem execSafeTx_keeps {s0 s : State} (h : Keeps s0 s)  : Keeps.Out s0 (execSafeTx s) := by
  unfold execSafeTx
  repeat' first
    | with_reducible assumption
    | with_reducible first | apply State.safeTx_keeps
    | with_reducible apply Keeps.out

theorem execReleaseTx_keeps {s0 s : State} (h : Keeps s0 s)  : Keeps.Out s0 (execReleaseTx s) := by
  unfold execReleaseTx
  repeat' first
    | with_reducible assumption
    | with_reducible first | apply State.releaseTx_keeps
    | with_reducible apply Keeps.out

theorem execConfTx_keeps {s0 s : State} (h : Keeps s0 s)  : Keeps.Out s0 (execConfTx s) := by
  unfold execConfTx
  repeat' first
    | with_reducible assumption
    | with_reducible first | apply State.confTx_keeps
    | with_reducible apply Keeps.out

theorem execReleaseRequest_keeps {s0 s : State} (h : Keeps s0 s) (ag : Agent) (m : Fin 4) (v : Word) : Keeps.Out s0 (execReleaseRequest ag m v s) := by
  unfold execReleaseRequest
  repeat' first
    | refine fun x => ?_
    | with_reducible assumption
    | with_reducible first | apply State.regWrite_keeps | apply State.setReg_keeps
    | with_reducible apply Keeps.out

theorem execSafeRequest_keeps {s0 s : State} (h : Keeps s0 s) (ag : Agent) (m : Fin 4) (v : Word) : Keeps.Out s0 (execSafeRequest ag m v s) := by
  unfold execSafeRequest
  repeat' first
    | refine fun x => ?_
    | with_reducible assumption
    | with_reducible first | apply State.regWrite_keeps | apply State.setReg_keeps
    | with_reducible apply Keeps.out

end Sys2Proof.Machine
end

