-- ==== Sys2Proof/Laws/KeepsStation.lean ====
section
/-! SUPPORT. `Keeps` of the operations and meanings of Machine/Station.lean. -/

-- one declaration at a time: many at once take a thread and its stack each
set_option Elab.async false

set_option linter.all false

namespace Sys2Proof.Machine

open State

theorem State.takeLead_keeps {s0 s : State} (h : Keeps s0 s) (f : VFrame) (event : Bool) : Keeps s0 (takeLead s f event) := by
  unfold takeLead
  repeat' first
    | with_reducible assumption
    | with_reducible first | apply State.setRf_keeps | apply State.raise_keeps
    | split

theorem State.leadCheck_keeps {s0 s : State} (h : Keeps s0 s) (f : VFrame) : Keeps s0 (leadCheck s f).2 := by
  unfold leadCheck
  repeat' first
    | with_reducible assumption
    | with_reducible first | apply State.takeLead_keeps | apply State.bump_keeps
    | ((try lift_lets); intro x; clear_value x)
    | split

theorem State.stnFrame_keeps {s0 s : State} (h : Keeps s0 s) (net : Net) (f : List Byte) (want : Nat) (k : VFrame → State → State) (hf4 : ∀ x0 x1, Keeps s0 x1 → Keeps s0 (k x0 x1)) : Keeps s0 (stnFrame s net f want k) := by
  unfold stnFrame
  repeat' first
    | refine fun x => ?_
    | with_reducible assumption
    | with_reducible first | apply State.vuvRx_keeps | apply State.bump_keeps | apply State.leadCheck_keeps
    | with_reducible apply hf4
    | with_reducible apply Keeps.ite
    | ((try lift_lets); intro x; refine Keeps.cut (s := s0) (x := x) ?_ ?_; unfold x; rotate_left; intro hx; clear_value x; rotate_right)
    | ((try lift_lets); intro x; clear_value x)
    | ((conv in (State.mk ..) => skip); with_reducible apply Keeps.mkUpd)

theorem State.stnSafeNow_keeps {s0 s : State} (h : Keeps s0 s) (cause : Nat) : Keeps s0 (stnSafeNow s cause) := by
  unfold stnSafeNow
  repeat' first
    | with_reducible assumption
    | with_reducible first | apply State.changeMode_keeps
    | split
    | ((conv in (State.mk ..) => skip); with_reducible apply Keeps.mkUpd)

theorem State.namesMe_keeps {s0 s : State} (h : Keeps s0 s) (f : VFrame) : Keeps s0 (namesMe s f).2 := by
  unfold namesMe
  repeat' first
    | with_reducible assumption
    | with_reducible first | apply State.stnNum_keeps

theorem State.outSeg_keeps {s0 s : State} (h : Keeps s0 s) (f : VFrame) : Keeps s0 (outSeg s f) := by
  unfold outSeg
  repeat' first
    | refine fun x => ?_
    | with_reducible assumption
    | with_reducible first | apply State.stnNum_keeps | apply State.bump_keeps | apply State.wrBytes_keeps | apply wrBytes_keeps | apply State.setRf_keeps | apply State.raise_keeps
    | with_reducible apply Keeps.ite
    | ((try lift_lets); intro x; refine Keeps.cut (s := s0) (x := x) ?_ ?_; unfold x; rotate_left; intro hx; clear_value x; rotate_right)
    | ((try lift_lets); intro x; refine Keeps.cut (s := s0) (x := x.2) ?_ ?_; unfold x; rotate_left; intro hx; clear_value x; rotate_right)
    | ((try lift_lets); intro x; clear_value x)
    | split
    | ((conv in (State.mk ..) => skip); with_reducible apply Keeps.mkUpd)

theorem State.adoptSched_keeps {s0 s : State} (h : Keeps s0 s) (d : List Byte) : Keeps s0 (adoptSched s d) := by
  unfold adoptSched
  repeat' first
    | with_reducible assumption
    | with_reducible first | apply State.setReg64_keeps | apply State.setReg_keeps | apply State.raise_keeps
    | ((conv in (State.mk ..) => skip); with_reducible apply Keeps.mkUpd)

theorem State.sched_keeps {s0 s : State} (h : Keeps s0 s) (f : VFrame) : Keeps s0 (sched s f) := by
  unfold sched
  repeat' first
    | with_reducible assumption
    | with_reducible first | apply State.adoptSched_keeps | apply State.setRf_keeps | apply State.stnSafeNow_keeps
    | ((try lift_lets); intro x; refine Keeps.cut (s := s0) (x := x) ?_ ?_; unfold x; rotate_left; intro hx; clear_value x; rotate_right)
    | ((try lift_lets); intro x; clear_value x)
    | split
    | ((conv in (State.mk ..) => skip); with_reducible apply Keeps.mkUpd)

theorem State.safeFrame_keeps {s0 s : State} (h : Keeps s0 s) (f : VFrame) : Keeps s0 (safeFrame s f) := by
  unfold safeFrame
  repeat' first
    | with_reducible assumption
    | with_reducible first | apply State.namesMe_keeps | apply State.stnSafeNow_keeps
    | with_reducible apply Keeps.ite
    | ((conv in (State.mk ..) => skip); with_reducible apply Keeps.mkUpd)

theorem State.release_keeps {s0 s : State} (h : Keeps s0 s) (f : VFrame) : Keeps s0 (release s f) := by
  unfold release
  repeat' first
    | with_reducible assumption
    | with_reducible first | apply State.namesMe_keeps
    | with_reducible apply Keeps.ite
    | ((conv in (State.mk ..) => skip); with_reducible apply Keeps.mkUpd)

theorem State.confRind_keeps {s0 s : State} (h : Keeps s0 s)  : Keeps s0 (confRind s) := by
  unfold confRind
  repeat' first
    | refine fun x => ?_
    | with_reducible assumption
    | with_reducible first | apply State.rndPushAll_keeps | apply State.setRf_keeps
    | with_reducible refine Keeps.foldl ?_ ?_

theorem State.conf_keeps {s0 s : State} (h : Keeps s0 s) (f : VFrame) : Keeps s0 (conf s f) := by
  unfold conf
  repeat' first
    | with_reducible assumption
    | with_reducible first | apply State.namesMe_keeps | apply State.raise_keeps | apply State.wrBytes_keeps | apply State.stnSafeNow_keeps | apply State.setRb_keeps | apply State.setRf_keeps | apply State.confRind_keeps | apply State.stnSafeBuf_keeps
    | with_reducible apply Keeps.ite
    | split

theorem State.stnBoundary_keeps {s0 s : State} (h : Keeps s0 s)  : Keeps s0 (stnBoundary s) := by
  unfold stnBoundary
  repeat' first
    | with_reducible assumption
    | with_reducible first | apply State.setRf_keeps
    | ((try lift_lets); intro x; refine Keeps.cut (s := s0) (x := x) ?_ ?_; unfold x; rotate_left; intro hx; clear_value x; rotate_right)
    | ((try lift_lets); intro x; clear_value x)
    | split
    | ((conv in (State.mk ..) => skip); with_reducible apply Keeps.mkUpd)

theorem State.stnBlocks_keeps {s0 s : State} (h : Keeps s0 s)  : Keeps s0 (stnBlocks s) := by
  unfold stnBlocks
  repeat' first
    | with_reducible assumption
    | with_reducible first | apply State.copyWords_keeps
    | with_reducible apply Keeps.ite
    | split
    | ((conv in (State.mk ..) => skip); with_reducible apply Keeps.mkUpd)

theorem State.stnSend_keeps {s0 s : State} (h : Keeps s0 s) (type : Nat) (flags : Nat) (seq : Nat) (time : Nat) (sflags : Nat) (data : List Byte) : Keeps s0 (stnSend s type flags seq time sflags data) := by
  unfold stnSend
  repeat' first
    | with_reducible assumption
    | with_reducible first | apply State.stnNum_keeps | apply State.vuvSend_keeps

theorem State.stnSample_keeps {s0 s : State} (h : Keeps s0 s)  : Keeps s0 (stnSample s) := by
  have aux : ∀ (u : State), Keeps s0 u → ∀ n, Keeps s0 { u with stn := { u.stn with inSeq := n } } := fun u hu _ => Keeps.mkUpd hu ..
  unfold stnSample
  split
  · split
    · exact aux _ (stnSend_keeps (wrBytes_keeps h _ _) _ _ _ _ _ _) _
    · exact h
  · exact h

theorem State.stnApply_keeps {s0 s : State} (h : Keeps s0 s)  : Keeps s0 (stnApply s) := by
  unfold stnApply
  repeat' first
    | with_reducible assumption
    | with_reducible first | apply State.copyMem_keeps | apply copyMem_keeps | apply State.outSeg_keeps | apply State.sramPut_keeps
    | with_reducible apply Keeps.ite
    | split
    | ((conv in (State.mk ..) => skip); with_reducible apply Keeps.mkUpd)

theorem State.helloData_keeps {s0 s : State} (h : Keeps s0 s)  : Keeps s0 (helloData s).2 := by
  unfold helloData
  repeat' first
    | with_reducible assumption
    | with_reducible first | apply State.free_keeps

theorem State.helloTx_keeps {s0 s : State} (h : Keeps s0 s)  : Keeps s0 (helloTx s) := by
  unfold helloTx
  repeat' first
    | with_reducible assumption
    | with_reducible first | apply State.helloData_keeps | apply State.stnSend_keeps
    | ((try lift_lets); intro x; refine Keeps.cut (s := s0) (x := x) ?_ ?_; unfold x; rotate_left; intro hx; clear_value x; rotate_right)
    | ((try lift_lets); intro x; refine Keeps.cut (s := s0) (x := x.2) ?_ ?_; unfold x; rotate_left; intro hx; clear_value x; rotate_right)
    | ((try lift_lets); intro x; clear_value x)
    | split
    | ((conv in (State.mk ..) => skip); with_reducible apply Keeps.mkUpd)

theorem State.diagTx_keeps {s0 s : State} (h : Keeps s0 s)  : Keeps s0 (diagTx s) := by
  unfold diagTx
  repeat' first
    | with_reducible assumption
    | with_reducible first | apply State.stnSend_keeps
    | ((try lift_lets); intro x; refine Keeps.cut (s := s0) (x := x) ?_ ?_; unfold x; rotate_left; intro hx; clear_value x; rotate_right)
    | ((try lift_lets); intro x; clear_value x)
    | split
    | ((conv in (State.mk ..) => skip); with_reducible apply Keeps.mkUpd)

theorem State.stnTimeoutNow_keeps {s0 s : State} (h : Keeps s0 s)  : Keeps s0 (stnTimeoutNow s) := by
  unfold stnTimeoutNow
  repeat' first
    | with_reducible assumption
    | with_reducible first | apply State.stnSafeNow_keeps | apply State.bump_keeps
    | split

theorem State.stnLeadLost_keeps {s0 s : State} (h : Keeps s0 s)  : Keeps s0 (stnLeadLost s) := by
  unfold stnLeadLost
  repeat' first
    | with_reducible assumption
    | with_reducible first | apply State.stnSafeNow_keeps | apply State.raise_keeps | apply State.setRf_keeps | apply State.setReg_keeps
    | ((try lift_lets); intro x; refine Keeps.cut (s := s0) (x := x) ?_ ?_; unfold x; rotate_left; intro hx; clear_value x; rotate_right)
    | ((try lift_lets); intro x; clear_value x)
    | split
    | ((conv in (State.mk ..) => skip); with_reducible apply Keeps.mkUpd)

theorem execOutFrameRx_keeps {s0 s : State} (h : Keeps s0 s) (net : Net) (f : List Byte) : Keeps.Out s0 (execOutFrameRx net f s) := by
  unfold execOutFrameRx
  repeat' first
    | refine fun x => ?_
    | with_reducible assumption
    | with_reducible first | apply State.stnFrame_keeps | apply State.outSeg_keeps
    | with_reducible apply Keeps.out

theorem execSchedRx_keeps {s0 s : State} (h : Keeps s0 s) (net : Net) (f : List Byte) : Keeps.Out s0 (execSchedRx net f s) := by
  unfold execSchedRx
  repeat' first
    | refine fun x => ?_
    | with_reducible assumption
    | with_reducible first | apply State.stnFrame_keeps | apply State.sched_keeps
    | with_reducible apply Keeps.out

theorem execSafeFrameRx_keeps {s0 s : State} (h : Keeps s0 s) (net : Net) (f : List Byte) : Keeps.Out s0 (execSafeFrameRx net f s) := by
  unfold execSafeFrameRx
  repeat' first
    | refine fun x => ?_
    | with_reducible assumption
    | with_reducible first | apply State.stnFrame_keeps | apply State.safeFrame_keeps
    | with_reducible apply Keeps.out

theorem execReleaseRx_keeps {s0 s : State} (h : Keeps s0 s) (net : Net) (f : List Byte) : Keeps.Out s0 (execReleaseRx net f s) := by
  unfold execReleaseRx
  repeat' first
    | refine fun x => ?_
    | with_reducible assumption
    | with_reducible first | apply State.stnFrame_keeps | apply State.release_keeps
    | with_reducible apply Keeps.out

theorem execConfRx_keeps {s0 s : State} (h : Keeps s0 s) (net : Net) (f : List Byte) : Keeps.Out s0 (execConfRx net f s) := by
  unfold execConfRx
  repeat' first
    | refine fun x => ?_
    | with_reducible assumption
    | with_reducible first | apply State.stnFrame_keeps | apply State.conf_keeps
    | with_reducible apply Keeps.out

theorem execTakeRx_keeps {s0 s : State} (h : Keeps s0 s) (net : Net) (f : List Byte) : Keeps.Out s0 (execTakeRx net f s) := by
  unfold execTakeRx
  repeat' first
    | refine fun x => ?_
    | with_reducible assumption
    | with_reducible first | apply State.stnFrame_keeps
    | with_reducible apply Keeps.out

theorem execStationApply_keeps {s0 s : State} (h : Keeps s0 s)  : Keeps.Out s0 (execStationApply s) := by
  unfold execStationApply
  repeat' first
    | with_reducible assumption
    | with_reducible first | apply State.stnApply_keeps
    | with_reducible apply Keeps.out

theorem execStationSample_keeps {s0 s : State} (h : Keeps s0 s)  : Keeps.Out s0 (execStationSample s) := by
  unfold execStationSample
  repeat' first
    | with_reducible assumption
    | with_reducible first | apply State.stnSample_keeps
    | with_reducible apply Keeps.out

theorem execHelloTx_keeps {s0 s : State} (h : Keeps s0 s)  : Keeps.Out s0 (execHelloTx s) := by
  unfold execHelloTx
  repeat' first
    | with_reducible assumption
    | with_reducible first | apply State.helloTx_keeps
    | with_reducible apply Keeps.out

theorem execDiagTx_keeps {s0 s : State} (h : Keeps s0 s)  : Keeps.Out s0 (execDiagTx s) := by
  unfold execDiagTx
  repeat' first
    | with_reducible assumption
    | with_reducible first | apply State.diagTx_keeps
    | with_reducible apply Keeps.out

theorem execStationTimeout_keeps {s0 s : State} (h : Keeps s0 s)  : Keeps.Out s0 (execStationTimeout s) := by
  unfold execStationTimeout
  repeat' first
    | with_reducible assumption
    | with_reducible first | apply State.stnTimeoutNow_keeps
    | with_reducible apply Keeps.out

theorem execStnLeadLost_keeps {s0 s : State} (h : Keeps s0 s)  : Keeps.Out s0 (execStnLeadLost s) := by
  unfold execStnLeadLost
  repeat' first
    | with_reducible assumption
    | with_reducible first | apply State.stnLeadLost_keeps
    | with_reducible apply Keeps.out

end Sys2Proof.Machine
end

