-- ==== Sys2Proof/Laws/KeepsTwin.lean ====
section
/-! SUPPORT. `Keeps` of the operations and meanings of Machine/Twin.lean. -/

-- one declaration at a time: many at once take a thread and its stack each
set_option Elab.async false

set_option linter.all false

namespace Sys2Proof.Machine

open State

theorem State.twnRx_keeps {s0 s : State} (h : Keeps s0 s) (r : List Byte) (want : Nat) (k : TRec → State → State) (hf3 : ∀ x0 x1, Keeps s0 x1 → Keeps s0 (k x0 x1)) : Keeps s0 (twnRx s r want k) := by
  unfold twnRx
  repeat' first
    | with_reducible assumption
    | with_reducible first | apply State.bump_keeps | apply State.raise_keeps
    | with_reducible apply hf3
    | with_reducible apply Keeps.ite
    | split
    | ((conv in (State.mk ..) => skip); with_reducible apply Keeps.mkUpd)

theorem State.dropOut_keeps {s0 s : State} (h : Keeps s0 s)  : Keeps s0 (dropOut s) := by
  unfold dropOut
  repeat' first
    | with_reducible assumption
    | with_reducible first | apply State.changeMode_keeps
    | split

theorem State.diverge_keeps {s0 s : State} (h : Keeps s0 s) (cause : Nat) : Keeps s0 (diverge s cause) := by
  unfold diverge
  repeat' first
    | with_reducible assumption
    | with_reducible first | apply State.dropOut_keeps | apply State.divergeHere_keeps

theorem State.dualClaim_keeps {s0 s : State} (h : Keeps s0 s) (epoch : Nat) (sameUnit : Bool) : Keeps s0 (dualClaim s epoch sameUnit) := by
  unfold dualClaim
  repeat' first
    | with_reducible assumption
    | with_reducible first | apply State.free_keeps | apply State.raise_keeps | apply State.bump_keeps | apply State.setLead_keeps
    | with_reducible apply Keeps.ite
    | ((try lift_lets); intro x; refine Keeps.cut (s := s0) (x := x.2) ?_ ?_; unfold x; rotate_left; intro hx; clear_value x; rotate_right)
    | ((try lift_lets); intro x; clear_value x)
    | split
    | ((conv in (State.mk ..) => skip); with_reducible apply Keeps.mkUpd)

theorem State.hb_keeps {s0 s : State} (h : Keeps s0 s) (r : TRec) : Keeps s0 (hb s r) := by
  unfold hb
  repeat' first
    | with_reducible assumption
    | with_reducible first | apply State.raise_keeps | apply State.setRb_keeps | apply State.setRf_keeps | apply State.setReg_keeps | apply State.dualClaim_keeps | apply State.setEpoch_keeps
    | with_reducible apply Keeps.ite
    | ((conv in (State.mk ..) => skip); with_reducible apply Keeps.mkUpd)

theorem State.linkLost_keeps {s0 s : State} (h : Keeps s0 s)  : Keeps s0 (linkLost s) := by
  unfold linkLost
  repeat' first
    | with_reducible assumption
    | with_reducible first | apply State.raise_keeps | apply State.setRb_keeps | apply State.fcRestart_keeps | apply State.dropOut_keeps | apply State.setRf_keeps
    | with_reducible apply Keeps.ite
    | ((conv in (State.mk ..) => skip); with_reducible apply Keeps.mkUpd)

theorem State.partnerOut_keeps {s0 s : State} (h : Keeps s0 s) (f : VFrame) : Keeps s0 (partnerOut s f) := by
  unfold partnerOut
  repeat' first
    | with_reducible assumption
    | with_reducible first | apply State.setReg_keeps | apply State.dualClaim_keeps | apply State.dropOut_keeps | apply State.setRf_keeps
    | with_reducible apply Keeps.ite
    | ((conv in (State.mk ..) => skip); with_reducible apply Keeps.mkUpd)

theorem State.takeIn_keeps {s0 s : State} (h : Keeps s0 s)  : Keeps s0 (takeIn s) := by
  unfold takeIn
  repeat' first
    | with_reducible assumption
    | with_reducible first | apply State.bump_keeps | apply State.raise_keeps | apply State.changeMode_keeps
    | with_reducible apply Keeps.ite
    | ((conv in (State.mk ..) => skip); with_reducible apply Keeps.mkUpd)

theorem State.acquireLead_keeps {s0 s : State} (h : Keeps s0 s) (takeover : Bool) : Keeps s0 (acquireLead s takeover) := by
  unfold acquireLead
  repeat' first
    | with_reducible assumption
    | with_reducible first | apply State.setLead_keeps | apply State.setEpoch_keeps | apply State.setReg_keeps | apply State.ctlSend_keeps | apply State.raise_keeps
    | split

theorem State.lineTouch_keeps {s0 s : State} (h : Keeps s0 s) (space : Nat) (i : Nat) : Keeps s0 (lineTouch s space i) := by
  unfold lineTouch
  repeat' first
    | with_reducible assumption
    | with_reducible first | apply State.touchRange_keeps
    | with_reducible apply Keeps.ite
    | split
    | ((conv in (State.mk ..) => skip); with_reducible apply Keeps.mkUpd)

theorem State.lineSend_keeps {s0 s : State} (h : Keeps s0 s) (ty : Nat) (l : Nat × Nat) : Keeps s0 (lineSend s ty l) := by
  unfold lineSend
  repeat' first
    | with_reducible assumption
    | with_reducible first | apply State.lineTouch_keeps | apply State.twnSend_keeps
    | with_reducible apply Keeps.ite
    | split
    | ((conv in (State.mk ..) => skip); with_reducible apply Keeps.mkUpd)

theorem State.cfgPut_keeps {s0 s : State} (h : Keeps s0 s) (p : Nat) (off : Nat) (v : Word) : Keeps s0 (cfgPut s p off v) := by
  unfold cfgPut
  repeat' first
    | with_reducible assumption
    | with_reducible first | apply State.setReg_keeps
    | split

theorem State.lineWrite_keeps {s0 s : State} (h : Keeps s0 s) (space : Nat) (i : Nat) (bs : List Byte) : Keeps s0 (lineWrite s space i bs) := by
  unfold lineWrite
  repeat' first
    | refine fun x => ?_
    | with_reducible assumption
    | with_reducible first | apply State.wrLines_keeps | apply State.setCellBase_keeps | apply State.wr_keeps | apply State.wrBytes_keeps | apply State.cfgPut_keeps
    | with_reducible refine Keeps.foldl ?_ ?_
    | split

theorem State.deltaTx_keeps {s0 s : State} (h : Keeps s0 s) (old : State) (held : Bool) (first : Bool) : Keeps s0 (deltaTx s old held first) := by
  unfold deltaTx
  repeat' first
    | refine fun x => ?_
    | with_reducible assumption
    | with_reducible first | apply State.divergeHere_keeps | apply State.count_keeps | apply State.twnSend_keeps | apply State.lineSend_keeps | apply State.setReg_keeps | apply setReg_keeps
    | with_reducible apply Keeps.ite
    | with_reducible refine Keeps.foldl ?_ ?_
    | split
    | ((conv in (State.mk ..) => skip); with_reducible apply Keeps.mkUpd)

theorem State.stageRec_keeps {s0 s : State} (h : Keeps s0 s) (f : Delta → Delta) : Keeps s0 (stageRec s f) := by
  unfold stageRec
  repeat' first
    | with_reducible assumption
    | split
    | ((conv in (State.mk ..) => skip); with_reducible apply Keeps.mkUpd)

theorem State.applyDelta_keeps {s0 s : State} (h : Keeps s0 s) (d : Delta) : Keeps s0 (applyDelta s d) := by
  unfold applyDelta
  repeat' first
    | refine fun x => ?_
    | with_reducible assumption
    | with_reducible first | apply State.lineWrite_keeps | apply State.cfgPut_keeps | apply State.configSwap_keeps
    | with_reducible refine Keeps.foldl ?_ ?_
    | split

theorem State.deltaLate_keeps {s0 s : State} (h : Keeps s0 s)  : Keeps s0 (deltaLate s) := by
  unfold deltaLate
  repeat' first
    | with_reducible assumption
    | with_reducible first | apply State.diverge_keeps
    | split

theorem State.digestMark_keeps {s0 s : State} (h : Keeps s0 s)  : Keeps s0 (digestMark s) := by
  unfold digestMark
  repeat' first
    | refine fun x => ?_
    | with_reducible assumption
    | with_reducible apply Keeps.ite
    | split
    | ((conv in (State.mk ..) => skip); with_reducible apply Keeps.mkUpd)

theorem State.digestTouch_keeps {s0 s : State} (h : Keeps s0 s) (held : Bool) : Keeps s0 (digestTouch s held) := by
  unfold digestTouch
  repeat' first
    | refine fun x => ?_
    | with_reducible assumption
    | with_reducible first | apply State.lineTouch_keeps | apply State.touchRange_keeps | apply State.publish_keeps
    | with_reducible apply Keeps.ite
    | with_reducible refine Keeps.foldl ?_ ?_
    | split
    | ((conv in (State.mk ..) => skip); with_reducible apply Keeps.mkUpd)

theorem State.standbyOut_keeps {s0 s : State} (h : Keeps s0 s)  : Keeps s0 (standbyOut s) := by
  unfold standbyOut
  repeat' first
    | with_reducible assumption
    | with_reducible first | apply State.publishOut_keeps
    | split
    | ((conv in (State.mk ..) => skip); with_reducible apply Keeps.mkUpd)

theorem State.compareDig_keeps {s0 s : State} (h : Keeps s0 s)  : Keeps s0 (compareDig s) := by
  unfold compareDig
  repeat' first
    | with_reducible assumption
    | with_reducible first | apply State.setReg_keeps | apply State.setReg64_keeps | apply State.diverge_keeps | apply State.standbyOut_keeps
    | with_reducible apply Keeps.ite
    | split
    | ((conv in (State.mk ..) => skip); with_reducible apply Keeps.mkUpd)

theorem State.ownDigest_keeps {s0 s : State} (h : Keeps s0 s) (held : Bool) (invalid : Bool) : Keeps s0 (ownDigest s held invalid) := by
  unfold ownDigest
  repeat' first
    | with_reducible assumption
    | with_reducible first | apply State.digestTouch_keeps | apply State.twnSend_keeps | apply State.free_keeps | apply free_keeps | apply State.standbyOut_keeps | apply State.compareDig_keeps
    | with_reducible apply Keeps.ite
    | split
    | ((conv in (State.mk ..) => skip); with_reducible apply Keeps.mkUpd)

theorem State.digestRx_keeps {s0 s : State} (h : Keeps s0 s) (r : TRec) : Keeps s0 (digestRx s r) := by
  unfold digestRx
  repeat' first
    | with_reducible assumption
    | with_reducible first | apply State.standbyOut_keeps | apply State.compareDig_keeps
    | split
    | ((conv in (State.mk ..) => skip); with_reducible apply Keeps.mkUpd)

theorem State.pubwait_keeps {s0 s : State} (h : Keeps s0 s)  : Keeps s0 (pubwait s) := by
  unfold pubwait
  repeat' first
    | with_reducible assumption
    | with_reducible first | apply State.bump_keeps | apply State.standbyOut_keeps
    | ((try lift_lets); intro x; refine Keeps.cut (s := s0) (x := x) ?_ ?_; unfold x; rotate_left; intro hx; clear_value x; rotate_right)
    | ((try lift_lets); intro x; clear_value x)
    | split
    | ((conv in (State.mk ..) => skip); with_reducible apply Keeps.mkUpd)

theorem State.cmdRx_keeps {s0 s : State} (h : Keeps s0 s) (r : List Byte) (code : Nat) (k : Nat → Nat → State → State) (hf3 : ∀ x0 x1 x2, Keeps s0 x2 → Keeps s0 (k x0 x1 x2)) : Keeps s0 (cmdRx s r code k) := by
  unfold cmdRx
  repeat' first
    | refine fun x => ?_
    | with_reducible assumption
    | with_reducible first | apply State.twnRx_keeps
    | with_reducible apply hf3
    | split

theorem State.divergeCmd_keeps {s0 s : State} (h : Keeps s0 s) (cause : Nat) (cyc : Nat) : Keeps s0 (divergeCmd s cause cyc) := by
  unfold divergeCmd
  repeat' first
    | with_reducible assumption
    | with_reducible first | apply State.dropOut_keeps | apply State.divergeRaise_keeps
    | split

theorem State.switchGo_keeps {s0 s : State} (h : Keeps s0 s)  : Keeps s0 (switchGo s) := by
  unfold switchGo
  repeat' first
    | with_reducible assumption
    | with_reducible first | apply State.setReg_keeps | apply State.twnCmd_keeps | apply State.raise_keeps | apply State.wign_keeps
    | ((try lift_lets); intro x; refine Keeps.cut (s := s0) (x := x) ?_ ?_; unfold x; rotate_left; intro hx; clear_value x; rotate_right)
    | ((try lift_lets); intro x; clear_value x)
    | split
    | ((conv in (State.mk ..) => skip); with_reducible apply Keeps.mkUpd)

theorem State.switchReq_keeps {s0 s : State} (h : Keeps s0 s) (b : Nat) : Keeps s0 (switchReq s b) := by
  unfold switchReq
  repeat' first
    | with_reducible assumption
    | with_reducible first | apply State.twnCmd_keeps
    | split
    | ((conv in (State.mk ..) => skip); with_reducible apply Keeps.mkUpd)

theorem State.switchAck_keeps {s0 s : State} (h : Keeps s0 s) (b : Nat) : Keeps s0 (switchAck s b) := by
  unfold switchAck
  repeat' first
    | with_reducible assumption
    | split
    | ((conv in (State.mk ..) => skip); with_reducible apply Keeps.mkUpd)

theorem State.resyncGo_keeps {s0 s : State} (h : Keeps s0 s)  : Keeps s0 (resyncGo s) := by
  unfold resyncGo
  repeat' first
    | with_reducible assumption
    | with_reducible first | apply State.fcRestart_keeps | apply State.diverge_keeps
    | with_reducible apply Keeps.ite

theorem State.twnCmdWrite_keeps {s0 s : State} (h : Keeps s0 s) (v : Word) : Keeps s0 (twnCmdWrite s v) := by
  unfold twnCmdWrite
  repeat' first
    | with_reducible assumption
    | with_reducible first | apply State.free_keeps | apply State.switchGo_keeps | apply State.resyncGo_keeps
    | with_reducible apply Keeps.ite

theorem State.presetWrite_keeps {s0 s : State} (h : Keeps s0 s) (v : Word) : Keeps s0 (presetWrite s v) := by
  unfold presetWrite
  repeat' first
    | with_reducible assumption
    | with_reducible first | apply State.twnCmd_keeps | apply State.wign_keeps
    | split

theorem State.fline_keeps {s0 s : State} (h : Keeps s0 s) (l : Nat × Nat) : Keeps s0 (fline s l) := by
  unfold fline
  repeat' first
    | with_reducible assumption
    | with_reducible first | apply State.lineSend_keeps
    | with_reducible apply Keeps.ite
    | split
    | ((conv in (State.mk ..) => skip); with_reducible apply Keeps.mkUpd)

theorem State.fmark_keeps {s0 s : State} (h : Keeps s0 s) (kind : Nat) (n : Nat) : Keeps s0 (fmark s kind n) := by
  unfold fmark
  repeat' first
    | with_reducible assumption
    | with_reducible first | apply State.twnSend_keeps

theorem State.clearAll_keeps {s0 s : State} (h : Keeps s0 s)  : Keeps s0 (clearAll s) := by
  unfold clearAll
  repeat' first
    | with_reducible assumption
    | ((conv in (State.mk ..) => skip); with_reducible apply Keeps.mkUpd)

theorem State.fcSend_keeps {s0 s : State} (h : Keeps s0 s)  : Keeps s0 (fcSend s) := by
  unfold fcSend
  repeat' first
    | refine fun x => ?_
    | with_reducible assumption
    | with_reducible first | apply State.fline_keeps | apply State.setReg_keeps | apply State.fmark_keeps
    | with_reducible refine Keeps.foldl ?_ ?_
    | ((try lift_lets); intro x; refine Keeps.cut (s := s0) (x := x) ?_ ?_; unfold x; rotate_left; intro hx; clear_value x; rotate_right)
    | ((try lift_lets); intro x; clear_value x)
    | split
    | ((conv in (State.mk ..) => skip); with_reducible apply Keeps.mkUpd)

theorem State.fcPassCount_keeps {s0 s : State} (h : Keeps s0 s)  : Keeps s0 (fcPassCount s) := by
  unfold fcPassCount
  repeat' first
    | with_reducible assumption
    | with_reducible first | apply State.setReg_keeps | apply State.raise_keeps
    | ((try lift_lets); intro x; refine Keeps.cut (s := s0) (x := x) ?_ ?_; unfold x; rotate_left; intro hx; clear_value x; rotate_right)
    | ((try lift_lets); intro x; clear_value x)
    | split
    | ((conv in (State.mk ..) => skip); with_reducible apply Keeps.mkUpd)

theorem State.fcClose_keeps {s0 s : State} (h : Keeps s0 s)  : Keeps s0 (fcClose s) := by
  unfold fcClose
  repeat' first
    | refine fun x => ?_
    | with_reducible assumption
    | with_reducible first | apply State.fline_keeps | apply State.setRf_keeps | apply State.clearAll_keeps | apply State.fmark_keeps | apply State.fcPassCount_keeps
    | with_reducible refine Keeps.foldl ?_ ?_
    | ((try lift_lets); intro x; refine Keeps.cut (s := s0) (x := x) ?_ ?_; unfold x; rotate_left; intro hx; clear_value x; rotate_right)
    | ((try lift_lets); intro x; clear_value x)
    | split
    | ((conv in (State.mk ..) => skip); with_reducible apply Keeps.mkUpd)

theorem State.fcMerge_keeps {s0 s : State} (h : Keeps s0 s)  : Keeps s0 (fcMerge s) := by
  unfold fcMerge
  repeat' first
    | with_reducible assumption
    | with_reducible first | apply State.fcSend_keeps | apply State.fcPassCount_keeps | apply State.setRf_keeps | apply State.setReg_keeps | apply State.clearAll_keeps | apply State.fcClose_keeps
    | ((try lift_lets); intro x; refine Keeps.cut (s := s0) (x := x) ?_ ?_; unfold x; rotate_left; intro hx; clear_value x; rotate_right)
    | ((try lift_lets); intro x; clear_value x)
    | split
    | ((conv in (State.mk ..) => skip); with_reducible apply Keeps.mkUpd)

theorem State.fcBegin_keeps {s0 s : State} (h : Keeps s0 s)  : Keeps s0 (fcBegin s) := by
  unfold fcBegin
  repeat' first
    | with_reducible assumption
    | with_reducible first | apply State.raise_keeps | apply State.setRf_keeps | apply State.setReg_keeps | apply State.clearAll_keeps
    | ((try lift_lets); intro x; refine Keeps.cut (s := s0) (x := x) ?_ ?_; unfold x; rotate_left; intro hx; clear_value x; rotate_right)
    | ((try lift_lets); intro x; clear_value x)
    | split
    | ((conv in (State.mk ..) => skip); with_reducible apply Keeps.mkUpd)

theorem State.flineRx_keeps {s0 s : State} (h : Keeps s0 s) (r : TRec) : Keeps s0 (flineRx s r) := by
  unfold flineRx
  repeat' first
    | with_reducible assumption
    | with_reducible first | apply State.raise_keeps | apply State.setRf_keeps | apply State.lineWrite_keeps
    | ((try lift_lets); intro x; refine Keeps.cut (s := s0) (x := x) ?_ ?_; unfold x; rotate_left; intro hx; clear_value x; rotate_right)
    | ((try lift_lets); intro x; clear_value x)
    | split
    | ((conv in (State.mk ..) => skip); with_reducible apply Keeps.mkUpd)

theorem State.fmarkRx_keeps {s0 s : State} (h : Keeps s0 s) (r : TRec) : Keeps s0 (fmarkRx s r) := by
  unfold fmarkRx
  repeat' first
    | with_reducible assumption
    | with_reducible first | apply State.setReg64_keeps | apply State.setRf_keeps
    | with_reducible apply Keeps.ite
    | ((conv in (State.mk ..) => skip); with_reducible apply Keeps.mkUpd)

theorem execPartnerOutRx_keeps {s0 s : State} (h : Keeps s0 s) (net : Net) (f : List Byte) : Keeps.Out s0 (execPartnerOutRx net f s) := by
  unfold execPartnerOutRx
  repeat' first
    | refine fun x => ?_
    | with_reducible assumption
    | with_reducible first | apply State.vuvRx_keeps | apply State.partnerOut_keeps
    | with_reducible apply Keeps.out

theorem execHbTx_keeps {s0 s : State} (h : Keeps s0 s)  : Keeps.Out s0 (execHbTx s) := by
  unfold execHbTx
  repeat' first
    | with_reducible assumption
    | with_reducible first | apply State.send_keeps
    | with_reducible apply Keeps.out
    | split

theorem execHbRx_keeps {s0 s : State} (h : Keeps s0 s) (r : List Byte) : Keeps.Out s0 (execHbRx r s) := by
  unfold execHbRx
  repeat' first
    | refine fun x => ?_
    | with_reducible assumption
    | with_reducible first | apply State.twnRx_keeps | apply State.hb_keeps
    | with_reducible apply Keeps.out

theorem execHbMiss_keeps {s0 s : State} (h : Keeps s0 s)  : Keeps.Out s0 (execHbMiss s) := by
  unfold execHbMiss
  repeat' first
    | with_reducible assumption
    | with_reducible first | apply State.bump_keeps
    | with_reducible apply Keeps.out
    | ((try lift_lets); intro x; refine Keeps.cut (s := s0) (x := x) ?_ ?_; unfold x; rotate_left; intro hx; clear_value x; rotate_right)
    | ((try lift_lets); intro x; clear_value x)
    | split
    | ((conv in (State.mk ..) => skip); with_reducible apply Keeps.mkUpd)

theorem execTwinLinkLost_keeps {s0 s : State} (h : Keeps s0 s)  : Keeps.Out s0 (execTwinLinkLost s) := by
  unfold execTwinLinkLost
  repeat' first
    | with_reducible assumption
    | with_reducible first | apply State.linkLost_keeps
    | with_reducible apply Keeps.out

theorem execTakeInPulse_keeps {s0 s : State} (h : Keeps s0 s) (ns : Nat) : Keeps.Out s0 (execTakeInPulse ns s) := by
  unfold execTakeInPulse
  repeat' first
    | with_reducible assumption
    | with_reducible first | apply State.takeIn_keeps | apply State.free_keeps
    | with_reducible apply Keeps.out
    | split

theorem execDtimeRx_keeps {s0 s : State} (h : Keeps s0 s) (r : List Byte) : Keeps.Out s0 (execDtimeRx r s) := by
  unfold execDtimeRx
  repeat' first
    | refine fun x => ?_
    | with_reducible assumption
    | with_reducible first | apply State.twnRx_keeps
    | with_reducible apply Keeps.out
    | split
    | ((conv in (State.mk ..) => skip); with_reducible apply Keeps.mkUpd)

theorem execDlineRx_keeps {s0 s : State} (h : Keeps s0 s) (r : List Byte) : Keeps.Out s0 (execDlineRx r s) := by
  unfold execDlineRx
  repeat' first
    | refine fun x => ?_
    | with_reducible assumption
    | with_reducible first | apply State.twnRx_keeps | apply State.stageRec_keeps
    | with_reducible apply Keeps.out

theorem execCfgwRx_keeps {s0 s : State} (h : Keeps s0 s) (r : List Byte) : Keeps.Out s0 (execCfgwRx r s) := by
  unfold execCfgwRx
  repeat' first
    | refine fun x => ?_
    | with_reducible assumption
    | with_reducible first | apply State.twnRx_keeps | apply State.stageRec_keeps
    | with_reducible apply Keeps.out

theorem execDeltaLate_keeps {s0 s : State} (h : Keeps s0 s)  : Keeps.Out s0 (execDeltaLate s) := by
  unfold execDeltaLate
  repeat' first
    | with_reducible assumption
    | with_reducible first | apply State.deltaLate_keeps
    | with_reducible apply Keeps.out

theorem execDigestRx_keeps {s0 s : State} (h : Keeps s0 s) (r : List Byte) : Keeps.Out s0 (execDigestRx r s) := by
  unfold execDigestRx
  repeat' first
    | refine fun x => ?_
    | with_reducible assumption
    | with_reducible first | apply State.twnRx_keeps | apply State.digestRx_keeps
    | with_reducible apply Keeps.out

theorem execPubwaitExpiry_keeps {s0 s : State} (h : Keeps s0 s)  : Keeps.Out s0 (execPubwaitExpiry s) := by
  unfold execPubwaitExpiry
  repeat' first
    | with_reducible assumption
    | with_reducible first | apply State.pubwait_keeps
    | with_reducible apply Keeps.out

theorem execSwitchReq_keeps {s0 s : State} (h : Keeps s0 s) (r : List Byte) : Keeps.Out s0 (execSwitchReq r s) := by
  unfold execSwitchReq
  repeat' first
    | refine fun x => ?_
    | with_reducible assumption
    | with_reducible first | apply State.cmdRx_keeps | apply State.switchReq_keeps
    | with_reducible apply Keeps.out

theorem execSwitchAck_keeps {s0 s : State} (h : Keeps s0 s) (r : List Byte) : Keeps.Out s0 (execSwitchAck r s) := by
  unfold execSwitchAck
  repeat' first
    | refine fun x => ?_
    | with_reducible assumption
    | with_reducible first | apply State.cmdRx_keeps | apply State.switchAck_keeps
    | with_reducible apply Keeps.out

theorem execCmdHandover_keeps {s0 s : State} (h : Keeps s0 s) (r : List Byte) : Keeps.Out s0 (execCmdHandover r s) := by
  unfold execCmdHandover
  repeat' first
    | refine fun x => ?_
    | with_reducible assumption
    | with_reducible first | apply State.cmdRx_keeps
    | with_reducible apply Keeps.out
    | split
    | ((conv in (State.mk ..) => skip); with_reducible apply Keeps.mkUpd)

theorem execCmdDiverge_keeps {s0 s : State} (h : Keeps s0 s) (r : List Byte) : Keeps.Out s0 (execCmdDiverge r s) := by
  unfold execCmdDiverge
  repeat' first
    | refine fun x => ?_
    | with_reducible assumption
    | with_reducible first | apply State.cmdRx_keeps | apply State.divergeCmd_keeps
    | with_reducible apply Keeps.out

theorem execCmdHold_keeps {s0 s : State} (h : Keeps s0 s) (r : List Byte) : Keeps.Out s0 (execCmdHold r s) := by
  unfold execCmdHold
  repeat' first
    | refine fun x => ?_
    | with_reducible assumption
    | with_reducible first | apply State.cmdRx_keeps | apply State.changeMode_keeps
    | with_reducible apply Keeps.out
    | split

theorem execCmdResume_keeps {s0 s : State} (h : Keeps s0 s) (r : List Byte) : Keeps.Out s0 (execCmdResume r s) := by
  unfold execCmdResume
  repeat' first
    | refine fun x => ?_
    | with_reducible assumption
    | with_reducible first | apply State.cmdRx_keeps
    | with_reducible apply Keeps.out
    | split
    | ((conv in (State.mk ..) => skip); with_reducible apply Keeps.mkUpd)

theorem execCmdGrfDigest_keeps {s0 s : State} (h : Keeps s0 s) (r : List Byte) : Keeps.Out s0 (execCmdGrfDigest r s) := by
  unfold execCmdGrfDigest
  repeat' first
    | refine fun x => ?_
    | with_reducible assumption
    | with_reducible first | apply State.cmdRx_keeps | apply State.setReg64_keeps
    | with_reducible apply Keeps.out

theorem execTwnPreset_keeps {s0 s : State} (h : Keeps s0 s) (ag : Agent) (v : Word) : Keeps.Out s0 (execTwnPreset ag v s) := by
  unfold execTwnPreset
  repeat' first
    | refine fun x => ?_
    | with_reducible assumption
    | with_reducible first | apply State.regWrite_keeps | apply State.presetWrite_keeps
    | with_reducible apply Keeps.out

theorem execTwnSwitch_keeps {s0 s : State} (h : Keeps s0 s) (ag : Agent) : Keeps.Out s0 (execTwnSwitch ag s) := by
  unfold execTwnSwitch
  repeat' first
    | refine fun x => ?_
    | with_reducible assumption
    | with_reducible first | apply State.regWrite_keeps | apply State.twnCmdWrite_keeps
    | with_reducible apply Keeps.out

theorem execTwnResync_keeps {s0 s : State} (h : Keeps s0 s) (ag : Agent) : Keeps.Out s0 (execTwnResync ag s) := by
  unfold execTwnResync
  repeat' first
    | refine fun x => ?_
    | with_reducible assumption
    | with_reducible first | apply State.regWrite_keeps | apply State.twnCmdWrite_keeps
    | with_reducible apply Keeps.out

theorem execFlineRx_keeps {s0 s : State} (h : Keeps s0 s) (r : List Byte) : Keeps.Out s0 (execFlineRx r s) := by
  unfold execFlineRx
  repeat' first
    | refine fun x => ?_
    | with_reducible assumption
    | with_reducible first | apply State.twnRx_keeps | apply State.flineRx_keeps
    | with_reducible apply Keeps.out

theorem execFmarkRx_keeps {s0 s : State} (h : Keeps s0 s) (r : List Byte) : Keeps.Out s0 (execFmarkRx r s) := by
  unfold execFmarkRx
  repeat' first
    | refine fun x => ?_
    | with_reducible assumption
    | with_reducible first | apply State.twnRx_keeps | apply State.fmarkRx_keeps
    | with_reducible apply Keeps.out

end Sys2Proof.Machine
end

