-- ==== Sys2Proof/Laws/KeepsRtc.lean ====
section
/-! SUPPORT. `Keeps` of the operations and meanings of Machine/Rtc.lean. -/

-- one declaration at a time: many at once take a thread and its stack each
set_option Elab.async false

set_option linter.all false

namespace Sys2Proof.Machine

open State

theorem State.setCal_keeps {s0 s : State} (h : Keeps s0 s) (k : Cal) : Keeps s0 (setCal s k) := by
  unfold setCal
  repeat' first
    | with_reducible assumption
    | with_reducible first | apply State.setReg_keeps

theorem State.rtcRaise_keeps {s0 s : State} (h : Keeps s0 s) (e : Nat) (d : Nat) : Keeps s0 (rtcRaise s e d) := by
  unfold rtcRaise
  repeat' first
    | with_reducible assumption
    | with_reducible first | apply State.raise_keeps
    | split

theorem State.rtcWrap_keeps {s0 s : State} (h : Keeps s0 s) (b : Bool) : Keeps s0 (rtcWrap s b) := by
  unfold rtcWrap
  repeat' first
    | with_reducible assumption
    | with_reducible first | apply State.rtcRaise_keeps | apply State.setRb_keeps
    | split

theorem State.alarmMatch_keeps {s0 s : State} (h : Keeps s0 s) (n : Nat) : Keeps s0 (alarmMatch s n).2 := by
  unfold alarmMatch
  repeat' first
    | with_reducible assumption
    | with_reducible first | apply State.free_keeps
    | ((try lift_lets); intro x; refine Keeps.cut (s := s0) (x := x.2) ?_ ?_; unfold x; rotate_left; intro hx; clear_value x; rotate_right)
    | ((try lift_lets); intro x; clear_value x)
    | split

theorem State.rtcAlarms_keeps {s0 s : State} (h : Keeps s0 s)  : Keeps s0 (rtcAlarms s) := by
  unfold rtcAlarms
  repeat' first
    | refine fun x => ?_
    | with_reducible assumption
    | with_reducible first | apply State.alarmMatch_keeps | apply State.rtcRaise_keeps | apply State.setRb_keeps
    | with_reducible apply Keeps.ite
    | with_reducible refine Keeps.foldl ?_ ?_

theorem State.rtcBootAlarms_keeps {s0 s : State} (h : Keeps s0 s)  : Keeps s0 (rtcBootAlarms s) := by
  unfold rtcBootAlarms
  repeat' first
    | refine fun x => ?_
    | with_reducible assumption
    | with_reducible first | apply State.raise_keeps
    | with_reducible refine Keeps.foldl ?_ ?_
    | split

theorem State.rtcZero_keeps {s0 s : State} (h : Keeps s0 s)  : Keeps s0 (rtcZero s) := by
  unfold rtcZero
  repeat' first
    | with_reducible assumption
    | ((conv in (State.mk ..) => skip); with_reducible apply Keeps.mkUpd)

theorem State.setXtal_keeps {s0 s : State} (h : Keeps s0 s) (b : Bool) : Keeps s0 (setXtal s b) := by
  unfold setXtal
  repeat' first
    | with_reducible assumption
    | with_reducible apply Keeps.ite
    | split
    | ((conv in (State.mk ..) => skip); with_reducible apply Keeps.mkUpd)

theorem State.rtcDone_keeps {s0 s : State} (h : Keeps s0 s) (cmd : Nat) : Keeps s0 (rtcDone s cmd) := by
  unfold rtcDone
  repeat' first
    | with_reducible assumption
    | with_reducible first | apply State.rtcRaise_keeps | apply State.setRb_keeps
    | ((try lift_lets); intro x; refine Keeps.cut (s := s0) (x := x) ?_ ?_; unfold x; rotate_left; intro hx; clear_value x; rotate_right)
    | ((try lift_lets); intro x; clear_value x)
    | ((conv in (State.mk ..) => skip); with_reducible apply Keeps.mkUpd)

theorem State.rtcTick_keeps {s0 s : State} (h : Keeps s0 s)  : Keeps s0 (rtcTick s) := by
  unfold rtcTick
  repeat' first
    | with_reducible assumption
    | with_reducible first | apply State.rtcWrap_keeps | apply State.setCal_keeps | apply State.rtcZero_keeps | apply State.rtcDone_keeps | apply State.rtcAlarms_keeps
    | split

theorem State.rtcSet_keeps {s0 s : State} (h : Keeps s0 s)  : Keeps s0 (rtcSet s) := by
  unfold rtcSet
  repeat' first
    | with_reducible assumption
    | with_reducible first | apply State.free_keeps | apply State.rtcZero_keeps | apply State.setReg_keeps | apply State.rtcDone_keeps | apply State.rtcAlarms_keeps | apply State.setRb_keeps | apply State.rtcRaise_keeps
    | with_reducible apply Keeps.ite
    | split

theorem State.rtcCmdWrite_keeps {s0 s : State} (h : Keeps s0 s) (v : Word) : Keeps s0 (rtcCmdWrite s v) := by
  unfold rtcCmdWrite
  repeat' first
    | refine fun x => ?_
    | with_reducible assumption
    | with_reducible first | apply State.voidTrim_keeps | apply State.setRb_keeps | apply State.wign_keeps | apply State.rtcSet_keeps
    | with_reducible apply Keeps.ite
    | split
    | ((conv in (State.mk ..) => skip); with_reducible apply Keeps.mkUpd)

theorem State.compWindow_keeps {s0 s : State} (h : Keeps s0 s) (temp : BitVec 10) : Keeps s0 (compWindow s temp) := by
  unfold compWindow
  repeat' first
    | with_reducible assumption
    | with_reducible first | apply State.setReg_keeps
    | split

theorem execRtcSecondTick_keeps {s0 s : State} (h : Keeps s0 s)  : Keeps.Out s0 (execRtcSecondTick s) := by
  unfold execRtcSecondTick
  repeat' first
    | with_reducible assumption
    | with_reducible first | apply State.setXtal_keeps | apply State.rtcTick_keeps
    | with_reducible apply Keeps.out
    | with_reducible apply Keeps.ite
    | with_reducible apply Keeps.outIte
    | split
    | ((conv in (State.mk ..) => skip); with_reducible apply Keeps.mkUpd)

theorem execCompWindow_keeps {s0 s : State} (h : Keeps s0 s) (temp : BitVec 10) : Keeps.Out s0 (execCompWindow temp s) := by
  unfold execCompWindow
  repeat' first
    | with_reducible assumption
    | with_reducible first | apply State.compWindow_keeps
    | with_reducible apply Keeps.out

theorem execOscStop_keeps {s0 s : State} (h : Keeps s0 s)  : Keeps.Out s0 (execOscStop s) := by
  unfold execOscStop
  repeat' first
    | with_reducible assumption
    | with_reducible first | apply State.setXtal_keeps | apply State.setRb_keeps | apply State.rtcRaise_keeps
    | with_reducible apply Keeps.out
    | with_reducible apply Keeps.ite
    | with_reducible apply Keeps.outIte
    | split
    | ((conv in (State.mk ..) => skip); with_reducible apply Keeps.mkUpd)

theorem execPd0PowerUp_keeps {s0 s : State} (h : Keeps s0 s)  : Keeps.Out s0 (execPd0PowerUp s) := by
  unfold execPd0PowerUp
  refine Keeps.out (rtcZero_keeps (h.trans ?_))
  exact ⟨rfl, rfl, id, fun w => Sparse.wf_filter w _, Nat.le_refl _, List.prefix_rfl⟩

theorem execVbatChangeover_keeps {s0 s : State} (h : Keeps s0 s) (toVbat : Bool) : Keeps.Out s0 (execVbatChangeover toVbat s) := by
  unfold execVbatChangeover
  repeat' first
    | with_reducible assumption
    | with_reducible first | apply State.setRb_keeps
    | with_reducible apply Keeps.out
    | split
    | ((conv in (State.mk ..) => skip); with_reducible apply Keeps.mkUpd)

theorem execRtcSet_keeps {s0 s : State} (h : Keeps s0 s) (ag : Agent) : Keeps.Out s0 (execRtcSet ag s) := by
  unfold execRtcSet
  repeat' first
    | refine fun x => ?_
    | with_reducible assumption
    | with_reducible first | apply State.regWrite_keeps | apply State.rtcCmdWrite_keeps
    | with_reducible apply Keeps.out

theorem execAddh_keeps {s0 s : State} (h : Keeps s0 s) (ag : Agent) : Keeps.Out s0 (execAddh ag s) := by
  unfold execAddh
  repeat' first
    | refine fun x => ?_
    | with_reducible assumption
    | with_reducible first | apply State.regWrite_keeps | apply State.rtcCmdWrite_keeps
    | with_reducible apply Keeps.out

theorem execSubh_keeps {s0 s : State} (h : Keeps s0 s) (ag : Agent) : Keeps.Out s0 (execSubh ag s) := by
  unfold execSubh
  repeat' first
    | refine fun x => ?_
    | with_reducible assumption
    | with_reducible first | apply State.regWrite_keeps | apply State.rtcCmdWrite_keeps
    | with_reducible apply Keeps.out

theorem execFromnet_keeps {s0 s : State} (h : Keeps s0 s) (ag : Agent) : Keeps.Out s0 (execFromnet ag s) := by
  unfold execFromnet
  repeat' first
    | refine fun x => ?_
    | with_reducible assumption
    | with_reducible first | apply State.regWrite_keeps | apply State.rtcCmdWrite_keeps
    | with_reducible apply Keeps.out

end Sys2Proof.Machine
end

