-- ==== Sys2Proof/Laws/KeepsTime.lean ====
section
/-! SUPPORT. `Keeps` of the operations and meanings of Machine/Time.lean. -/

-- one declaration at a time: many at once take a thread and its stack each
set_option Elab.async false

set_option linter.all false

namespace Sys2Proof.Machine

open State

theorem State.setTimFine_keeps {s0 s : State} (h : Keeps s0 s) (x : Int) : Keeps s0 (setTimFine s x) := by
  unfold setTimFine
  repeat' first
    | with_reducible assumption
    | ((conv in (State.mk ..) => skip); with_reducible apply Keeps.mkUpd)

theorem State.timTick_keeps {s0 s : State} (h : Keeps s0 s)  : Keeps s0 (timTick s) := by
  unfold timTick
  repeat' first
    | with_reducible assumption
    | with_reducible first | apply State.setTimFine_keeps
    | split

theorem State.timUnlock_keeps {s0 s : State} (h : Keeps s0 s) (cause : Nat) : Keeps s0 (timUnlock s cause) := by
  unfold timUnlock
  repeat' first
    | with_reducible assumption
    | with_reducible first | apply State.voidTrim_keeps | apply State.setRb_keeps | apply State.setRf_keeps | apply State.bump_keeps | apply State.raise_keeps
    | with_reducible apply Keeps.ite
    | split
    | ((conv in (State.mk ..) => skip); with_reducible apply Keeps.mkUpd)

theorem State.ofsMeas_keeps {s0 s : State} (h : Keeps s0 s) (v : Word) : Keeps s0 (ofsMeas s v) := by
  unfold ofsMeas
  repeat' first
    | with_reducible assumption
    | with_reducible first | apply State.setReg_keeps | apply State.setRf_keeps | apply State.raise_keeps | apply State.setRb_keeps | apply State.timUnlock_keeps
    | with_reducible apply Keeps.ite

theorem State.timSetValue_keeps {s0 s : State} (h : Keeps s0 s)  : Keeps s0 (timSetValue s) := by
  unfold timSetValue
  repeat' first
    | with_reducible assumption
    | with_reducible first | apply State.free64_keeps
    | ((try lift_lets); intro x; refine Keeps.cut (s := s0) (x := x) ?_ ?_; unfold x; rotate_left; intro hx; clear_value x; rotate_right)
    | ((try lift_lets); intro x; refine Keeps.cut (s := s0) (x := x.2) ?_ ?_; unfold x; rotate_left; intro hx; clear_value x; rotate_right)
    | ((try lift_lets); intro x; clear_value x)
    | split
    | ((conv in (State.mk ..) => skip); with_reducible apply Keeps.mkUpd)

theorem State.timAddStep_keeps {s0 s : State} (h : Keeps s0 s)  : Keeps s0 (timAddStep s) := by
  unfold timAddStep
  repeat' first
    | with_reducible assumption
    | with_reducible first | apply State.setTimFine_keeps

theorem State.timCmdWrite_keeps {s0 s : State} (h : Keeps s0 s) (v : Word) : Keeps s0 (timCmdWrite s v) := by
  unfold timCmdWrite
  repeat' first
    | with_reducible assumption
    | with_reducible first | apply State.timSetValue_keeps | apply State.timAddStep_keeps | apply State.voidTrim_keeps | apply State.setRb_keeps | apply State.bump_keeps | apply State.raise_keeps | apply State.timFresh_keeps
    | with_reducible apply Keeps.ite
    | split
    | ((conv in (State.mk ..) => skip); with_reducible apply Keeps.mkUpd)

theorem State.rtcLoad_keeps {s0 s : State} (h : Keeps s0 s)  : Keeps s0 (rtcLoad s) := by
  unfold rtcLoad
  repeat' first
    | with_reducible assumption
    | with_reducible first | apply State.free64_keeps | apply State.setRb_keeps | apply State.timUnlock_keeps
    | split
    | ((conv in (State.mk ..) => skip); with_reducible apply Keeps.mkUpd)

theorem State.rtcXfer_keeps {s0 s : State} (h : Keeps s0 s)  : Keeps s0 (rtcXfer s) := by
  unfold rtcXfer
  repeat' first
    | with_reducible assumption
    | with_reducible first | apply State.rtcDone_keeps | apply State.raise_keeps | apply State.rtcAlarms_keeps | apply State.rtcZero_keeps | apply State.setCal_keeps
    | split

theorem State.setTciFifo_keeps {s0 s : State} (h : Keeps s0 s) (n : Nat) (l : List Capt) : Keeps s0 (setTciFifo s n l) := by
  unfold setTciFifo
  repeat' first
    | with_reducible assumption
    | with_reducible first | apply State.setRf_keeps
    | ((conv in (State.mk ..) => skip); with_reducible apply Keeps.mkUpd)

theorem State.tciEdge_keeps {s0 s : State} (h : Keeps s0 s) (n : Nat) (rising : Bool) : Keeps s0 (tciEdge s n rising) := by
  unfold tciEdge
  repeat' first
    | refine fun x => ?_
    | with_reducible assumption
    | with_reducible first | apply State.setRb_keeps | apply State.bump_keeps | apply State.setTciFifo_keeps | apply State.raise_keeps
    | with_reducible apply Keeps.ite
    | split
    | ((conv in (State.mk ..) => skip); with_reducible apply Keeps.mkUpd)

theorem State.tciPop_keeps {s0 s : State} (h : Keeps s0 s) (n : Nat) : Keeps s0 (tciPop s n).2 := by
  unfold tciPop
  repeat' first
    | with_reducible assumption
    | with_reducible first | apply State.setTciFifo_keeps
    | split

theorem State.tpoPut_keeps {s0 s : State} (h : Keeps s0 s) (n : Nat) (t : Tpo) : Keeps s0 (tpoPut s n t) := by
  unfold tpoPut
  repeat' first
    | with_reducible assumption
    | with_reducible first | apply State.setRb_keeps | apply State.send_keeps | apply State.setReg_keeps | apply State.raise_keeps
    | split
    | ((conv in (State.mk ..) => skip); with_reducible apply Keeps.mkUpd)

theorem State.tpoArmWith_keeps {s0 s : State} (h : Keeps s0 s) (n : Nat) (ns : Nat) (sec : Nat) (c : Nat) (inv : Bool) (each : Bool) (resv : Bool) : Keeps s0 (tpoArmWith s n ns sec c inv each resv) := by
  unfold tpoArmWith
  repeat' first
    | with_reducible assumption
    | with_reducible first | apply State.free64_keeps | apply free64_keeps | apply State.setReg_keeps | apply setReg_keeps | apply State.setRb_keeps | apply State.tpoPut_keeps
    | with_reducible apply Keeps.ite
    | split
    | ((conv in (State.mk ..) => skip); with_reducible apply Keeps.mkUpd)

theorem State.tpoCtrlWrite_keeps {s0 s : State} (h : Keeps s0 s) (n : Nat) (v : Word) : Keeps s0 (tpoCtrlWrite s n v) := by
  unfold tpoCtrlWrite
  repeat' first
    | with_reducible assumption
    | with_reducible first | apply State.setReg_keeps | apply State.tpoArmWith_keeps | apply State.tpoPut_keeps
    | with_reducible apply Keeps.ite

theorem State.tpoEdge_keeps {s0 s : State} (h : Keeps s0 s) (n : Nat) : Keeps s0 (tpoEdge s n) := by
  unfold tpoEdge
  repeat' first
    | with_reducible assumption
    | with_reducible first | apply State.tpoPut_keeps
    | with_reducible apply Keeps.ite

theorem State.tpoDone_keeps {s0 s : State} (h : Keeps s0 s) (n : Nat) : Keeps s0 (tpoDone s n) := by
  unfold tpoDone
  repeat' first
    | with_reducible assumption
    | with_reducible first | apply State.setRb_keeps | apply State.tpoPut_keeps | apply State.raise_keeps
    | with_reducible apply Keeps.ite

theorem State.tpoReset_keeps {s0 s : State} (h : Keeps s0 s)  : Keeps s0 (tpoReset s) := by
  unfold tpoReset
  repeat' first
    | with_reducible assumption
    | ((conv in (State.mk ..) => skip); with_reducible apply Keeps.mkUpd)

theorem execTimSet_keeps {s0 s : State} (h : Keeps s0 s) (ag : Agent) : Keeps.Out s0 (execTimSet ag s) := by
  unfold execTimSet
  repeat' first
    | refine fun x => ?_
    | with_reducible assumption
    | with_reducible first | apply State.regWrite_keeps | apply State.timCmdWrite_keeps
    | with_reducible apply Keeps.out

theorem execTimStep_keeps {s0 s : State} (h : Keeps s0 s) (ag : Agent) : Keeps.Out s0 (execTimStep ag s) := by
  unfold execTimStep
  repeat' first
    | refine fun x => ?_
    | with_reducible assumption
    | with_reducible first | apply State.regWrite_keeps | apply State.timCmdWrite_keeps
    | with_reducible apply Keeps.out

theorem execLoadrtc_keeps {s0 s : State} (h : Keeps s0 s) (ag : Agent) : Keeps.Out s0 (execLoadrtc ag s) := by
  unfold execLoadrtc
  repeat' first
    | refine fun x => ?_
    | with_reducible assumption
    | with_reducible first | apply State.regWrite_keeps | apply State.timCmdWrite_keeps
    | with_reducible apply Keeps.out

theorem execRtcLoad_keeps {s0 s : State} (h : Keeps s0 s)  : Keeps.Out s0 (execRtcLoad s) := by
  unfold execRtcLoad
  repeat' first
    | with_reducible assumption
    | with_reducible first | apply State.rtcLoad_keeps
    | with_reducible apply Keeps.out

theorem execOffsetMeasurement_keeps {s0 s : State} (h : Keeps s0 s) (ag : Agent) (v : Word) : Keeps.Out s0 (execOffsetMeasurement ag v s) := by
  unfold execOffsetMeasurement
  repeat' first
    | refine fun x => ?_
    | with_reducible assumption
    | with_reducible first | apply State.regWrite_keeps | apply State.ofsMeas_keeps
    | with_reducible apply Keeps.out

theorem execHoldoverExpiry_keeps {s0 s : State} (h : Keeps s0 s)  : Keeps.Out s0 (execHoldoverExpiry s) := by
  unfold execHoldoverExpiry
  repeat' first
    | with_reducible assumption
    | with_reducible first | apply State.timUnlock_keeps
    | with_reducible apply Keeps.out
    | with_reducible apply Keeps.ite
    | with_reducible apply Keeps.outIte
    | split
    | ((conv in (State.mk ..) => skip); with_reducible apply Keeps.mkUpd)

theorem execRtcXfer_keeps {s0 s : State} (h : Keeps s0 s)  : Keeps.Out s0 (execRtcXfer s) := by
  unfold execRtcXfer
  repeat' first
    | with_reducible assumption
    | with_reducible first | apply State.rtcXfer_keeps
    | with_reducible apply Keeps.out

theorem execTciEdge_keeps {s0 s : State} (h : Keeps s0 s) (n : Fin 4) (rising : Bool) : Keeps.Out s0 (execTciEdge n rising s) := by
  unfold execTciEdge
  repeat' first
    | with_reducible assumption
    | with_reducible first | apply State.tciEdge_keeps
    | with_reducible apply Keeps.out

theorem execTciTsRead_keeps {s0 s : State} (h : Keeps s0 s) (ag : Agent) (n : Fin 4) : Keeps.Out s0 (execTciTsRead ag n s) := by
  unfold execTciTsRead
  repeat' first
    | refine fun x => ?_
    | with_reducible assumption
    | with_reducible first | apply State.guardedRd_keeps | apply State.tciPop_keeps | apply State.latchWords_keeps
    | with_reducible apply Keeps.out

theorem execTpoArm_keeps {s0 s : State} (h : Keeps s0 s) (ag : Agent) (n : Fin 8) (v : Word) : Keeps.Out s0 (execTpoArm ag n v s) := by
  unfold execTpoArm
  repeat' first
    | refine fun x => ?_
    | with_reducible assumption
    | with_reducible first | apply State.regWrite_keeps | apply State.tpoCtrlWrite_keeps
    | with_reducible apply Keeps.out

theorem execTpoUnarm_keeps {s0 s : State} (h : Keeps s0 s) (ag : Agent) (n : Fin 8) (v : Word) : Keeps.Out s0 (execTpoUnarm ag n v s) := by
  unfold execTpoUnarm
  repeat' first
    | refine fun x => ?_
    | with_reducible assumption
    | with_reducible first | apply State.regWrite_keeps | apply State.tpoCtrlWrite_keeps
    | with_reducible apply Keeps.out

theorem execTpoEdge_keeps {s0 s : State} (h : Keeps s0 s) (n : Fin 8) : Keeps.Out s0 (execTpoEdge n s) := by
  unfold execTpoEdge
  repeat' first
    | with_reducible assumption
    | with_reducible first | apply State.tpoEdge_keeps
    | with_reducible apply Keeps.out

theorem execTpoDone_keeps {s0 s : State} (h : Keeps s0 s) (n : Fin 8) : Keeps.Out s0 (execTpoDone n s) := by
  unfold execTpoDone
  repeat' first
    | with_reducible assumption
    | with_reducible first | apply State.tpoDone_keeps
    | with_reducible apply Keeps.out

end Sys2Proof.Machine
end

