-- ==== Sys2Proof/Laws/KeepsEth.lean ====
section
/-! SUPPORT. `Keeps` of the operations and meanings of Machine/Eth.lean. -/

-- one declaration at a time: many at once take a thread and its stack each
set_option Elab.async false

set_option linter.all false

namespace Sys2Proof.Machine

open State

theorem State.setTxQueue_keeps {s0 s : State} (h : Keeps s0 s) (n : Nat) (l : List TxTs) : Keeps s0 (setTxQueue s n l) := by
  unfold setTxQueue
  repeat' first
    | with_reducible assumption
    | with_reducible first | apply State.setRf_keeps
    | ((conv in (State.mk ..) => skip); with_reducible apply Keeps.mkUpd)

theorem State.txCapture_keeps {s0 s : State} (h : Keeps s0 s) (n : Nat) (tsid : Nat) (t : Stamp) : Keeps s0 (txCapture s n tsid t) := by
  unfold txCapture
  repeat' first
    | with_reducible assumption
    | with_reducible first | apply State.raise_keeps | apply State.setReg_keeps | apply State.setRb_keeps | apply State.setTxQueue_keeps
    | with_reducible apply Keeps.ite

theorem State.txPop_keeps {s0 s : State} (h : Keeps s0 s) (n : Nat) : Keeps s0 (txPop s n).2 := by
  unfold txPop
  repeat' first
    | with_reducible assumption
    | with_reducible first | apply State.setTxQueue_keeps
    | split

theorem State.ethFrame_keeps {s0 s : State} (h : Keeps s0 s) (n : Nat) (e : List Byte) (f : List Byte) : Keeps s0 (ethFrame s n e f).2 := by
  unfold ethFrame
  repeat' first
    | with_reducible assumption
    | with_reducible first | apply State.freeBytes_keeps | apply freeBytes_keeps
    | with_reducible apply Keeps.ite
    | split
    | ((conv in (State.mk ..) => skip); with_reducible apply Keeps.mkUpd)

theorem State.oneStep_keeps {s0 s : State} (h : Keeps s0 s) (f : List Byte) (ofs : Nat) (udp : Bool) (t : Stamp) : Keeps s0 (oneStep s f ofs udp t).2 := by
  unfold oneStep
  repeat' first
    | with_reducible assumption
    | with_reducible first | apply State.free64_keeps
    | split

theorem State.ethTx_keeps {s0 s : State} (h : Keeps s0 s) (n : Nat) : Keeps s0 (ethTx s n) := by
  unfold ethTx
  repeat' first
    | with_reducible assumption
    | with_reducible first | apply State.free_keeps | apply free_keeps | apply State.ethFrame_keeps | apply State.oneStep_keeps | apply State.send_keeps | apply send_keeps | apply State.bump_keeps | apply State.txCapture_keeps | apply State.sramWr_keeps | apply sramWr_keeps | apply State.setReg_keeps | apply setReg_keeps
    | with_reducible apply Keeps.ite
    | split
    | ((conv in (State.mk ..) => skip); with_reducible apply Keeps.mkUpd)

theorem State.ethRx_keeps {s0 s : State} (h : Keeps s0 s) (n : Nat) (f : List Byte) (ok : Bool) : Keeps s0 (ethRx s n f ok) := by
  unfold ethRx
  repeat' first
    | with_reducible assumption
    | with_reducible first | apply State.bump_keeps | apply State.free_keeps | apply free_keeps | apply State.raise_keeps | apply State.ethFrame_keeps | apply State.sramWr_keeps | apply sramWr_keeps | apply State.setReg_keeps | apply setReg_keeps
    | with_reducible apply Keeps.ite
    | split
    | ((conv in (State.mk ..) => skip); with_reducible apply Keeps.mkUpd)

theorem State.mdioWrite_keeps {s0 s : State} (h : Keeps s0 s) (n : Nat) (v : Word) : Keeps s0 (mdioWrite s n v) := by
  unfold mdioWrite
  repeat' first
    | with_reducible assumption
    | with_reducible first | apply State.wign_keeps | apply State.setReg_keeps | apply State.send_keeps | apply State.setRb_keeps
    | split

theorem execEthEnable_keeps {s0 s : State} (h : Keeps s0 s) (ag : Agent) (n : Fin 4) (en : Bool) : Keeps.Out s0 (execEthEnable ag n en s) := by
  unfold execEthEnable
  repeat' first
    | refine fun x => ?_
    | with_reducible assumption
    | with_reducible first | apply State.regWrite_keeps | apply State.enRequest_keeps
    | with_reducible apply Keeps.out

theorem execEthTransitionDone_keeps {s0 s : State} (h : Keeps s0 s) (n : Fin 4) : Keeps.Out s0 (execEthTransitionDone n s) := by
  unfold execEthTransitionDone
  repeat' first
    | with_reducible assumption
    | with_reducible first | apply State.enDone_keeps
    | with_reducible apply Keeps.out

theorem execMdioGo_keeps {s0 s : State} (h : Keeps s0 s) (ag : Agent) (n : Fin 4) (v : Word) : Keeps.Out s0 (execMdioGo ag n v s) := by
  unfold execMdioGo
  repeat' first
    | refine fun x => ?_
    | with_reducible assumption
    | with_reducible first | apply State.regWrite_keeps | apply State.mdioWrite_keeps
    | with_reducible apply Keeps.out

theorem execMdioDone_keeps {s0 s : State} (h : Keeps s0 s) (n : Fin 4) (data : Half) : Keeps.Out s0 (execMdioDone n data s) := by
  unfold execMdioDone
  repeat' first
    | with_reducible assumption
    | with_reducible first | apply State.setRb_keeps | apply State.setRf_keeps
    | with_reducible apply Keeps.out
    | split

theorem execEthTxFrame_keeps {s0 s : State} (h : Keeps s0 s) (n : Fin 4) : Keeps.Out s0 (execEthTxFrame n s) := by
  unfold execEthTxFrame
  repeat' first
    | with_reducible assumption
    | with_reducible first | apply State.ethTx_keeps
    | with_reducible apply Keeps.out

theorem execTxtsRead_keeps {s0 s : State} (h : Keeps s0 s) (ag : Agent) (n : Fin 4) : Keeps.Out s0 (execTxtsRead ag n s) := by
  unfold execTxtsRead
  repeat' first
    | refine fun x => ?_
    | with_reducible assumption
    | with_reducible first | apply State.guardedRd_keeps | apply State.txPop_keeps | apply State.latchWords_keeps
    | with_reducible apply Keeps.out

theorem execEthRxFrame_keeps {s0 s : State} (h : Keeps s0 s) (n : Fin 4) (f : List Byte) (ok : Bool) : Keeps.Out s0 (execEthRxFrame n f ok s) := by
  unfold execEthRxFrame
  repeat' first
    | with_reducible assumption
    | with_reducible first | apply State.ethRx_keeps
    | with_reducible apply Keeps.out

theorem execLinkChange_keeps {s0 s : State} (h : Keeps s0 s) (n : Fin 4) (up : Bool) (speed : BitVec 2) : Keeps.Out s0 (execLinkChange n up speed s) := by
  unfold execLinkChange
  repeat' first
    | with_reducible assumption
    | with_reducible first | apply State.raise_keeps | apply State.setRb_keeps | apply State.setRf_keeps
    | with_reducible apply Keeps.out

end Sys2Proof.Machine
end

