-- ==== Sys2Proof/Laws/KeepsCan.lean ====
section
/-! SUPPORT. `Keeps` of the operations and meanings of Machine/Can.lean. -/

-- one declaration at a time: many at once take a thread and its stack each
set_option Elab.async false

set_option linter.all false

namespace Sys2Proof.Machine

open State

theorem State.setCn_keeps {s0 s : State} (h : Keeps s0 s) (n : Nat) (c : Can) : Keeps s0 (setCn s n c) := by
  unfold setCn
  repeat' first
    | with_reducible assumption
    | ((conv in (State.mk ..) => skip); with_reducible apply Keeps.mkUpd)

theorem State.setObjBit_keeps {s0 s : State} (h : Keeps s0 s) (k : Nat) (j : Nat) (b : Bool) : Keeps s0 (setObjBit s k j b) := by
  unfold setObjBit
  repeat' first
    | with_reducible assumption
    | with_reducible first | apply State.setRb_keeps

theorem State.canStatView_keeps {s0 s : State} (h : Keeps s0 s) (n : Nat) : Keeps s0 (canStatView s n).2 := by
  unfold canStatView
  repeat' first
    | with_reducible assumption
    | with_reducible first | apply State.free_keeps
    | ((try lift_lets); intro x; refine Keeps.cut (s := s0) (x := x.2) ?_ ?_; unfold x; rotate_left; intro hx; clear_value x; rotate_right)
    | ((try lift_lets); intro x; clear_value x)
    | split

theorem State.canErrView_keeps {s0 s : State} (h : Keeps s0 s) (n : Nat) : Keeps s0 (canErrView s n).2 := by
  unfold canErrView
  repeat' first
    | with_reducible assumption
    | with_reducible first | apply State.free_keeps
    | ((try lift_lets); intro x; refine Keeps.cut (s := s0) (x := x.2) ?_ ?_; unfold x; rotate_left; intro hx; clear_value x; rotate_right)
    | ((try lift_lets); intro x; clear_value x)
    | split

theorem State.canErr_keeps {s0 s : State} (h : Keeps s0 s) (n : Nat) (tec : Nat) (rc : Nat) (obj : Nat) : Keeps s0 (canErr s n tec rc obj) := by
  unfold canErr
  repeat' first
    | with_reducible assumption
    | with_reducible first | apply State.setRf_keeps | apply State.raise_keeps | apply State.bump_keeps | apply State.setCn_keeps
    | with_reducible apply Keeps.ite

theorem State.canScramble_keeps {s0 s : State} (h : Keeps s0 s) (f : CanFrame) : Keeps s0 (canScramble s f).2 := by
  unfold canScramble
  repeat' first
    | with_reducible assumption
    | with_reducible first | apply State.free_keeps | apply State.freeBytes_keeps

theorem State.canStore_keeps {s0 s : State} (h : Keeps s0 s) (n : Nat) (f : CanFrame) (self : Bool) (t : Nat) : Keeps s0 (canStore s n f self t) := by
  unfold canStore
  repeat' first
    | with_reducible assumption
    | with_reducible first | apply State.raise_keeps | apply State.bump_keeps | apply State.wrBytes_keeps | apply State.setRf_keeps | apply State.setObjBit_keeps | apply State.setCn_keeps
    | ((try lift_lets); intro x; clear_value x)
    | split

theorem State.canRx_keeps {s0 s : State} (h : Keeps s0 s) (n : Nat) (f : CanFrame) (age : Nat) : Keeps s0 (canRx s n f age) := by
  unfold canRx
  repeat' first
    | with_reducible assumption
    | with_reducible first | apply State.free_keeps | apply State.canErr_keeps | apply State.canScramble_keeps | apply State.canStore_keeps
    | with_reducible apply Keeps.ite
    | split

theorem State.canTxrdy_keeps {s0 s : State} (h : Keeps s0 s) (n : Nat) (m : Nat) (v : Word) : Keeps s0 (canTxrdy s n m v) := by
  unfold canTxrdy
  repeat' first
    | with_reducible assumption
    | with_reducible first | apply State.setReg_keeps | apply State.wign_keeps
    | with_reducible apply Keeps.ite

theorem State.canCancelled_keeps {s0 s : State} (h : Keeps s0 s) (n : Nat) (j : Nat) : Keeps s0 (canCancelled s n j) := by
  unfold canCancelled
  repeat' first
    | with_reducible assumption
    | with_reducible first | apply State.raise_keeps | apply State.setObjBit_keeps

theorem State.canTxcan_keeps {s0 s : State} (h : Keeps s0 s) (n : Nat) (m : Nat) (v : Word) : Keeps s0 (canTxcan s n m v) := by
  unfold canTxcan
  repeat' first
    | refine fun x => ?_
    | with_reducible assumption
    | with_reducible first | apply State.setObjBit_keeps | apply State.canCancelled_keeps
    | with_reducible apply Keeps.ite
    | with_reducible refine Keeps.foldl ?_ ?_

theorem State.canSelect_keeps {s0 s : State} (h : Keeps s0 s) (n : Nat) : Keeps s0 (canSelect s n) := by
  unfold canSelect
  repeat' first
    | with_reducible assumption
    | with_reducible first | apply State.setCn_keeps
    | with_reducible apply Keeps.ite
    | split

theorem State.canUnsent_keeps {s0 s : State} (h : Keeps s0 s) (n : Nat) (j : Nat) : Keeps s0 (canUnsent s n j) := by
  unfold canUnsent
  repeat' first
    | with_reducible assumption
    | with_reducible first | apply State.canCancelled_keeps
    | split

theorem State.canTxEnd_keeps {s0 s : State} (h : Keeps s0 s) (n : Nat) (r : CanEnd) (age : Nat) : Keeps s0 (canTxEnd s n r age) := by
  unfold canTxEnd
  repeat' first
    | with_reducible assumption
    | with_reducible first | apply State.setRf_keeps | apply State.setCn_keeps | apply State.canScramble_keeps | apply State.wrLE_keeps | apply State.setObjBit_keeps | apply State.raise_keeps | apply State.bump_keeps | apply State.canErr_keeps | apply State.send_keeps | apply State.canStore_keeps | apply State.canUnsent_keeps
    | with_reducible apply Keeps.ite
    | split

theorem State.canRxErr_keeps {s0 s : State} (h : Keeps s0 s) (n : Nat) (lec : Nat) (big : Bool) : Keeps s0 (canRxErr s n lec big) := by
  unfold canRxErr
  repeat' first
    | with_reducible assumption
    | with_reducible first | apply State.bump_keeps | apply State.setRf_keeps | apply State.canErr_keeps
    | split

theorem State.canRecover_keeps {s0 s : State} (h : Keeps s0 s) (n : Nat) : Keeps s0 (canRecover s n) := by
  unfold canRecover
  repeat' first
    | with_reducible assumption
    | with_reducible first | apply State.setCn_keeps | apply State.wign_keeps
    | with_reducible apply Keeps.ite

theorem State.canCmdWrite_keeps {s0 s : State} (h : Keeps s0 s) (n : Nat) (v : Word) : Keeps s0 (canCmdWrite s n v) := by
  unfold canCmdWrite
  repeat' first
    | with_reducible assumption
    | with_reducible first | apply State.free_keeps | apply State.canRecover_keeps
    | with_reducible apply Keeps.ite
    | split

theorem State.canSoft_keeps {s0 s : State} (h : Keeps s0 s) (n : Nat) (err : Word) : Keeps s0 (canSoft s n err) := by
  unfold canSoft
  repeat' first
    | refine fun x => ?_
    | with_reducible assumption
    | with_reducible first | apply State.setReg_keeps | apply State.setCn_keeps
    | with_reducible refine Keeps.foldl ?_ ?_
    | split

theorem execCanEnable_keeps {s0 s : State} (h : Keeps s0 s) (ag : Agent) (n : Fin 4) (en : Bool) : Keeps.Out s0 (execCanEnable ag n en s) := by
  unfold execCanEnable
  repeat' first
    | refine fun x => ?_
    | with_reducible assumption
    | with_reducible first | apply State.regWrite_keeps | apply State.enRequest_keeps
    | with_reducible apply Keeps.out

theorem execCanTransitionDone_keeps {s0 s : State} (h : Keeps s0 s) (n : Fin 4) : Keeps.Out s0 (execCanTransitionDone n s) := by
  unfold execCanTransitionDone
  repeat' first
    | with_reducible assumption
    | with_reducible first | apply State.enDone_keeps
    | with_reducible apply Keeps.out
    | split

theorem execCanRxFrame_keeps {s0 s : State} (h : Keeps s0 s) (n : Fin 4) (f : CanFrame) (age : Word) : Keeps.Out s0 (execCanRxFrame n f age s) := by
  unfold execCanRxFrame
  repeat' first
    | with_reducible assumption
    | with_reducible first | apply State.canRx_keeps
    | with_reducible apply Keeps.out

theorem execRxfullAck_keeps {s0 s : State} (h : Keeps s0 s) (ag : Agent) (n : Fin 4) (m : Fin 4) (v : Word) : Keeps.Out s0 (execRxfullAck ag n m v s) := by
  unfold execRxfullAck
  repeat' first
    | refine fun x => ?_
    | with_reducible assumption
    | with_reducible first | apply State.regWrite_keeps | apply State.setReg_keeps
    | with_reducible apply Keeps.out

theorem execTxrdy_keeps {s0 s : State} (h : Keeps s0 s) (ag : Agent) (n : Fin 4) (m : Fin 4) (v : Word) : Keeps.Out s0 (execTxrdy ag n m v s) := by
  unfold execTxrdy
  repeat' first
    | refine fun x => ?_
    | with_reducible assumption
    | with_reducible first | apply State.regWrite_keeps | apply State.canTxrdy_keeps
    | with_reducible apply Keeps.out

theorem execTxcan_keeps {s0 s : State} (h : Keeps s0 s) (ag : Agent) (n : Fin 4) (m : Fin 4) (v : Word) : Keeps.Out s0 (execTxcan ag n m v s) := by
  unfold execTxcan
  repeat' first
    | refine fun x => ?_
    | with_reducible assumption
    | with_reducible first | apply State.regWrite_keeps | apply State.canTxcan_keeps
    | with_reducible apply Keeps.out

theorem execCanTxSelect_keeps {s0 s : State} (h : Keeps s0 s) (n : Fin 4) : Keeps.Out s0 (execCanTxSelect n s) := by
  unfold execCanTxSelect
  repeat' first
    | with_reducible assumption
    | with_reducible first | apply State.canSelect_keeps
    | with_reducible apply Keeps.out

theorem execCanTxEnd_keeps {s0 s : State} (h : Keeps s0 s) (n : Fin 4) (r : CanEnd) (age : Word) : Keeps.Out s0 (execCanTxEnd n r age s) := by
  unfold execCanTxEnd
  repeat' first
    | with_reducible assumption
    | with_reducible first | apply State.canTxEnd_keeps
    | with_reducible apply Keeps.out

theorem execCanRecover_keeps {s0 s : State} (h : Keeps s0 s) (ag : Agent) (n : Fin 4) : Keeps.Out s0 (execCanRecover ag n s) := by
  unfold execCanRecover
  repeat' first
    | refine fun x => ?_
    | with_reducible assumption
    | with_reducible first | apply State.regWrite_keeps | apply State.canRecover_keeps
    | with_reducible apply Keeps.out

theorem execCanRecovered_keeps {s0 s : State} (h : Keeps s0 s) (n : Fin 4) : Keeps.Out s0 (execCanRecovered n s) := by
  unfold execCanRecovered
  repeat' first
    | with_reducible assumption
    | with_reducible first | apply State.raiseFree_keeps | apply State.setCn_keeps | apply State.setReg_keeps
    | with_reducible apply Keeps.out
    | with_reducible apply Keeps.outIte

theorem execCanRxError_keeps {s0 s : State} (h : Keeps s0 s) (n : Fin 4) (lec : BitVec 3) (big : Bool) : Keeps.Out s0 (execCanRxError n lec big s) := by
  unfold execCanRxError
  repeat' first
    | with_reducible assumption
    | with_reducible first | apply State.canRxErr_keeps
    | with_reducible apply Keeps.out

end Sys2Proof.Machine
end

