-- ==== Sys2Proof/Laws/KeepsRind.lean ====
section
/-! SUPPORT. `Keeps` of the operations and meanings of Machine/Rind.lean. -/

-- one declaration at a time: many at once take a thread and its stack each
set_option Elab.async false

set_option linter.all false

namespace Sys2Proof.Machine

open State

theorem State.chanReq_keeps {s0 s : State} (h : Keeps s0 s) (c : Nat) (on : Bool) : Keeps s0 (chanReq s c on) := by
  unfold chanReq
  repeat' first
    | with_reducible assumption
    | with_reducible first | apply State.setRb_keeps | apply State.holdReq_keeps | apply State.chanDown_keeps | apply State.syncBusy_keeps | apply State.setFn_keeps
    | with_reducible apply Keeps.ite

theorem State.chenWrite_keeps {s0 s : State} (h : Keeps s0 s) (v : Word) : Keeps s0 (chenWrite s v) := by
  unfold chenWrite
  repeat' first
    | refine fun x => ?_
    | with_reducible assumption
    | with_reducible first | apply State.chanReq_keeps
    | with_reducible refine Keeps.foldl ?_ ?_
    | split

theorem State.chcfgWrite_keeps {s0 s : State} (h : Keeps s0 s) (c : Nat) (v : Word) : Keeps s0 (chcfgWrite s c v) := by
  unfold chcfgWrite
  repeat' first
    | with_reducible assumption
    | with_reducible first | apply State.free_keeps | apply State.wign_keeps | apply State.rndPush_keeps | apply State.setReg_keeps
    | with_reducible apply Keeps.ite
    | split

theorem State.rndCmd_keeps {s0 s : State} (h : Keeps s0 s) (v : Word) : Keeps s0 (rndCmd s v) := by
  unfold rndCmd
  repeat' first
    | with_reducible assumption
    | with_reducible first | apply State.free_keeps | apply State.rndPush_keeps | apply State.wign_keeps
    | with_reducible apply Keeps.ite
    | split

theorem State.doutSet_keeps {s0 s : State} (h : Keeps s0 s) (v : Word) : Keeps s0 (doutSet s v) := by
  unfold doutSet
  repeat' first
    | with_reducible assumption
    | with_reducible first | apply State.rndPush_keeps | apply State.setReg_keeps
    | split

theorem State.enableDone_keeps {s0 s : State} (h : Keeps s0 s) (id : Nat) : Keeps s0 (enableDone s id) := by
  unfold enableDone
  dsimp only
  split
  · exact h
  · split
    · repeat' first
    | with_reducible assumption
    | with_reducible first | apply State.enDone_keeps | apply State.rindStart_keeps | apply State.raise_keeps | apply State.syncBusy_keeps | apply State.setFn_keeps | apply State.rindSafeAll_keeps | apply State.setRb_keeps
    | split
    | ((conv in (State.mk ..) => skip); with_reducible apply Keeps.mkUpd)
    · repeat' first
    | with_reducible assumption
    | with_reducible first | apply State.enDone_keeps | apply State.rindStart_keeps | apply State.raise_keeps | apply State.syncBusy_keeps | apply State.setFn_keeps | apply State.rindSafeAll_keeps | apply State.setRb_keeps
    | split
    | ((conv in (State.mk ..) => skip); with_reducible apply Keeps.mkUpd)

theorem State.rndFrame_keeps {s0 s : State} (h : Keeps s0 s) (f : RindFrame) (crcOk : Bool) (k : State → State) (hf3 : ∀ x0, Keeps s0 x0 → Keeps s0 (k x0)) : Keeps s0 (rndFrame s f crcOk k) := by
  unfold rndFrame
  repeat' first
    | with_reducible assumption
    | with_reducible apply hf3
    | split
    | ((conv in (State.mk ..) => skip); with_reducible apply Keeps.mkUpd)

theorem State.rindVals_keeps {s0 s : State} (h : Keeps s0 s)  : Keeps s0 (rindVals s).2 := by
  unfold rindVals
  repeat' first
    | refine fun x => ?_
    | with_reducible assumption
    | with_reducible first | apply State.touchBlocks_keeps | apply State.publish_keeps | apply State.conf_keeps | apply State.outSeg_keeps | apply State.free_keeps | apply free_keeps
    | with_reducible apply Keeps.ite
    | with_reducible refine Keeps.foldl ?_ ?_
    | ((try lift_lets); intro x; refine Keeps.cut (s := s0) (x := x) ?_ ?_; unfold x; rotate_left; intro hx; clear_value x; rotate_right)
    | ((try lift_lets); intro x; refine Keeps.cut (s := s0) (x := x.2) ?_ ?_; unfold x; rotate_left; intro hx; clear_value x; rotate_right)
    | ((try lift_lets); intro x; clear_value x)
    | split
    | ((conv in (State.mk ..) => skip); with_reducible apply Keeps.mkUpd)

theorem State.rindRefresh_keeps {s0 s : State} (h : Keeps s0 s) (crcOk : Bool) : Keeps s0 (rindRefresh s crcOk) := by
  unfold rindRefresh
  repeat' first
    | with_reducible assumption
    | with_reducible first | apply State.rindVals_keeps | apply State.free_keeps
    | ((try lift_lets); intro x; refine Keeps.cut (s := s0) (x := x) ?_ ?_; unfold x; rotate_left; intro hx; clear_value x; rotate_right)
    | ((try lift_lets); intro x; refine Keeps.cut (s := s0) (x := x.2) ?_ ?_; unfold x; rotate_left; intro hx; clear_value x; rotate_right)
    | ((try lift_lets); intro x; clear_value x)
    | split
    | ((conv in (State.mk ..) => skip); with_reducible apply Keeps.mkUpd)

theorem State.rindTake_keeps {s0 s : State} (h : Keeps s0 s) (vals : Word) (sel : Nat → Bool) : Keeps s0 (rindTake s vals sel) := by
  unfold rindTake
  repeat' first
    | refine fun x => ?_
    | with_reducible assumption
    | with_reducible first | apply State.rindDrive_keeps | apply State.setReg_keeps
    | with_reducible refine Keeps.foldl ?_ ?_
    | ((try lift_lets); intro x; refine Keeps.cut (s := s0) (x := x) ?_ ?_; unfold x; rotate_left; intro hx; clear_value x; rotate_right)
    | ((try lift_lets); intro x; clear_value x)
    | split
    | ((conv in (State.mk ..) => skip); with_reducible apply Keeps.mkUpd)

theorem State.rindApply_keeps {s0 s : State} (h : Keeps s0 s) (crcOk : Bool) : Keeps s0 (rindApply s crcOk) := by
  unfold rindApply
  repeat' first
    | with_reducible assumption
    | with_reducible first | apply State.rindTake_keeps
    | ((try lift_lets); intro x; refine Keeps.cut (s := s0) (x := x) ?_ ?_; unfold x; rotate_left; intro hx; clear_value x; rotate_right)
    | ((try lift_lets); intro x; clear_value x)
    | split
    | ((conv in (State.mk ..) => skip); with_reducible apply Keeps.mkUpd)

theorem State.rindCal_keeps {s0 s : State} (h : Keeps s0 s) (c : Nat) : Keeps s0 (rindCal s c) := by
  unfold rindCal
  repeat' first
    | with_reducible assumption
    | with_reducible first | apply State.free_keeps | apply State.setReg_keeps | apply State.raise_keeps | apply State.bump_keeps
    | with_reducible apply Keeps.ite
    | ((try lift_lets); intro x; refine Keeps.cut (s := s0) (x := x) ?_ ?_; unfold x; rotate_left; intro hx; clear_value x; rotate_right)
    | ((try lift_lets); intro x; clear_value x)
    | ((conv in (State.mk ..) => skip); with_reducible apply Keeps.mkUpd)

theorem State.rindConfig_keeps {s0 s : State} (h : Keeps s0 s) (crcOk : Bool) : Keeps s0 (rindConfig s crcOk) := by
  unfold rindConfig
  repeat' first
    | refine fun x => ?_
    | with_reducible assumption
    | with_reducible first | apply State.rndFrame_keeps | apply State.rindSafeAll_keeps | apply State.rindCal_keeps
    | with_reducible apply Keeps.ite
    | split
    | ((conv in (State.mk ..) => skip); with_reducible apply Keeps.mkUpd)

theorem State.rindSampleCh_keeps {s0 s : State} (h : Keeps s0 s) (c : Nat) (level : Bool) : Keeps s0 (rindSampleCh s c level) := by
  unfold rindSampleCh
  repeat' first
    | with_reducible assumption
    | with_reducible apply Keeps.ite
    | ((conv in (State.mk ..) => skip); with_reducible apply Keeps.mkUpd)

theorem State.rndLinkUp_keeps {s0 s : State} (h : Keeps s0 s)  : Keeps s0 (rndLinkUp s) := by
  unfold rndLinkUp
  repeat' first
    | with_reducible assumption
    | with_reducible first | apply State.raiseFree_keeps | apply State.setRb_keeps
    | split
    | ((conv in (State.mk ..) => skip); with_reducible apply Keeps.mkUpd)

theorem State.rndBlock_keeps {s0 s : State} (h : Keeps s0 s) (st : Nat) (lands : Bool) : Keeps s0 (rndBlock s st lands) := by
  unfold rndBlock
  repeat' first
    | with_reducible assumption
    | with_reducible first | apply State.free_keeps | apply free_keeps | apply State.freeBytes_keeps | apply freeBytes_keeps | apply State.recvBlock_keeps | apply State.recvLate_keeps
    | with_reducible apply Keeps.ite
    | split
    | ((conv in (State.mk ..) => skip); with_reducible apply Keeps.mkUpd)

theorem State.rindReportOk_keeps {s0 s : State} (h : Keeps s0 s) (lands : Bool) : Keeps s0 (rindReportOk s lands) := by
  unfold rindReportOk
  repeat' first
    | with_reducible assumption
    | with_reducible first | apply State.setReg_keeps | apply setReg_keeps | apply State.setRb_keeps | apply State.setRf_keeps | apply State.setReg64_keeps | apply State.bump_keeps | apply State.raise_keeps | apply State.rndLinkUp_keeps | apply State.rndBlock_keeps | apply State.rndFault_keeps
    | with_reducible apply Keeps.ite
    | split
    | ((conv in (State.mk ..) => skip); with_reducible apply Keeps.mkUpd)

theorem State.rindReport_keeps {s0 s : State} (h : Keeps s0 s) (crcOk : Bool) (lands : Bool) : Keeps s0 (rindReport s crcOk lands) := by
  unfold rindReport
  repeat' first
    | with_reducible assumption
    | with_reducible first | apply State.rindReportOk_keeps | apply State.bump_keeps | apply State.raiseFree_keeps
    | with_reducible apply Keeps.ite
    | split
    | ((conv in (State.mk ..) => skip); with_reducible apply Keeps.mkUpd)

theorem State.rindLost_keeps {s0 s : State} (h : Keeps s0 s)  : Keeps s0 (rindLost s) := by
  unfold rindLost
  repeat' first
    | with_reducible assumption
    | with_reducible first | apply State.rndFault_keeps | apply State.raiseFree_keeps | apply State.setRb_keeps
    | ((try lift_lets); intro x; refine Keeps.cut (s := s0) (x := x) ?_ ?_; unfold x; rotate_left; intro hx; clear_value x; rotate_right)
    | ((try lift_lets); intro x; clear_value x)
    | split
    | ((conv in (State.mk ..) => skip); with_reducible apply Keeps.mkUpd)

theorem State.vfldLost_keeps {s0 s : State} (h : Keeps s0 s)  : Keeps s0 (vfldLost s) := by
  unfold vfldLost
  repeat' first
    | with_reducible assumption
    | with_reducible first | apply State.domForce_keeps | apply State.rindDrop_keeps | apply State.syncHeld_keeps | apply State.setFn_keeps | apply State.rndFault_keeps | apply State.raiseFree_keeps
    | ((try lift_lets); intro x; refine Keeps.cut (s := s0) (x := x) ?_ ?_; unfold x; rotate_left; intro hx; clear_value x; rotate_right)
    | ((try lift_lets); intro x; clear_value x)
    | split
    | ((conv in (State.mk ..) => skip); with_reducible apply Keeps.mkUpd)

theorem State.vfldBack_keeps {s0 s : State} (h : Keeps s0 s)  : Keeps s0 (vfldBack s) := by
  unfold vfldBack
  repeat' first
    | with_reducible assumption
    | with_reducible first | apply heldStart_keeps | apply State.raiseFree_keeps
    | split
    | ((conv in (State.mk ..) => skip); with_reducible apply Keeps.mkUpd)

theorem execHeldRequestStart_keeps {s0 s : State} (h : Keeps s0 s) (fn : Nat) : Keeps.Out s0 (execHeldRequestStart fn s) := by
  unfold execHeldRequestStart
  repeat' first
    | with_reducible assumption
    | with_reducible first | apply heldStart_keeps
    | with_reducible apply Keeps.out

theorem execRndEnable_keeps {s0 s : State} (h : Keeps s0 s) (ag : Agent) (en : Bool) : Keeps.Out s0 (execRndEnable ag en s) := by
  unfold execRndEnable
  repeat' first
    | refine fun x => ?_
    | with_reducible assumption
    | with_reducible first | apply State.regWrite_keeps | apply State.enRequest_keeps
    | with_reducible apply Keeps.out

theorem execRndChen_keeps {s0 s : State} (h : Keeps s0 s) (ag : Agent) (v : Word) : Keeps.Out s0 (execRndChen ag v s) := by
  unfold execRndChen
  repeat' first
    | refine fun x => ?_
    | with_reducible assumption
    | with_reducible first | apply State.regWrite_keeps | apply State.chenWrite_keeps
    | with_reducible apply Keeps.out

theorem execEnableDone_keeps {s0 s : State} (h : Keeps s0 s) (fn : Nat) : Keeps.Out s0 (execEnableDone fn s) := by
  unfold execEnableDone
  repeat' first
    | with_reducible assumption
    | with_reducible first | apply State.enableDone_keeps
    | with_reducible apply Keeps.out

theorem execRindRefresh_keeps {s0 s : State} (h : Keeps s0 s) (crcOk : Bool) : Keeps.Out s0 (execRindRefresh crcOk s) := by
  unfold execRindRefresh
  repeat' first
    | with_reducible assumption
    | with_reducible first | apply State.rindRefresh_keeps
    | with_reducible apply Keeps.out

theorem execRindApply_keeps {s0 s : State} (h : Keeps s0 s) (crcOk : Bool) : Keeps.Out s0 (execRindApply crcOk s) := by
  unfold execRindApply
  repeat' first
    | with_reducible assumption
    | with_reducible first | apply State.rindApply_keeps
    | with_reducible apply Keeps.out

theorem execRindRefreshSkip_keeps {s0 s : State} (h : Keeps s0 s)  : Keeps.Out s0 (execRindRefreshSkip s) := by
  unfold execRindRefreshSkip
  repeat' first
    | with_reducible assumption
    | with_reducible first | apply State.bump_keeps
    | with_reducible apply Keeps.out
    | ((try lift_lets); intro x; refine Keeps.cut (s := s0) (x := x) ?_ ?_; unfold x; rotate_left; intro hx; clear_value x; rotate_right)
    | ((try lift_lets); intro x; clear_value x)
    | split
    | ((conv in (State.mk ..) => skip); with_reducible apply Keeps.mkUpd)

theorem execRindSafeFrame_keeps {s0 s : State} (h : Keeps s0 s) (crcOk : Bool) : Keeps.Out s0 (execRindSafeFrame crcOk s) := by
  unfold execRindSafeFrame
  repeat' first
    | refine fun x => ?_
    | with_reducible assumption
    | with_reducible first | apply State.rndFrame_keeps | apply State.rindEnter_keeps
    | with_reducible apply Keeps.out
    | split

theorem execRindReleaseFrame_keeps {s0 s : State} (h : Keeps s0 s) (crcOk : Bool) : Keeps.Out s0 (execRindReleaseFrame crcOk s) := by
  unfold execRindReleaseFrame
  repeat' first
    | refine fun x => ?_
    | with_reducible assumption
    | with_reducible first | apply State.rndFrame_keeps
    | with_reducible apply Keeps.out
    | split
    | ((conv in (State.mk ..) => skip); with_reducible apply Keeps.mkUpd)

theorem execRindDirectFrame_keeps {s0 s : State} (h : Keeps s0 s) (crcOk : Bool) : Keeps.Out s0 (execRindDirectFrame crcOk s) := by
  unfold execRindDirectFrame
  repeat' first
    | refine fun x => ?_
    | with_reducible assumption
    | with_reducible first | apply State.rndFrame_keeps | apply State.rindTake_keeps
    | with_reducible apply Keeps.out
    | split

theorem execRindConfigFrame_keeps {s0 s : State} (h : Keeps s0 s) (crcOk : Bool) : Keeps.Out s0 (execRindConfigFrame crcOk s) := by
  unfold execRindConfigFrame
  repeat' first
    | with_reducible assumption
    | with_reducible first | apply State.rindConfig_keeps
    | with_reducible apply Keeps.out

theorem execRindSample_keeps {s0 s : State} (h : Keeps s0 s) (levels : Word) : Keeps.Out s0 (execRindSample levels s) := by
  unfold execRindSample
  repeat' first
    | refine fun x => ?_
    | with_reducible assumption
    | with_reducible first | apply State.rindSampleCh_keeps
    | with_reducible apply Keeps.out
    | with_reducible refine Keeps.foldl ?_ ?_
    | split

theorem execRindReport_keeps {s0 s : State} (h : Keeps s0 s) (rx : ReportRx) : Keeps.Out s0 (execRindReport rx s) := by
  unfold execRindReport
  repeat' first
    | with_reducible assumption
    | with_reducible first | apply State.rindReport_keeps
    | with_reducible apply Keeps.out
    | with_reducible apply Keeps.ite
    | with_reducible apply Keeps.outIte
    | split
    | ((conv in (State.mk ..) => skip); with_reducible apply Keeps.mkUpd)

theorem execRindTimeout_keeps {s0 s : State} (h : Keeps s0 s)  : Keeps.Out s0 (execRindTimeout s) := by
  unfold execRindTimeout
  repeat' first
    | with_reducible assumption
    | with_reducible first | apply State.rindEnter_keeps
    | with_reducible apply Keeps.out
    | split

theorem execDemagEnd_keeps {s0 s : State} (h : Keeps s0 s) (c : Fin 32) : Keeps.Out s0 (execDemagEnd c s) := by
  unfold execDemagEnd
  repeat' first
    | with_reducible assumption
    | with_reducible apply Keeps.out
    | split
    | ((conv in (State.mk ..) => skip); with_reducible apply Keeps.mkUpd)

theorem execThermalShutdown_keeps {s0 s : State} (h : Keeps s0 s) (c : Fin 32) (on : Bool) : Keeps.Out s0 (execThermalShutdown c on s) := by
  unfold execThermalShutdown
  repeat' first
    | with_reducible assumption
    | with_reducible apply Keeps.out
    | ((conv in (State.mk ..) => skip); with_reducible apply Keeps.mkUpd)

theorem execCurrentLimit_keeps {s0 s : State} (h : Keeps s0 s) (c : Fin 32) (on : Bool) : Keeps.Out s0 (execCurrentLimit c on s) := by
  unfold execCurrentLimit
  repeat' first
    | with_reducible assumption
    | with_reducible apply Keeps.out
    | ((conv in (State.mk ..) => skip); with_reducible apply Keeps.mkUpd)

theorem execRndCmdSafe_keeps {s0 s : State} (h : Keeps s0 s) (ag : Agent) : Keeps.Out s0 (execRndCmdSafe ag s) := by
  unfold execRndCmdSafe
  repeat' first
    | refine fun x => ?_
    | with_reducible assumption
    | with_reducible first | apply State.regWrite_keeps | apply State.rndCmd_keeps
    | with_reducible apply Keeps.out

theorem execRndCmdRelease_keeps {s0 s : State} (h : Keeps s0 s) (ag : Agent) : Keeps.Out s0 (execRndCmdRelease ag s) := by
  unfold execRndCmdRelease
  repeat' first
    | refine fun x => ?_
    | with_reducible assumption
    | with_reducible first | apply State.regWrite_keeps | apply State.rndCmd_keeps
    | with_reducible apply Keeps.out

theorem execRindLinkLost_keeps {s0 s : State} (h : Keeps s0 s)  : Keeps.Out s0 (execRindLinkLost s) := by
  unfold execRindLinkLost
  repeat' first
    | with_reducible assumption
    | with_reducible first | apply State.rindLost_keeps
    | with_reducible apply Keeps.out

theorem execRindFaultClear_keeps {s0 s : State} (h : Keeps s0 s) (ag : Agent) : Keeps.Out s0 (execRindFaultClear ag s) := by
  unfold execRindFaultClear
  repeat' first
    | refine fun x => ?_
    | with_reducible assumption
    | with_reducible first | apply State.regWrite_keeps | apply State.setRb_keeps
    | with_reducible apply Keeps.out
    | split

theorem execVfldLost_keeps {s0 s : State} (h : Keeps s0 s)  : Keeps.Out s0 (execVfldLost s) := by
  unfold execVfldLost
  repeat' first
    | with_reducible assumption
    | with_reducible first | apply State.vfldLost_keeps
    | with_reducible apply Keeps.out

theorem execVfldBack_keeps {s0 s : State} (h : Keeps s0 s)  : Keeps.Out s0 (execVfldBack s) := by
  unfold execVfldBack
  repeat' first
    | with_reducible assumption
    | with_reducible first | apply State.vfldBack_keeps
    | with_reducible apply Keeps.out

end Sys2Proof.Machine
end

