-- ==== Sys2Proof/Laws/KeepsKeep.lean ====
section
/-! SUPPORT. `Keeps` of the operations and meanings of Machine/Keep.lean. -/

-- one declaration at a time: many at once take a thread and its stack each
set_option Elab.async false

set_option linter.all false

namespace Sys2Proof.Machine

open State

theorem State.keepDeny_keeps {s0 s : State} (h : Keeps s0 s) (page : Nat) (cls : Nat) : Keeps s0 (keepDeny s page cls) := by
  unfold keepDeny
  repeat' first
    | with_reducible assumption
    | with_reducible first | apply State.bump_keeps | apply State.raise_keeps
    | with_reducible apply Keeps.ite
    | ((conv in (State.mk ..) => skip); with_reducible apply Keeps.mkUpd)

theorem State.keepGroup_keeps {s0 s : State} (h : Keeps s0 s) (page : Nat) (g : Nat) : Keeps s0 (keepGroup s page g).2 := by
  unfold keepGroup
  repeat' first
    | with_reducible assumption
    | with_reducible first | apply State.raise_keeps | apply State.bump_keeps | apply State.ueRecord_keeps | apply State.setReg_keeps
    | ((try lift_lets); intro x; refine Keeps.cut (s := s0) (x := x) ?_ ?_; unfold x; rotate_left; intro hx; clear_value x; rotate_right)
    | ((try lift_lets); intro x; clear_value x)
    | split
    | ((conv in (State.mk ..) => skip); with_reducible apply Keeps.mkUpd)

theorem State.keepRead_keeps {s0 s : State} (h : Keeps s0 s) (page : Nat) : Keeps s0 (keepRead s page).2 := by
  unfold keepRead
  suffices ∀ (l : List Nat) (a : List Byte × State), Keeps s0 a.2 →
      Keeps s0 (l.foldl (fun (a : List Byte × State) g => let r := a.2.keepGroup page g; (a.1 ++ r.1, r.2)) a).2 from this _ _ h
  intro l
  induction l with
  | nil => intro a ha; exact ha
  | cons g l ih => intro a ha; exact ih _ (keepGroup_keeps ha _ _)

theorem State.keepStore_keeps {s0 s : State} (h : Keeps s0 s) (page : Nat) (bs : List Byte) : Keeps s0 (keepStore s page bs) := by
  unfold keepStore
  repeat' first
    | with_reducible assumption
    | with_reducible first | apply State.wrBytes_keeps
    | ((conv in (State.mk ..) => skip); with_reducible apply Keeps.mkUpd)

theorem State.keepSpare_keeps {s0 s : State} (h : Keeps s0 s) (page : Nat) : Keeps s0 (keepSpare s page) := by
  unfold keepSpare
  repeat' first
    | with_reducible assumption
    | with_reducible first | apply State.raise_keeps
    | with_reducible apply Keeps.ite
    | ((conv in (State.mk ..) => skip); with_reducible apply Keeps.mkUpd)

theorem State.keepJournal_keeps {s0 s : State} (h : Keeps s0 s) (page : Nat) (bs : List Byte) (vf : Nat) : Keeps s0 (keepJournal s page bs vf).2 := by
  unfold keepJournal
  dsimp only
  split
  · split
    · repeat' first
    | with_reducible assumption
    | with_reducible first | apply State.bump_keeps | apply State.keepSpare_keeps | apply State.keepStore_keeps | apply State.raise_keeps
    | split
    | ((conv in (State.mk ..) => skip); with_reducible apply Keeps.mkUpd)
    · repeat' first
    | with_reducible assumption
    | with_reducible first | apply State.bump_keeps | apply State.keepSpare_keeps | apply State.keepStore_keeps | apply State.raise_keeps
    | split
    | ((conv in (State.mk ..) => skip); with_reducible apply Keeps.mkUpd)
  · repeat' first
    | with_reducible assumption
    | with_reducible first | apply State.bump_keeps | apply State.keepSpare_keeps | apply State.keepStore_keeps | apply State.raise_keeps
    | split
    | ((conv in (State.mk ..) => skip); with_reducible apply Keeps.mkUpd)

theorem State.pipPut_keeps {s0 s : State} (h : Keeps s0 s) (page : Nat) (i : Nat) (gen : Nat) (val : Nat) : Keeps s0 (pipPut s page i gen val) := by
  unfold pipPut
  repeat' first
    | with_reducible assumption
    | with_reducible first | apply State.wrLE_keeps
    | ((conv in (State.mk ..) => skip); with_reducible apply Keeps.mkUpd)

theorem State.pipFill_keeps {s0 s : State} (h : Keeps s0 s) (page : Nat) (n : Nat) (gen : Nat) (val : Nat) : Keeps s0 (pipFill s page n gen val) := by
  unfold pipFill
  repeat' first
    | refine fun x => ?_
    | with_reducible assumption
    | with_reducible first | apply State.pipPut_keeps
    | with_reducible refine Keeps.foldl ?_ ?_

theorem State.pipBase_keeps {s0 s : State} (h : Keeps s0 s) (page : Nat) : Keeps s0 (pipBase s page).2 := by
  unfold pipBase
  repeat' first
    | with_reducible assumption
    | with_reducible first | apply State.free_keeps
    | split

theorem State.keepStat_keeps {s0 s : State} (h : Keeps s0 s) (b : Nat) (st : Nat) (reason : Nat) (page : Nat) : Keeps s0 (keepStat s b st reason page) := by
  unfold keepStat
  repeat' first
    | with_reducible assumption
    | with_reducible first | apply State.setReg_keeps | apply setReg_keeps
    | with_reducible apply Keeps.ite
    | split
    | ((conv in (State.mk ..) => skip); with_reducible apply Keeps.mkUpd)

theorem State.keepUse_keeps {s0 s : State} (h : Keeps s0 s) (ag : Agent) : Keeps s0 (keepUse s ag) := by
  unfold keepUse
  repeat' first
    | refine fun x => ?_
    | with_reducible assumption
    | with_reducible first | apply State.free_keeps | apply free_keeps | apply State.setReg_keeps | apply setReg_keeps | apply State.freeBytes_keeps | apply freeBytes_keeps | apply exec_keeps
    | with_reducible apply Keeps.ite
    | with_reducible refine Keeps.foldl ?_ ?_
    | split
    | ((conv in (State.mk ..) => skip); with_reducible apply Keeps.mkUpd)

theorem State.keepFail_keeps {s0 s : State} (h : Keeps s0 s) (c : KCmd) (reason : Nat) : Keeps s0 (keepFail s c reason) := by
  unfold keepFail
  repeat' first
    | with_reducible assumption
    | with_reducible first | apply State.keepDeny_keeps | apply State.raise_keeps | apply State.keepStat_keeps
    | split

theorem State.keepPw_keeps {s0 s : State} (h : Keeps s0 s) (c : KCmd) : Keeps s0 (keepPw s c).2 := by
  unfold keepPw
  repeat' first
    | with_reducible assumption
    | with_reducible first | apply State.free_keeps
    | ((try lift_lets); intro x; refine Keeps.cut (s := s0) (x := x.2) ?_ ?_; unfold x; rotate_left; intro hx; clear_value x; rotate_right)
    | ((try lift_lets); intro x; clear_value x)
    | split

theorem State.keepFails_keeps {s0 s : State} (h : Keeps s0 s) (w : Bool) (n : Nat) : Keeps s0 (keepFails s w n) := by
  unfold keepFails
  repeat' first
    | with_reducible assumption
    | ((conv in (State.mk ..) => skip); with_reducible apply Keeps.mkUpd)

theorem State.keepOpen_keeps {s0 s : State} (h : Keeps s0 s) (w : Bool) (b : Nat) : Keeps s0 (keepOpen s w b) := by
  unfold keepOpen
  repeat' first
    | with_reducible assumption
    | ((conv in (State.mk ..) => skip); with_reducible apply Keeps.mkUpd)

theorem State.keepUnlock_keeps {s0 s : State} (h : Keeps s0 s) (c : KCmd) (w : Bool) : Keeps s0 (keepUnlock s c w) := by
  unfold keepUnlock
  repeat' first
    | with_reducible assumption
    | with_reducible first | apply State.keepFail_keeps | apply State.keepPw_keeps | apply State.keepStat_keeps | apply State.keepOpen_keeps | apply State.keepFails_keeps | apply State.raise_keeps
    | with_reducible apply Keeps.ite

theorem State.keepLock_keeps {s0 s : State} (h : Keeps s0 s) (c : KCmd) : Keeps s0 (keepLock s c) := by
  unfold keepLock
  repeat' first
    | with_reducible assumption
    | with_reducible first | apply State.keepStat_keeps
    | ((conv in (State.mk ..) => skip); with_reducible apply Keeps.mkUpd)

theorem State.keepIssue_keeps {s0 s : State} (h : Keeps s0 s) (b : Nat) (op : Nat) (page : Nat) : Keeps s0 (keepIssue s b op page) := by
  unfold keepIssue
  repeat' first
    | with_reducible assumption
    | with_reducible first | apply State.wign_keeps | apply State.free_keeps | apply State.setReg_keeps | apply State.keepFail_keeps | apply State.keepUnlock_keeps | apply State.keepLock_keeps | apply State.keepStat_keeps
    | with_reducible apply Keeps.ite
    | ((conv in (State.mk ..) => skip); with_reducible apply Keeps.mkUpd)

theorem State.keepCmdWrite_keeps {s0 s : State} (h : Keeps s0 s) (ag : Agent) (v : Word) : Keeps s0 (keepCmdWrite s ag v) := by
  unfold keepCmdWrite
  repeat' first
    | with_reducible assumption
    | with_reducible first | apply State.free_keeps | apply State.keepIssue_keeps
    | split

theorem State.keepStart_keeps {s0 s : State} (h : Keeps s0 s)  : Keeps s0 (keepStart s) := by
  unfold keepStart
  repeat' first
    | with_reducible assumption
    | with_reducible first | apply State.keepStat_keeps
    | split
    | ((conv in (State.mk ..) => skip); with_reducible apply Keeps.mkUpd)

theorem State.keepWritten_keeps {s0 : State} (c : KCmd) (r : Bool × State) (h : Keeps s0 r.2) (k : State → State) (hk : ∀ x, Keeps s0 x → Keeps s0 (k x)) : Keeps s0 (keepWritten c r k) := by
  unfold keepWritten
  exact Keeps.ite (raise_keeps (keepStat_keeps (hk _ h) ..) _ _) (keepFail_keeps h _ _)

theorem State.keepProt_keeps {s0 s : State} (h : Keeps s0 s) (c : KCmd) (vf : Nat) (k : State → State) (hf3 : ∀ x0, Keeps s0 x0 → Keeps s0 (k x0)) : Keeps s0 (keepProt s c vf k) := by
  unfold keepProt
  exact keepWritten_keeps _ _ (keepJournal_keeps h _ _ _) _ hf3

theorem State.keepFinish_keeps {s0 s : State} (h : Keeps s0 s) (c : KCmd) (vf : Nat) : Keeps s0 (keepFinish s c vf) := by
  have put : ∀ (u : State) (k : Keep), Keeps s0 u → Keeps s0 { u with keep := k } := fun u k hu => Keeps.mkUpd hu ..
  unfold keepFinish
  dsimp only
  refine Keeps.ite (keepStat_keeps (Keeps.foldl (keepRead_keeps h _) fun t b ht => setReg_keeps ht _ _) ..) ?_
  refine Keeps.ite (keepWritten_keeps _ _ (keepJournal_keeps h _ _ _) _ fun _ hx => hx) ?_
  refine Keeps.ite (Keeps.ite (keepFail_keeps (pipBase_keeps (keepRead_keeps h _) _) _ _) (keepStat_keeps (pipPut_keeps (pipBase_keeps (keepRead_keeps h _) _) ..) ..)) ?_
  refine Keeps.ite ?_ ?_
  · split
    · exact keepStat_keeps (setReg_keeps (keepRead_keeps h _) _ _) ..
    · exact keepStat_keeps (setReg_keeps (keepRead_keeps h _) _ _) ..
  refine Keeps.ite (keepStat_keeps (pipFill_keeps (pipBase_keeps (keepRead_keeps h _) _) ..) ..) ?_
  refine Keeps.ite (keepProt_keeps (keepPw_keeps h _) _ _ _ fun _ hx => put _ _ hx) ?_
  exact Keeps.ite (keepProt_keeps (keepPw_keeps h _) _ _ _ fun _ hx => put _ _ hx) (keepProt_keeps h _ _ _ fun _ hx => put _ _ hx)

theorem State.keepComplete_keeps {s0 s : State} (h : Keeps s0 s) (vf : Nat) : Keeps s0 (keepComplete s vf) := by
  unfold keepComplete
  repeat' first
    | with_reducible assumption
    | with_reducible first | apply State.keepFinish_keeps
    | split
    | ((conv in (State.mk ..) => skip); with_reducible apply Keeps.mkUpd)

theorem State.keepRewrite_keeps {s0 s : State} (h : Keeps s0 s) (page : Nat) (vf : Nat) : Keeps s0 (keepRewrite s page vf) := by
  unfold keepRewrite
  repeat' first
    | with_reducible assumption
    | with_reducible first | apply State.keepJournal_keeps
    | split
    | ((conv in (State.mk ..) => skip); with_reducible apply Keeps.mkUpd)

theorem State.keepTorn_keeps {s0 s : State} (h : Keeps s0 s) (c : KCmd) : Keeps s0 (keepTorn s c).2 := by
  have hf := free_keeps h
  have he : ∀ (u : State) (e : List (Nat × Nat)), Keeps s0 u → Keeps s0 { u with ecc := e } := fun u k hu => Keeps.mkUpd hu ..
  have hk : ∀ u v : State, Keeps s0 u → Keeps s0 v → Keeps s0 { v with regs := u.regs, evt := u.evt } :=
    fun u v hu hv => ⟨hv.pending, hv.now, hv.mem, hu.regs, hv.free, hv.wire⟩
  unfold keepTorn
  generalize s.free = f at hf ⊢
  obtain ⟨f, u⟩ := f
  lift_lets
  intro a u' n
  have hu : Keeps s0 u' := hf
  clear_value u' n
  split
  · show Keeps s0 (if _ then _ else _)
    exact Keeps.ite (hk _ _ hu (keepFinish_keeps hu _ _)) hu
  split
  · intro b i
    exact Keeps.ite (pipBase_keeps hu _) (Keeps.ite (pipPut_keeps (pipBase_keeps hu _) ..) (he _ _ (pipBase_keeps hu _)))
  split
  · intro b k v
    exact Keeps.ite (he _ _ (pipFill_keeps (pipBase_keeps hu _) ..)) (pipFill_keeps (pipBase_keeps hu _) ..)
  exact hu

theorem State.keepRecover_keeps {s0 s : State} (h : Keeps s0 s)  : Keeps s0 (keepRecover s) := by
  unfold keepRecover
  repeat' first
    | with_reducible assumption
    | with_reducible first | apply State.keepTorn_keeps | apply State.setReg_keeps | apply State.setRf_keeps
    | with_reducible apply Keeps.ite
    | ((try lift_lets); intro x; refine Keeps.cut (s := s0) (x := x) ?_ ?_; unfold x; rotate_left; intro hx; clear_value x; rotate_right)
    | ((try lift_lets); intro x; clear_value x)
    | split
    | ((conv in (State.mk ..) => skip); with_reducible apply Keeps.mkUpd)

theorem State.keepWindow_keeps {s0 s : State} (h : Keeps s0 s) (a : Nat) (cls : Nat) (b : Nat) : Keeps s0 (keepWindow s a cls b).2 := by
  unfold keepWindow
  exact Keeps.ite2 (keepDeny_keeps h _ _) (Keeps.ite2 h (keepGroup_keeps h _ _))

theorem keepOp_keeps {s0 s : State} (h : Keeps s0 s) (ag : Agent) (op : Nat) (page : Nat) : Keeps.Out s0 (keepOp ag op page s) := by
  unfold keepOp
  repeat' first
    | refine fun x => ?_
    | with_reducible assumption
    | with_reducible first | apply State.regWrite_keeps | apply State.keepUse_keeps | apply State.keepIssue_keeps
    | with_reducible apply Keeps.out
    | with_reducible apply Keeps.ite
    | with_reducible apply Keeps.outIte
    | split
    | ((conv in (State.mk ..) => skip); with_reducible apply Keeps.mkUpd)

theorem execKeepLoad_keeps {s0 s : State} (h : Keeps s0 s) (ag : Agent) (page : BitVec 15) : Keeps.Out s0 (execKeepLoad ag page s) := by
  unfold execKeepLoad
  repeat' first
    | with_reducible assumption
    | with_reducible first | apply keepOp_keeps
    | with_reducible apply Keeps.out

theorem execKeepCommit_keeps {s0 s : State} (h : Keeps s0 s) (ag : Agent) (page : BitVec 15) : Keeps.Out s0 (execKeepCommit ag page s) := by
  unfold execKeepCommit
  repeat' first
    | with_reducible assumption
    | with_reducible first | apply keepOp_keeps
    | with_reducible apply Keeps.out

theorem execPipinc_keeps {s0 s : State} (h : Keeps s0 s) (ag : Agent) (page : BitVec 15) : Keeps.Out s0 (execPipinc ag page s) := by
  unfold execPipinc
  repeat' first
    | with_reducible assumption
    | with_reducible first | apply keepOp_keeps
    | with_reducible apply Keeps.out

theorem execPipread_keeps {s0 s : State} (h : Keeps s0 s) (ag : Agent) (page : BitVec 15) : Keeps.Out s0 (execPipread ag page s) := by
  unfold execPipread
  repeat' first
    | with_reducible assumption
    | with_reducible first | apply keepOp_keeps
    | with_reducible apply Keeps.out

theorem execPipinit_keeps {s0 s : State} (h : Keeps s0 s) (ag : Agent) (page : BitVec 15) : Keeps.Out s0 (execPipinit ag page s) := by
  unfold execPipinit
  repeat' first
    | with_reducible assumption
    | with_reducible first | apply keepOp_keeps
    | with_reducible apply Keeps.out

theorem execUnlockRd_keeps {s0 s : State} (h : Keeps s0 s) (ag : Agent) : Keeps.Out s0 (execUnlockRd ag s) := by
  unfold execUnlockRd
  repeat' first
    | with_reducible assumption
    | with_reducible first | apply keepOp_keeps
    | with_reducible apply Keeps.out

theorem execUnlockWr_keeps {s0 s : State} (h : Keeps s0 s) (ag : Agent) : Keeps.Out s0 (execUnlockWr ag s) := by
  unfold execUnlockWr
  repeat' first
    | with_reducible assumption
    | with_reducible first | apply keepOp_keeps
    | with_reducible apply Keeps.out

theorem execKeepLock_keeps {s0 s : State} (h : Keeps s0 s) (ag : Agent) : Keeps.Out s0 (execKeepLock ag s) := by
  unfold execKeepLock
  repeat' first
    | with_reducible assumption
    | with_reducible first | apply keepOp_keeps
    | with_reducible apply Keeps.out

theorem execSetpwRd_keeps {s0 s : State} (h : Keeps s0 s) (ag : Agent) : Keeps.Out s0 (execSetpwRd ag s) := by
  unfold execSetpwRd
  repeat' first
    | with_reducible assumption
    | with_reducible first | apply keepOp_keeps
    | with_reducible apply Keeps.out

theorem execSetpwWr_keeps {s0 s : State} (h : Keeps s0 s) (ag : Agent) : Keeps.Out s0 (execSetpwWr ag s) := by
  unfold execSetpwWr
  repeat' first
    | with_reducible assumption
    | with_reducible first | apply keepOp_keeps
    | with_reducible apply Keeps.out

theorem execSetbp_keeps {s0 s : State} (h : Keeps s0 s) (ag : Agent) : Keeps.Out s0 (execSetbp ag s) := by
  unfold execSetbp
  repeat' first
    | with_reducible assumption
    | with_reducible first | apply keepOp_keeps
    | with_reducible apply Keeps.out

theorem execKeepCmdExecute_keeps {s0 s : State} (h : Keeps s0 s)  : Keeps.Out s0 (execKeepCmdExecute s) := by
  unfold execKeepCmdExecute
  repeat' first
    | with_reducible assumption
    | with_reducible first | apply State.keepStart_keeps
    | with_reducible apply Keeps.out

theorem execCommitDone_keeps {s0 s : State} (h : Keeps s0 s) (vf : Fin 3) : Keeps.Out s0 (execCommitDone vf s) := by
  unfold execCommitDone
  repeat' first
    | with_reducible assumption
    | with_reducible first | apply State.keepComplete_keeps
    | with_reducible apply Keeps.out

theorem execKeepBackgroundWrite_keeps {s0 s : State} (h : Keeps s0 s) (page : BitVec 15) (vf : Fin 3) : Keeps.Out s0 (execKeepBackgroundWrite page vf s) := by
  unfold execKeepBackgroundWrite
  repeat' first
    | with_reducible assumption
    | with_reducible first | apply State.keepRewrite_keeps
    | with_reducible apply Keeps.out

end Sys2Proof.Machine
end

