-- ==== Sys2Proof/Laws/KeepsReset.lean ====
section
/-! SUPPORT. `Keeps` of the operations and meanings of Machine/Reset.lean. -/

-- one declaration at a time: many at once take a thread and its stack each
set_option Elab.async false

set_option linter.all false

namespace Sys2Proof.Machine

open State

theorem State.afterReset_keeps {s0 s : State} (h : Keeps s0 s) (cold : Bool) : Keeps s0 (afterReset s cold) := by
  unfold afterReset
  refine syncHeld_keeps (setFn_keeps ?_ _ _) _
  exact h.trans ⟨rfl, rfl, fun w => Sparse.wf_filter w _, fun w => Sparse.wf_filter w _, Nat.le_refl _, List.prefix_rfl⟩

theorem State.beginReset_keeps {s0 s : State} (h : Keeps s0 s) (cold : Bool) (bit : Nat) : Keeps s0 (beginReset s cold bit) := by
  unfold beginReset
  repeat' first
    | with_reducible assumption
    | with_reducible first | apply State.setRb_keeps | apply State.afterReset_keeps | apply State.raise_keeps | apply State.setReg_keeps | apply setReg_keeps
    | with_reducible apply Keeps.ite
    | split
    | ((conv in (State.mk ..) => skip); with_reducible apply Keeps.mkUpd)

theorem State.sysReset_keeps {s0 s : State} (h : Keeps s0 s) (v : Word) : Keeps s0 (sysReset s v) := by
  unfold sysReset
  repeat' first
    | with_reducible assumption
    | with_reducible first | apply State.free_keeps | apply State.beginReset_keeps | apply State.wign_keeps
    | with_reducible apply Keeps.ite

theorem execMainSupplyFail_keeps {s0 s : State} (h : Keeps s0 s) (vbat : Bool) : Keeps.Out s0 (execMainSupplyFail vbat s) := by
  unfold execMainSupplyFail
  repeat' first
    | refine fun x => ?_
    | with_reducible assumption
    | with_reducible first | apply State.domForce_keeps | apply State.setReg_keeps | apply State.setRb_keeps
    | with_reducible apply Keeps.out
    | with_reducible refine Keeps.foldl ?_ ?_
    | split
    | ((conv in (State.mk ..) => skip); with_reducible apply Keeps.mkUpd)

theorem execPowerOn_keeps {s0 s : State} (h : Keeps s0 s) (vbatKept : Bool) : Keeps.Out s0 (execPowerOn vbatKept s) := by
  have hpd : ∀ u v : State, Keeps s0 u → Keeps s0 { u with regs := pd0Fresh u.regs, rtc := v.rtc } := fun u v hu =>
    hu.trans ⟨rfl, rfl, id, fun w => Sparse.wf_filter w _, Nat.le_refl _, List.prefix_rfl⟩
  unfold execPowerOn
  dsimp only
  split
  · exact Keeps.out h
  · split
    · repeat' first
    | with_reducible assumption
    | with_reducible first | apply State.setRb_keeps | apply State.beginReset_keeps | apply State.afterReset_keeps | apply State.rtcZero_keeps
    | with_reducible apply Keeps.out
    | ((conv in (State.mk ..) => skip); with_reducible apply Keeps.mkUpd)
    · exact Keeps.out (rtcZero_keeps (hpd _ { s with rtc := {} } (afterReset_keeps (Keeps.mkUpd h ..) true)))

theorem execRstNLow_keeps {s0 s : State} (h : Keeps s0 s) (ns : Nat) : Keeps.Out s0 (execRstNLow ns s) := by
  unfold execRstNLow
  repeat' first
    | with_reducible assumption
    | with_reducible first | apply State.beginReset_keeps | apply State.free_keeps
    | with_reducible apply Keeps.out
    | split

theorem execSysReset_keeps {s0 s : State} (h : Keeps s0 s) (ag : Agent) (v : Word) : Keeps.Out s0 (execSysReset ag v s) := by
  unfold execSysReset
  repeat' first
    | refine fun x => ?_
    | with_reducible assumption
    | with_reducible first | apply State.regWrite_keeps | apply State.sysReset_keeps
    | with_reducible apply Keeps.out

theorem execCmdReset_keeps {s0 s : State} (h : Keeps s0 s) (r : List Byte) : Keeps.Out s0 (execCmdReset r s) := by
  unfold execCmdReset
  repeat' first
    | refine fun x => ?_
    | with_reducible assumption
    | with_reducible first | apply State.cmdRx_keeps | apply State.beginReset_keeps | apply State.raise_keeps
    | with_reducible apply Keeps.out
    | split

end Sys2Proof.Machine
end

