-- ==== Sys2Proof/Laws/KeepsWdt.lean ====
section
/-! SUPPORT. `Keeps` of the operations and meanings of Machine/Wdt.lean. -/

-- one declaration at a time: many at once take a thread and its stack each
set_option Elab.async false

set_option linter.all false

namespace Sys2Proof.Machine

open State

theorem State.wdtTake_keeps {s0 s : State} (h : Keeps s0 s)  : Keeps s0 (wdtTake s) := by
  unfold wdtTake
  repeat' first
    | with_reducible assumption
    | with_reducible first | apply State.setRb_keeps | apply State.setReg_keeps

theorem State.wdtAccept_keeps {s0 s : State} (h : Keeps s0 s)  : Keeps s0 (wdtAccept s) := by
  unfold wdtAccept
  repeat' first
    | with_reducible assumption
    | with_reducible first | apply State.bump_keeps | apply State.wdtTake_keeps | apply State.setReg_keeps
    | ((try lift_lets); intro x; refine Keeps.cut (s := s0) (x := x) ?_ ?_; unfold x; rotate_left; intro hx; clear_value x; rotate_right)
    | ((try lift_lets); intro x; clear_value x)
    | split
    | ((conv in (State.mk ..) => skip); with_reducible apply Keeps.mkUpd)

theorem State.wdtExpire_keeps {s0 s : State} (h : Keeps s0 s) (cause : Nat) : Keeps s0 (wdtExpire s cause) := by
  unfold wdtExpire
  repeat' first
    | with_reducible assumption
    | with_reducible first | apply State.send_keeps | apply State.setReg_keeps | apply State.setReg64_keeps | apply State.beginReset_keeps
    | ((try lift_lets); intro x; refine Keeps.cut (s := s0) (x := x) ?_ ?_; unfold x; rotate_left; intro hx; clear_value x; rotate_right)
    | ((try lift_lets); intro x; clear_value x)
    | split
    | ((conv in (State.mk ..) => skip); with_reducible apply Keeps.mkUpd)

theorem State.wdtPeriodWrite_keeps {s0 s : State} (h : Keeps s0 s) (v : Word) : Keeps s0 (wdtPeriodWrite s v) := by
  unfold wdtPeriodWrite
  repeat' first
    | with_reducible assumption
    | with_reducible first | apply State.free_keeps | apply State.setReg_keeps | apply State.setRb_keeps | apply State.wdtAccept_keeps | apply State.wdtTake_keeps | apply State.raise_keeps
    | with_reducible apply Keeps.ite
    | split

theorem State.wdtConfigWrite_keeps {s0 s : State} (h : Keeps s0 s) (warn : Bool) (v : Word) : Keeps s0 (wdtConfigWrite s warn v) := by
  unfold wdtConfigWrite
  repeat' first
    | with_reducible assumption
    | with_reducible first | apply State.free_keeps | apply State.setReg_keeps | apply State.setRb_keeps
    | with_reducible apply Keeps.ite
    | split

theorem State.wdtService_keeps {s0 s : State} (h : Keeps s0 s) (v : Nat) : Keeps s0 (wdtService s v) := by
  unfold wdtService
  repeat' first
    | with_reducible assumption
    | with_reducible first | apply State.wign_keeps | apply State.wdtExpire_keeps | apply State.wdtAccept_keeps | apply State.raise_keeps | apply State.setReg_keeps | apply State.bump_keeps
    | with_reducible apply Keeps.ite

theorem State.wdtCheckin_keeps {s0 s : State} (h : Keeps s0 s) (v : Word) : Keeps s0 (wdtCheckin s v) := by
  unfold wdtCheckin
  repeat' first
    | with_reducible assumption
    | with_reducible first | apply State.free_keeps | apply State.setReg_keeps | apply State.raise_keeps | apply State.count_keeps
    | with_reducible apply Keeps.ite
    | split

theorem State.wdtWarn_keeps {s0 s : State} (h : Keeps s0 s)  : Keeps s0 (wdtWarn s) := by
  unfold wdtWarn
  repeat' first
    | with_reducible assumption
    | with_reducible first | apply State.raise_keeps
    | with_reducible apply Keeps.ite
    | ((conv in (State.mk ..) => skip); with_reducible apply Keeps.mkUpd)

theorem State.wdtTick_keeps {s0 s : State} (h : Keeps s0 s) (q : Nat) : Keeps s0 (wdtTick s q) := by
  unfold wdtTick
  repeat' first
    | with_reducible assumption
    | split
    | ((conv in (State.mk ..) => skip); with_reducible apply Keeps.mkUpd)

theorem execWdtPeriodCommit_keeps {s0 s : State} (h : Keeps s0 s) (ag : Agent) (v : Word) : Keeps.Out s0 (execWdtPeriodCommit ag v s) := by
  unfold execWdtPeriodCommit
  repeat' first
    | refine fun x => ?_
    | with_reducible assumption
    | with_reducible first | apply State.regWrite_keeps | apply State.wdtPeriodWrite_keeps
    | with_reducible apply Keeps.out

theorem execWdtConfigCommit_keeps {s0 s : State} (h : Keeps s0 s) (ag : Agent) (warn : Bool) (v : Word) : Keeps.Out s0 (execWdtConfigCommit ag warn v s) := by
  unfold execWdtConfigCommit
  repeat' first
    | refine fun x => ?_
    | with_reducible assumption
    | with_reducible first | apply State.regWrite_keeps | apply State.wdtConfigWrite_keeps
    | with_reducible apply Keeps.out

theorem execWdtService_keeps {s0 s : State} (h : Keeps s0 s) (ag : Agent) (v : Word) : Keeps.Out s0 (execWdtService ag v s) := by
  unfold execWdtService
  repeat' first
    | refine fun x => ?_
    | with_reducible assumption
    | with_reducible first | apply State.regWrite_keeps | apply State.wdtService_keeps
    | with_reducible apply Keeps.out

theorem execWdtCheckin_keeps {s0 s : State} (h : Keeps s0 s) (ag : Agent) (v : Word) : Keeps.Out s0 (execWdtCheckin ag v s) := by
  unfold execWdtCheckin
  repeat' first
    | refine fun x => ?_
    | with_reducible assumption
    | with_reducible first | apply State.regWrite_keeps | apply State.wdtCheckin_keeps
    | with_reducible apply Keeps.out

theorem execWdtWindowOpen_keeps {s0 s : State} (h : Keeps s0 s)  : Keeps.Out s0 (execWdtWindowOpen s) := by
  unfold execWdtWindowOpen
  repeat' first
    | with_reducible assumption
    | with_reducible apply Keeps.out
    | split
    | ((conv in (State.mk ..) => skip); with_reducible apply Keeps.mkUpd)

theorem execWarn_keeps {s0 s : State} (h : Keeps s0 s)  : Keeps.Out s0 (execWarn s) := by
  unfold execWarn
  repeat' first
    | with_reducible assumption
    | with_reducible first | apply State.wdtWarn_keeps
    | with_reducible apply Keeps.out

theorem execWdtExpiry_keeps {s0 s : State} (h : Keeps s0 s)  : Keeps.Out s0 (execWdtExpiry s) := by
  unfold execWdtExpiry
  repeat' first
    | with_reducible assumption
    | with_reducible first | apply State.wdtExpire_keeps
    | with_reducible apply Keeps.out
    | split

theorem execWdpulseEnd_keeps {s0 s : State} (h : Keeps s0 s)  : Keeps.Out s0 (execWdpulseEnd s) := by
  unfold execWdpulseEnd
  repeat' first
    | with_reducible assumption
    | with_reducible first | apply State.send_keeps
    | with_reducible apply Keeps.out
    | ((try lift_lets); intro x; refine Keeps.cut (s := s0) (x := x) ?_ ?_; unfold x; rotate_left; intro hx; clear_value x; rotate_right)
    | ((try lift_lets); intro x; clear_value x)
    | split
    | ((conv in (State.mk ..) => skip); with_reducible apply Keeps.mkUpd)

end Sys2Proof.Machine
end

