-- ==== Sys2Proof/Laws/KeepsHostIf.lean ====
section
/-! SUPPORT. `Keeps` of the operations and meanings of Machine/HostIf.lean. -/

-- one declaration at a time: many at once take a thread and its stack each
set_option Elab.async false

set_option linter.all false

namespace Sys2Proof.Machine

open State

theorem State.msixSend_keeps {s0 s : State} (h : Keeps s0 s) (v : Nat) : Keeps s0 (msixSend s v) := by
  unfold msixSend
  repeat' first
    | with_reducible assumption
    | with_reducible first | apply State.free_keeps | apply State.send_keeps
    | split
    | ((conv in (State.mk ..) => skip); with_reducible apply Keeps.mkUpd)

theorem State.pcieReset_keeps {s0 s : State} (h : Keeps s0 s)  : Keeps s0 (pcieReset s) := by
  unfold pcieReset
  repeat' first
    | with_reducible assumption
    | with_reducible first | apply State.setReg_keeps | apply State.clearMem_keeps | apply State.setRb_keeps
    | ((try lift_lets); intro x; refine Keeps.cut (s := s0) (x := x) ?_ ?_; unfold x; rotate_left; intro hx; clear_value x; rotate_right)
    | ((try lift_lets); intro x; clear_value x)
    | ((conv in (State.mk ..) => skip); with_reducible apply Keeps.mkUpd)

theorem State.mbxSet_keeps {s0 s : State} (h : Keeps s0 s) (k : Nat) (e : Nat) (v : Half) : Keeps s0 (mbxSet s k e v) := by
  unfold mbxSet
  repeat' first
    | refine fun x => ?_
    | with_reducible assumption
    | with_reducible first | apply State.wign_keeps | apply State.raise_keeps | apply State.setRb_keeps
    | with_reducible refine Keeps.foldl ?_ ?_
    | split

theorem State.mbxClear_keeps {s0 s : State} (h : Keeps s0 s) (k : Nat) (v : Half) : Keeps s0 (mbxClear s k v) := by
  unfold mbxClear
  repeat' first
    | with_reducible assumption
    | with_reducible first | apply State.setReg_keeps

theorem State.mbxWrite_keeps {s0 s : State} (h : Keeps s0 s) (ag : Agent) (h2d : Bool) (v : Word) : Keeps s0 (mbxWrite s ag h2d v) := by
  unfold mbxWrite
  repeat' first
    | with_reducible assumption
    | with_reducible first | apply State.free_keeps | apply State.mbxSet_keeps | apply State.mbxClear_keeps
    | with_reducible apply Keeps.ite
    | split

theorem execMsixMessage_keeps {s0 s : State} (h : Keeps s0 s) (vec : BitVec 5) : Keeps.Out s0 (execMsixMessage vec s) := by
  unfold execMsixMessage
  repeat' first
    | with_reducible assumption
    | with_reducible first | apply State.msixSend_keeps
    | with_reducible apply Keeps.out

theorem execFlr_keeps {s0 s : State} (h : Keeps s0 s)  : Keeps.Out s0 (execFlr s) := by
  unfold execFlr
  repeat' first
    | with_reducible assumption
    | with_reducible first | apply State.bump_keeps | apply State.setRb_keeps | apply State.pcieReset_keeps
    | with_reducible apply Keeps.out
    | split

theorem execPerst_keeps {s0 s : State} (h : Keeps s0 s)  : Keeps.Out s0 (execPerst s) := by
  unfold execPerst
  repeat' first
    | with_reducible assumption
    | with_reducible first | apply State.pcieReset_keeps
    | with_reducible apply Keeps.out
    | split

theorem execFlrDone_keeps {s0 s : State} (h : Keeps s0 s)  : Keeps.Out s0 (execFlrDone s) := by
  unfold execFlrDone
  repeat' first
    | with_reducible assumption
    | with_reducible first | apply State.raiseFree_keeps | apply State.setRb_keeps
    | with_reducible apply Keeps.out
    | split

theorem execPcieLinkUp_keeps {s0 s : State} (h : Keeps s0 s) (speed : BitVec 2) (width : BitVec 2) : Keeps.Out s0 (execPcieLinkUp speed width s) := by
  unfold execPcieLinkUp
  repeat' first
    | with_reducible assumption
    | with_reducible first | apply State.setRb_keeps | apply State.setRf_keeps | apply State.raise_keeps
    | with_reducible apply Keeps.out
    | split

theorem execPcieLinkDown_keeps {s0 s : State} (h : Keeps s0 s)  : Keeps.Out s0 (execPcieLinkDown s) := by
  unfold execPcieLinkDown
  repeat' first
    | with_reducible assumption
    | with_reducible first | apply State.raiseFree_keeps | apply State.setRb_keeps | apply State.setRf_keeps
    | with_reducible apply Keeps.out
    | split

theorem execAerUe_keeps {s0 s : State} (h : Keeps s0 s)  : Keeps.Out s0 (execAerUe s) := by
  unfold execAerUe
  repeat' first
    | with_reducible assumption
    | with_reducible first | apply State.raiseFree_keeps | apply State.bump_keeps
    | with_reducible apply Keeps.out
    | split

theorem execAerCe_keeps {s0 s : State} (h : Keeps s0 s)  : Keeps.Out s0 (execAerCe s) := by
  unfold execAerCe
  repeat' first
    | with_reducible assumption
    | with_reducible first | apply State.raiseFree_keeps | apply State.bump_keeps
    | with_reducible apply Keeps.out
    | split

theorem execMbxH2dSet_keeps {s0 s : State} (h : Keeps s0 s) (v : Half) : Keeps.Out s0 (execMbxH2dSet v s) := by
  unfold execMbxH2dSet
  repeat' first
    | refine fun x => ?_
    | with_reducible assumption
    | with_reducible first | apply State.regWrite_keeps | apply State.mbxSet_keeps
    | with_reducible apply Keeps.out

theorem execMbxH2dClear_keeps {s0 s : State} (h : Keeps s0 s) (ag : Agent) (v : Half) : Keeps.Out s0 (execMbxH2dClear ag v s) := by
  unfold execMbxH2dClear
  repeat' first
    | refine fun x => ?_
    | with_reducible assumption
    | with_reducible first | apply State.regWrite_keeps | apply State.mbxWrite_keeps
    | with_reducible apply Keeps.out

theorem execMbxD2hSet_keeps {s0 s : State} (h : Keeps s0 s) (ag : Agent) (v : Half) : Keeps.Out s0 (execMbxD2hSet ag v s) := by
  unfold execMbxD2hSet
  repeat' first
    | refine fun x => ?_
    | with_reducible assumption
    | with_reducible first | apply State.regWrite_keeps | apply State.mbxWrite_keeps
    | with_reducible apply Keeps.out

theorem execMbxD2hClear_keeps {s0 s : State} (h : Keeps s0 s) (v : Half) : Keeps.Out s0 (execMbxD2hClear v s) := by
  unfold execMbxD2hClear
  repeat' first
    | refine fun x => ?_
    | with_reducible assumption
    | with_reducible first | apply State.regWrite_keeps | apply State.mbxClear_keeps
    | with_reducible apply Keeps.out

end Sys2Proof.Machine
end

