-- ==== Sys2Proof/Laws/KeepsUpdate.lean ====
section
/-! SUPPORT. `Keeps` of the operations and meanings of Machine/Update.lean. -/

-- one declaration at a time: many at once take a thread and its stack each
set_option Elab.async false

set_option linter.all false

namespace Sys2Proof.Machine

open State

theorem State.flashErase_keeps {s0 s : State} (h : Keeps s0 s) (a : Nat) (n : Nat) : Keeps s0 (flashErase s a n) := by
  unfold flashErase
  repeat' first
    | with_reducible assumption
    | with_reducible first | apply State.wrBytes_keeps

theorem State.flashProgram_keeps {s0 s : State} (h : Keeps s0 s) (a : Nat) (y2 : List Byte) : Keeps s0 (flashProgram s a y2).2 := by
  induction y2 generalizing s a with
  | nil => exact h
  | cons b t ih =>
    unfold flashProgram
    exact Keeps.ite2 (ih (wr_keeps h _ _) _) (wr_keeps h _ _)

theorem State.blow_keeps {s0 s : State} (h : Keeps s0 s) (op : Nat) (i : Nat) : Keeps s0 (blow s op i) := by
  unfold blow
  repeat' first
    | with_reducible assumption
    | with_reducible first | apply State.setRb_keeps
    | split

theorem State.fusCmd_keeps {s0 s : State} (h : Keeps s0 s) (v : Word) : Keeps s0 (fusCmd s v) := by
  unfold fusCmd
  repeat' first
    | with_reducible assumption
    | with_reducible first | apply State.free_keeps | apply State.setRb_keeps
    | with_reducible apply Keeps.ite
    | ((try lift_lets); intro x; refine Keeps.cut (s := s0) (x := x) ?_ ?_; unfold x; rotate_left; intro hx; clear_value x; rotate_right)
    | ((try lift_lets); intro x; clear_value x)
    | split
    | ((conv in (State.mk ..) => skip); with_reducible apply Keeps.mkUpd)

theorem State.fusDone_keeps {s0 s : State} (h : Keeps s0 s) (ok : Bool) : Keeps s0 (fusDone s ok) := by
  unfold fusDone
  repeat' first
    | with_reducible assumption
    | with_reducible first | apply State.setRb_keeps | apply State.blow_keeps | apply State.free_keeps
    | split
    | ((conv in (State.mk ..) => skip); with_reducible apply Keeps.mkUpd)

theorem State.stoneCommit_keeps {s0 s : State} (h : Keeps s0 s) (page : Nat) (b : List Byte) : Keeps s0 (stoneCommit s page b) := by
  unfold stoneCommit
  repeat' first
    | with_reducible assumption
    | with_reducible first | apply State.keepJournal_keeps | apply State.raise_keeps
    | with_reducible apply Keeps.ite
    | split
    | ((conv in (State.mk ..) => skip); with_reducible apply Keeps.mkUpd)

theorem State.putSess_keeps {s0 s : State} (h : Keeps s0 s) (r : Sess) : Keeps s0 (putSess s r) := by
  unfold putSess
  repeat' first
    | with_reducible assumption
    | with_reducible first | apply State.stoneCommit_keeps
    | with_reducible apply Keeps.ite
    | split
    | ((conv in (State.mk ..) => skip); with_reducible apply Keeps.mkUpd)

theorem State.putBitmap_keeps {s0 s : State} (h : Keeps s0 s) (b : List Byte) : Keeps s0 (putBitmap s b) := by
  unfold putBitmap
  repeat' first
    | with_reducible assumption
    | with_reducible first | apply State.stoneCommit_keeps
    | with_reducible apply Keeps.ite
    | split
    | ((conv in (State.mk ..) => skip); with_reducible apply Keeps.mkUpd)

theorem State.updOpen_keeps {s0 s : State} (h : Keeps s0 s) (src : Nat) (h : List Byte) (ok : Bool) : Keeps s0 (updOpen s src h ok).2 := by
  unfold updOpen
  repeat' first
    | with_reducible assumption
    | with_reducible first | apply State.putSess_keeps | apply State.flashErase_keeps | apply State.flashProgram_keeps | apply State.putBitmap_keeps
    | ((try lift_lets); intro x; refine Keeps.cut (s := s0) (x := x) ?_ ?_; unfold x; rotate_left; intro hx; clear_value x; rotate_right)
    | ((try lift_lets); intro x; clear_value x)
    | split

theorem State.updPiece_keeps {s0 s : State} (h : Keeps s0 s) (src : Nat) (i : Nat) (crc : Nat) (data : List Byte) (ok : Bool) : Keeps s0 (updPiece s src i crc data ok).2 := by
  unfold updPiece
  generalize stagingAddr + 0x1000 + 0x1000 * i = a
  generalize keepPage 1113 = kp
  refine Keeps.ite2 h (Keeps.ite2 h (Keeps.ite2 h (Keeps.ite2 h ?_)))
  lift_lets
  intro a' s1 s2 bm s3 full s4
  have h1 : Keeps s0 s1 := flashErase_keeps h _ _
  have h2 : Keeps s0 s2 := flashProgram_keeps h1 _ _
  have h3 : Keeps s0 s3 := putBitmap_keeps h2 _
  have h4 : Keeps s0 s4 := putSess_keeps h3 _
  clear_value s4 s3 bm s2 s1
  refine Keeps.ite2 h1 ?_
  dsimp only
  exact Keeps.ite (raise_keeps h4 _ _) h4

theorem State.updAbort_keeps {s0 s : State} (h : Keeps s0 s) (src : Nat) : Keeps s0 (updAbort s src).2 := by
  unfold updAbort
  repeat' first
    | with_reducible assumption
    | with_reducible first | apply State.putBitmap_keeps | apply State.putSess_keeps
    | ((try lift_lets); intro x; clear_value x)
    | split

theorem State.arbAdvance_keeps {s0 s : State} (h : Keeps s0 s)  : Keeps s0 (arbAdvance s).2 := by
  unfold arbAdvance
  repeat' first
    | with_reducible assumption
    | with_reducible first | apply State.setReg64_keeps
    | ((try lift_lets); intro x; clear_value x)
    | split

theorem State.freeOverlap_keeps {s0 s : State} (h : Keeps s0 s) (buf : Nat) (len : Nat) : Keeps s0 (freeOverlap s buf len) := by
  unfold freeOverlap
  repeat' first
    | refine fun x => ?_
    | with_reducible assumption
    | with_reducible first | apply State.freeBytes_keeps | apply freeBytes_keeps | apply State.sramWr_keeps | apply sramWr_keeps
    | with_reducible apply Keeps.ite
    | with_reducible refine Keeps.foldl ?_ ?_
    | split
    | ((conv in (State.mk ..) => skip); with_reducible apply Keeps.mkUpd)

theorem State.hcmdWrite_keeps {s0 s : State} (h : Keeps s0 s) (v : Word) : Keeps s0 (hcmdWrite s v) := by
  unfold hcmdWrite
  repeat' first
    | with_reducible assumption
    | with_reducible first | apply State.wign_keeps | apply State.free_keeps | apply free_keeps | apply State.freeOverlap_keeps | apply State.setRb_keeps
    | with_reducible apply Keeps.ite
    | split
    | ((conv in (State.mk ..) => skip); with_reducible apply Keeps.mkUpd)

theorem State.hcmdRun_keeps {s0 s : State} (h : Keeps s0 s) (c : HCmd) (ok : Bool) : Keeps s0 (hcmdRun s c ok).2 := by
  unfold hcmdRun
  repeat' first
    | with_reducible assumption
    | with_reducible first | apply State.free_keeps | apply State.updOpen_keeps | apply State.updPiece_keeps | apply State.updAbort_keeps | apply State.arbAdvance_keeps | apply State.blow_keeps
    | split

theorem State.hcmdDone_keeps {s0 s : State} (h : Keeps s0 s) (ok : Bool) : Keeps s0 (hcmdDone s ok) := by
  unfold hcmdDone
  repeat' first
    | with_reducible assumption
    | with_reducible first | apply State.freeBytes_keeps | apply State.hcmdRun_keeps | apply State.setRf_keeps | apply State.setRb_keeps | apply State.raise_keeps
    | ((try lift_lets); intro x; refine Keeps.cut (s := s0) (x := x) ?_ ?_; unfold x; rotate_left; intro hx; clear_value x; rotate_right)
    | ((try lift_lets); intro x; clear_value x)
    | split
    | ((conv in (State.mk ..) => skip); with_reducible apply Keeps.mkUpd)

theorem State.keyCmd_keeps {s0 s : State} (h : Keeps s0 s) (v : Word) : Keeps s0 (keyCmd s v) := by
  unfold keyCmd
  repeat' first
    | with_reducible assumption
    | with_reducible first | apply State.free_keeps
    | with_reducible apply Keeps.ite
    | split
    | ((conv in (State.mk ..) => skip); with_reducible apply Keeps.mkUpd)

theorem State.xcmd_keeps {s0 s : State} (h : Keeps s0 s)  : Keeps s0 (xcmd s) := by
  unfold xcmd
  repeat' first
    | with_reducible assumption
    | with_reducible first | apply State.sramWr_keeps | apply State.freeBytes_keeps
    | ((try lift_lets); intro x; refine Keeps.cut (s := s0) (x := x.2) ?_ ?_; unfold x; rotate_left; intro hx; clear_value x; rotate_right)
    | ((try lift_lets); intro x; clear_value x)
    | split

theorem State.evtSet_keeps {s0 s : State} (h : Keeps s0 s) (v : Word) : Keeps s0 (evtSet s v) := by
  unfold evtSet
  repeat' first
    | refine fun x => ?_
    | with_reducible assumption
    | with_reducible first | apply State.free_keeps | apply State.raiseFree_keeps
    | with_reducible refine Keeps.foldl ?_ ?_
    | split

theorem State.qspStat_keeps {s0 s : State} (h : Keeps s0 s) (b : Nat) (st : Nat) (err : Nat) : Keeps s0 (qspStat s b st err) := by
  unfold qspStat
  repeat' first
    | with_reducible assumption
    | with_reducible first | apply State.setReg_keeps

theorem State.qspCmd_keeps {s0 s : State} (h : Keeps s0 s) (ag : Agent) (v : Word) : Keeps s0 (qspCmd s ag v) := by
  unfold qspCmd
  repeat' first
    | with_reducible assumption
    | with_reducible first | apply State.wign_keeps | apply State.free_keeps | apply State.setReg_keeps | apply State.qspStat_keeps
    | ((try lift_lets); intro x; refine Keeps.cut (s := s0) (x := x) ?_ ?_; unfold x; rotate_left; intro hx; clear_value x; rotate_right)
    | ((try lift_lets); intro x; refine Keeps.cut (s := s0) (x := x.2) ?_ ?_; unfold x; rotate_left; intro hx; clear_value x; rotate_right)
    | ((try lift_lets); intro x; clear_value x)
    | split
    | ((conv in (State.mk ..) => skip); with_reducible apply Keeps.mkUpd)

theorem State.qspDone_keeps {s0 s : State} (h : Keeps s0 s) (b : Nat) (err : Nat) : Keeps s0 (qspDone s b err) := by
  unfold qspDone
  repeat' first
    | refine fun x => ?_
    | with_reducible assumption
    | with_reducible first | apply State.setReg_keeps | apply setReg_keeps | apply State.freeOverlap_keeps | apply State.freeBytes_keeps | apply freeBytes_keeps | apply State.sramWr_keeps | apply sramWr_keeps | apply State.qspStat_keeps | apply State.flashProgram_keeps | apply State.flashErase_keeps
    | with_reducible apply Keeps.ite
    | split
    | ((conv in (State.mk ..) => skip); with_reducible apply Keeps.mkUpd)

theorem hcmdOp_keeps {s0 s : State} (h : Keeps s0 s) (ag : Agent) (v : Word) : Keeps.Out s0 (hcmdOp ag v s) := by
  unfold hcmdOp
  repeat' first
    | refine fun x => ?_
    | with_reducible assumption
    | with_reducible first | apply State.regWrite_keeps | apply State.hcmdWrite_keeps
    | with_reducible apply Keeps.out

theorem execHcmdOpen_keeps {s0 s : State} (h : Keeps s0 s) (ag : Agent) : Keeps.Out s0 (execHcmdOpen ag s) := by
  unfold execHcmdOpen
  repeat' first
    | with_reducible assumption
    | with_reducible first | apply hcmdOp_keeps
    | with_reducible apply Keeps.out

theorem execHcmdPiece_keeps {s0 s : State} (h : Keeps s0 s) (ag : Agent) : Keeps.Out s0 (execHcmdPiece ag s) := by
  unfold execHcmdPiece
  repeat' first
    | with_reducible assumption
    | with_reducible first | apply hcmdOp_keeps
    | with_reducible apply Keeps.out

theorem execHcmdAbort_keeps {s0 s : State} (h : Keeps s0 s) (ag : Agent) : Keeps.Out s0 (execHcmdAbort ag s) := by
  unfold execHcmdAbort
  repeat' first
    | with_reducible assumption
    | with_reducible first | apply hcmdOp_keeps
    | with_reducible apply Keeps.out

theorem execArbAdvance_keeps {s0 s : State} (h : Keeps s0 s) (ag : Agent) (v : Word) : Keeps.Out s0 (execArbAdvance ag v s) := by
  unfold execArbAdvance
  repeat' first
    | with_reducible assumption
    | with_reducible first | apply hcmdOp_keeps
    | with_reducible apply Keeps.out

theorem execSecureBoot_keeps {s0 s : State} (h : Keeps s0 s) (ag : Agent) (v : Word) : Keeps.Out s0 (execSecureBoot ag v s) := by
  unfold execSecureBoot
  repeat' first
    | with_reducible assumption
    | with_reducible first | apply hcmdOp_keeps
    | with_reducible apply Keeps.out

theorem execDbgLock_keeps {s0 s : State} (h : Keeps s0 s) (ag : Agent) (v : Word) : Keeps.Out s0 (execDbgLock ag v s) := by
  unfold execDbgLock
  repeat' first
    | with_reducible assumption
    | with_reducible first | apply hcmdOp_keeps
    | with_reducible apply Keeps.out

theorem execKeyrev_keeps {s0 s : State} (h : Keeps s0 s) (ag : Agent) (v : Word) : Keeps.Out s0 (execKeyrev ag v s) := by
  unfold execKeyrev
  repeat' first
    | with_reducible assumption
    | with_reducible first | apply hcmdOp_keeps
    | with_reducible apply Keeps.out

theorem execQspRead_keeps {s0 s : State} (h : Keeps s0 s) (ag : Agent) : Keeps.Out s0 (execQspRead ag s) := by
  unfold execQspRead
  repeat' first
    | refine fun x => ?_
    | with_reducible assumption
    | with_reducible first | apply State.regWrite_keeps | apply State.qspCmd_keeps
    | with_reducible apply Keeps.out

theorem execQspProgram_keeps {s0 s : State} (h : Keeps s0 s) (ag : Agent) : Keeps.Out s0 (execQspProgram ag s) := by
  unfold execQspProgram
  repeat' first
    | refine fun x => ?_
    | with_reducible assumption
    | with_reducible first | apply State.regWrite_keeps | apply State.qspCmd_keeps
    | with_reducible apply Keeps.out

theorem execQspErase4k_keeps {s0 s : State} (h : Keeps s0 s) (ag : Agent) : Keeps.Out s0 (execQspErase4k ag s) := by
  unfold execQspErase4k
  repeat' first
    | refine fun x => ?_
    | with_reducible assumption
    | with_reducible first | apply State.regWrite_keeps | apply State.qspCmd_keeps
    | with_reducible apply Keeps.out

theorem execQspErase64k_keeps {s0 s : State} (h : Keeps s0 s) (ag : Agent) : Keeps.Out s0 (execQspErase64k ag s) := by
  unfold execQspErase64k
  repeat' first
    | refine fun x => ?_
    | with_reducible assumption
    | with_reducible first | apply State.regWrite_keeps | apply State.qspCmd_keeps
    | with_reducible apply Keeps.out

theorem execQspDone_keeps {s0 s : State} (h : Keeps s0 s) (bank : Fin 3) (err : BitVec 4) : Keeps.Out s0 (execQspDone bank err s) := by
  unfold execQspDone
  repeat' first
    | with_reducible assumption
    | with_reducible first | apply State.qspDone_keeps
    | with_reducible apply Keeps.out
    | with_reducible apply Keeps.ite
    | with_reducible apply Keeps.outIte
    | split
    | ((conv in (State.mk ..) => skip); with_reducible apply Keeps.mkUpd)

theorem execKeyUnwrap_keeps {s0 s : State} (h : Keeps s0 s) (ag : Agent) : Keeps.Out s0 (execKeyUnwrap ag s) := by
  unfold execKeyUnwrap
  repeat' first
    | refine fun x => ?_
    | with_reducible assumption
    | with_reducible first | apply State.regWrite_keeps | apply State.keyCmd_keeps
    | with_reducible apply Keeps.out

theorem execKeyClear_keeps {s0 s : State} (h : Keeps s0 s) (ag : Agent) : Keeps.Out s0 (execKeyClear ag s) := by
  unfold execKeyClear
  repeat' first
    | refine fun x => ?_
    | with_reducible assumption
    | with_reducible first | apply State.regWrite_keeps | apply State.keyCmd_keeps
    | with_reducible apply Keeps.out

theorem execXcmdGo_keeps {s0 s : State} (h : Keeps s0 s) (ag : Agent) : Keeps.Out s0 (execXcmdGo ag s) := by
  unfold execXcmdGo
  repeat' first
    | with_reducible assumption
    | with_reducible first | apply State.regWrite_keeps | apply State.xcmd_keeps
    | with_reducible apply Keeps.out

theorem execEvtset_keeps {s0 s : State} (h : Keeps s0 s) (ag : Agent) (v : Word) : Keeps.Out s0 (execEvtset ag v s) := by
  unfold execEvtset
  repeat' first
    | refine fun x => ?_
    | with_reducible assumption
    | with_reducible first | apply State.regWrite_keeps | apply State.evtSet_keeps
    | with_reducible apply Keeps.out

theorem fusOp_keeps {s0 s : State} (h : Keeps s0 s) (ag : Agent) (op : Nat) (v : Word) : Keeps.Out s0 (fusOp ag op v s) := by
  unfold fusOp
  repeat' first
    | refine fun x => ?_
    | with_reducible assumption
    | with_reducible first | apply State.regWrite_keeps | apply State.fusCmd_keeps
    | with_reducible apply Keeps.out

theorem execFusArbBit_keeps {s0 s : State} (h : Keeps s0 s) (ag : Agent) (v : Word) : Keeps.Out s0 (execFusArbBit ag v s) := by
  unfold execFusArbBit
  repeat' first
    | with_reducible assumption
    | with_reducible first | apply fusOp_keeps
    | with_reducible apply Keeps.out

theorem execFusSecureBoot_keeps {s0 s : State} (h : Keeps s0 s) (ag : Agent) (v : Word) : Keeps.Out s0 (execFusSecureBoot ag v s) := by
  unfold execFusSecureBoot
  repeat' first
    | with_reducible assumption
    | with_reducible first | apply fusOp_keeps
    | with_reducible apply Keeps.out

theorem execFusDbgLock_keeps {s0 s : State} (h : Keeps s0 s) (ag : Agent) (v : Word) : Keeps.Out s0 (execFusDbgLock ag v s) := by
  unfold execFusDbgLock
  repeat' first
    | with_reducible assumption
    | with_reducible first | apply fusOp_keeps
    | with_reducible apply Keeps.out

theorem execFusKeyrev_keeps {s0 s : State} (h : Keeps s0 s) (ag : Agent) (v : Word) : Keeps.Out s0 (execFusKeyrev ag v s) := by
  unfold execFusKeyrev
  repeat' first
    | with_reducible assumption
    | with_reducible first | apply fusOp_keeps
    | with_reducible apply Keeps.out

theorem execFusProgramDone_keeps {s0 s : State} (h : Keeps s0 s) (ok : Bool) : Keeps.Out s0 (execFusProgramDone ok s) := by
  unfold execFusProgramDone
  repeat' first
    | with_reducible assumption
    | with_reducible first | apply State.fusDone_keeps
    | with_reducible apply Keeps.out

end Sys2Proof.Machine
end

