-- ==== Sys2Proof/Laws/KeepsScan.lean ====
section
/-! SUPPORT. `Keeps` of the operations and meanings of Machine/Scan.lean. -/

-- one declaration at a time: many at once take a thread and its stack each
set_option Elab.async false

set_option linter.all false

namespace Sys2Proof.Machine

open State

theorem State.mergeEntry_keeps {s0 s : State} (h : Keeps s0 s) (e : Entry) : Keeps s0 (mergeEntry s e) := by
  unfold mergeEntry
  repeat' first
    | with_reducible assumption
    | with_reducible first | apply State.wr_keeps | apply State.touch_keeps
    | split

theorem State.mergeConf_keeps {s0 s : State} (h : Keeps s0 s) (step : Nat) (c : List Nat) : Keeps s0 (mergeConf s step c) := by
  unfold mergeConf
  repeat' first
    | with_reducible assumption
    | with_reducible first | apply State.raise_keeps | apply State.setReg_keeps | apply State.count_keeps
    | split

theorem State.mergeStart_keeps {s0 s : State} (h : Keeps s0 s)  : Keeps s0 (mergeStart s) := by
  unfold mergeStart
  repeat' first
    | with_reducible assumption
    | with_reducible first | apply State.setRb_keeps
    | with_reducible apply Keeps.ite
    | ((conv in (State.mk ..) => skip); with_reducible apply Keeps.mkUpd)

theorem State.laneSolve_keeps {s0 s : State} (h : Keeps s0 s) (k : Nat) : Keeps s0 (laneSolve s k) := by
  unfold laneSolve
  repeat' first
    | with_reducible assumption
    | with_reducible first | apply State.setCore_keeps

theorem State.bunUtil_keeps {s0 s : State} (h : Keeps s0 s) (b : Nat) : Keeps s0 (bunUtil s b) := by
  unfold bunUtil
  repeat' first
    | with_reducible assumption
    | with_reducible first | apply State.free_keeps | apply State.setReg_keeps

theorem State.publish_keeps {s0 s : State} (h : Keeps s0 s)  : Keeps s0 (publish s) := by
  unfold publish
  repeat' first
    | with_reducible assumption
    | with_reducible first | apply State.setPhase_keeps | apply State.publishOut_keeps | apply State.digestMark_keeps | apply State.touchRange_keeps | apply State.setRb_keeps | apply State.fcMerge_keeps
    | with_reducible apply Keeps.ite
    | split
    | ((conv in (State.mk ..) => skip); with_reducible apply Keeps.mkUpd)

theorem State.publishDue_keeps {s0 s : State} (h : Keeps s0 s)  : Keeps s0 (publishDue s) := by
  unfold publishDue
  repeat' first
    | with_reducible assumption
    | with_reducible first | apply State.publish_keeps
    | split

theorem State.solveDone_keeps {s0 s : State} (h : Keeps s0 s)  : Keeps s0 (solveDone s) := by
  unfold solveDone
  repeat' first
    | refine fun x => ?_
    | with_reducible assumption
    | with_reducible first | apply State.setReg_keeps | apply State.laneSolve_keeps | apply State.bunUtil_keeps | apply State.raise_keeps | apply State.publish_keeps
    | with_reducible refine Keeps.foldl ?_ ?_
    | split
    | ((conv in (State.mk ..) => skip); with_reducible apply Keeps.mkUpd)

theorem State.stepDone_keeps {s0 s : State} (h : Keeps s0 s)  : Keeps s0 (stepDone s) := by
  unfold stepDone
  repeat' first
    | refine fun x => ?_
    | with_reducible assumption
    | with_reducible first | apply State.setRb_keeps | apply State.setRf_keeps | apply State.raise_keeps
    | with_reducible apply Keeps.ite
    | split
    | ((conv in (State.mk ..) => skip); with_reducible apply Keeps.mkUpd)

theorem State.afterMerge_keeps {s0 s : State} (h : Keeps s0 s) (k : Nat) : Keeps s0 (afterMerge s k) := by
  unfold afterMerge
  repeat' first
    | with_reducible assumption
    | with_reducible first | apply State.setCore_keeps

theorem State.mergeDone_keeps {s0 s : State} (h : Keeps s0 s)  : Keeps s0 (mergeDone s) := by
  unfold mergeDone
  repeat' first
    | refine fun x => ?_
    | with_reducible assumption
    | with_reducible first | apply State.mergeEntry_keeps | apply State.mergeConf_keeps | apply State.afterMerge_keeps | apply State.setRf_keeps | apply State.setRb_keeps | apply State.stepDone_keeps | apply State.solveDone_keeps
    | with_reducible refine Keeps.foldl ?_ ?_
    | ((try lift_lets); intro x; refine Keeps.cut (s := s0) (x := x) ?_ ?_; unfold x; rotate_left; intro hx; clear_value x; rotate_right)
    | ((try lift_lets); intro x; clear_value x)
    | split
    | ((conv in (State.mk ..) => skip); with_reducible apply Keeps.mkUpd)

theorem State.faultRecord_keeps {s0 s : State} (h : Keeps s0 s) (p : Nat) (cause : Nat) : Keeps s0 (faultRecord s p cause).2 := by
  unfold faultRecord
  repeat' first
    | with_reducible assumption
    | with_reducible first | apply State.setReg_keeps | apply State.raise_keeps
    | split

theorem State.copyStop_keeps {s0 s : State} (h : Keeps s0 s) (b : Nat) : Keeps s0 (copyStop s b) := by
  unfold copyStop
  repeat' first
    | with_reducible assumption
    | with_reducible first | apply State.free_keeps | apply State.setRf_keeps | apply State.setRb_keeps
    | split
    | ((conv in (State.mk ..) => skip); with_reducible apply Keeps.mkUpd)

theorem State.cycleInvalid_keeps {s0 s : State} (h : Keeps s0 s) (p : Nat) (k : Nat) (cause : Nat) : Keeps s0 (cycleInvalid s p k cause) := by
  unfold cycleInvalid
  repeat' first
    | with_reducible assumption
    | with_reducible first | apply State.stopAllSolving_keeps | apply State.raise_keeps | apply State.bump_keeps | apply State.ownDigest_keeps | apply State.publish_keeps
    | ((try lift_lets); intro x; refine Keeps.cut (s := s0) (x := x) ?_ ?_; unfold x; rotate_left; intro hx; clear_value x; rotate_right)
    | ((try lift_lets); intro x; clear_value x)
    | split
    | ((conv in (State.mk ..) => skip); with_reducible apply Keeps.mkUpd)

theorem State.spareStart_keeps {s0 s : State} (h : Keeps s0 s) (p : Nat) (k : Nat) : Keeps s0 (spareStart s p k) := by
  unfold spareStart
  repeat' first
    | with_reducible assumption
    | with_reducible first | apply State.setRb_keeps | apply State.setReg_keeps | apply State.safeHalt_keeps | apply State.raise_keeps | apply State.copyStop_keeps
    | with_reducible apply Keeps.ite
    | ((conv in (State.mk ..) => skip); with_reducible apply Keeps.mkUpd)

theorem State.laneFault_keeps {s0 s : State} (h : Keeps s0 s) (p : Nat) (cause : Nat) : Keeps s0 (laneFault s p cause) := by
  unfold laneFault
  repeat' first
    | with_reducible assumption
    | with_reducible first | apply State.faultRecord_keeps | apply State.setCore_keeps | apply State.copyStop_keeps | apply State.setRb_keeps | apply State.raise_keeps | apply State.safeHalt_keeps | apply State.cycleInvalid_keeps | apply State.abortLane_keeps | apply State.spareStart_keeps | apply State.stepDone_keeps
    | with_reducible apply Keeps.ite
    | ((try lift_lets); intro x; refine Keeps.cut (s := s0) (x := x) ?_ ?_; unfold x; rotate_left; intro hx; clear_value x; rotate_right)
    | ((try lift_lets); intro x; refine Keeps.cut (s := s0) (x := x.2) ?_ ?_; unfold x; rotate_left; intro hx; clear_value x; rotate_right)
    | ((try lift_lets); intro x; clear_value x)
    | split
    | ((conv in (State.mk ..) => skip); with_reducible apply Keeps.mkUpd)

theorem State.svcStop_keeps {s0 s : State} (h : Keeps s0 s) (c : Nat) : Keeps s0 (svcStop s c) := by
  unfold svcStop
  repeat' first
    | with_reducible assumption
    | with_reducible first | apply State.setCore_keeps
    | split
    | ((conv in (State.mk ..) => skip); with_reducible apply Keeps.mkUpd)

theorem State.copyHalf_keeps {s0 s : State} (h : Keeps s0 s) (p : Nat) (q : Nat) (h : Nat) : Keeps s0 (copyHalf s p q h) := by
  unfold copyHalf
  repeat' first
    | with_reducible assumption
    | with_reducible first | apply State.copyMem_keeps
    | ((conv in (State.mk ..) => skip); with_reducible apply Keeps.mkUpd)

theorem State.copyErr_keeps {s0 s : State} (h : Keeps s0 s) (b : Nat) (addr : Nat) (half : Nat) : Keeps s0 (copyErr s b addr half) := by
  unfold copyErr
  repeat' first
    | with_reducible assumption
    | with_reducible first | apply State.raise_keeps | apply State.ueRecord_keeps | apply State.setReg_keeps | apply State.setRb_keeps | apply State.copyStop_keeps
    | split

theorem State.spareReady_keeps {s0 s : State} (h : Keeps s0 s) (b : Nat) : Keeps s0 (spareReady s b) := by
  unfold spareReady
  repeat' first
    | refine fun x => ?_
    | with_reducible assumption
    | with_reducible first | apply State.copyErr_keeps | apply State.copyHalf_keeps | apply State.attemptCut_keeps | apply State.setRf_keeps | apply State.setReg_keeps | apply setReg_keeps | apply State.raise_keeps
    | with_reducible apply Keeps.ite
    | ((try lift_lets); intro x; refine Keeps.cut (s := s0) (x := x) ?_ ?_; unfold x; rotate_left; intro hx; clear_value x; rotate_right)
    | ((try lift_lets); intro x; refine Keeps.cut (s := s0) (x := x.2) ?_ ?_; unfold x; rotate_left; intro hx; clear_value x; rotate_right)
    | ((try lift_lets); intro x; clear_value x)
    | split
    | ((conv in (State.mk ..) => skip); with_reducible apply Keeps.mkUpd)

theorem State.bunFree_keeps {s0 s : State} (h : Keeps s0 s) (b : Nat) : Keeps s0 (bunFree s b) := by
  unfold bunFree
  repeat' first
    | refine fun x => ?_
    | with_reducible assumption
    | with_reducible first | apply State.free_keeps | apply free_keeps | apply State.setCore_keeps | apply State.setReg_keeps | apply setReg_keeps
    | with_reducible apply Keeps.ite
    | with_reducible refine Keeps.foldl ?_ ?_
    | split
    | ((conv in (State.mk ..) => skip); with_reducible apply Keeps.mkUpd)

theorem State.forceWrite_keeps {s0 s : State} (h : Keeps s0 s) (b : Nat) (v : Word) : Keeps s0 (forceWrite s b v) := by
  unfold forceWrite
  repeat' first
    | with_reducible assumption
    | with_reducible first | apply State.setCore_keeps | apply State.bunFree_keeps
    | with_reducible apply Keeps.ite
    | split
    | ((conv in (State.mk ..) => skip); with_reducible apply Keeps.mkUpd)

theorem State.breakHit_keeps {s0 s : State} (h : Keeps s0 s) (p : Nat) (k : Nat) (pc : Nat) (brk : Option Nat) : Keeps s0 (breakHit s p k pc brk) := by
  unfold breakHit
  repeat' first
    | with_reducible assumption
    | with_reducible first | apply State.haltAll_keeps | apply State.setCore_keeps | apply State.setCx_keeps | apply State.changeMode_keeps | apply State.setPhase_keeps | apply State.raise_keeps | apply State.setReg_keeps | apply setReg_keeps | apply State.stepDone_keeps
    | with_reducible apply Keeps.ite
    | split
    | ((conv in (State.mk ..) => skip); with_reducible apply Keeps.mkUpd)

theorem State.holdStep_keeps {s0 s : State} (h : Keeps s0 s)  : Keeps s0 (holdStep s) := by
  unfold holdStep
  repeat' first
    | refine fun x => ?_
    | with_reducible assumption
    | with_reducible first | apply exec_keeps | apply State.endStop_keeps | apply State.setCore_keeps | apply State.setRb_keeps | apply State.stepDone_keeps
    | with_reducible apply Keeps.ite
    | with_reducible refine Keeps.foldl ?_ ?_
    | split
    | ((conv in (State.mk ..) => skip); with_reducible apply Keeps.mkUpd)

theorem State.holdCycle_keeps {s0 s : State} (h : Keeps s0 s)  : Keeps s0 (holdCycle s) := by
  unfold holdCycle
  repeat' first
    | with_reducible assumption
    | with_reducible first | apply State.setRf_keeps | apply State.setRb_keeps | apply State.resumeCycle_keeps | apply State.lanesResume_keeps
    | ((try lift_lets); intro x; refine Keeps.cut (s := s0) (x := x) ?_ ?_; unfold x; rotate_left; intro hx; clear_value x; rotate_right)
    | ((try lift_lets); intro x; clear_value x)
    | split
    | ((conv in (State.mk ..) => skip); with_reducible apply Keeps.mkUpd)

theorem State.holdCmd_keeps {s0 s : State} (h : Keeps s0 s) (v : Word) : Keeps s0 (holdCmd s v) := by
  unfold holdCmd
  repeat' first
    | with_reducible assumption
    | with_reducible first | apply State.wign_keeps | apply State.free_keeps | apply State.holdStep_keeps | apply State.holdCycle_keeps
    | with_reducible apply Keeps.ite

theorem State.holdCycleEnd_keeps {s0 s : State} (h : Keeps s0 s)  : Keeps s0 (holdCycleEnd s) := by
  unfold holdCycleEnd
  repeat' first
    | with_reducible assumption
    | with_reducible first | apply State.raise_keeps | apply State.setPhase_keeps | apply State.setRb_keeps | apply State.setRf_keeps | apply State.haltAll_keeps
    | ((try lift_lets); intro x; refine Keeps.cut (s := s0) (x := x) ?_ ?_; unfold x; rotate_left; intro hx; clear_value x; rotate_right)
    | ((try lift_lets); intro x; clear_value x)
    | split
    | ((conv in (State.mk ..) => skip); with_reducible apply Keeps.mkUpd)

theorem State.holdKeepalive_keeps {s0 s : State} (h : Keeps s0 s) (n : Nat) : Keeps s0 (holdKeepalive s n) := by
  unfold holdKeepalive
  repeat' first
    | with_reducible assumption
    | with_reducible first | apply State.holdFrames_keeps | apply State.rndPush_keeps
    | split
    | ((conv in (State.mk ..) => skip); with_reducible apply Keeps.mkUpd)

theorem State.dbgCore_keeps {s0 s : State} (h : Keeps s0 s) (ag : Agent) (v : Word) (halt : Bool) : Keeps s0 (dbgCore s ag v halt) := by
  unfold dbgCore
  repeat' first
    | refine fun x => ?_
    | with_reducible assumption
    | with_reducible first | apply State.wign_keeps | apply State.setRb_keeps | apply State.setCore_keeps
    | with_reducible refine Keeps.foldl ?_ ?_
    | split

theorem State.clearBufs_keeps {s0 s : State} (h : Keeps s0 s) (n : Nat) : Keeps s0 (clearBufs s n) := by
  unfold clearBufs
  repeat' first
    | with_reducible assumption
    | with_reducible apply Keeps.ite
    | split
    | ((conv in (State.mk ..) => skip); with_reducible apply Keeps.mkUpd)

theorem State.dispatch_keeps {s0 s : State} (h : Keeps s0 s)  : Keeps s0 (dispatch s) := by
  unfold dispatch
  repeat' first
    | with_reducible assumption
    | with_reducible first | apply State.setCtx_keeps | apply State.clearBufs_keeps | apply State.setCore_keeps | apply exec_keeps
    | with_reducible apply Keeps.ite
    | split
    | ((conv in (State.mk ..) => skip); with_reducible apply Keeps.mkUpd)

theorem State.preempt_keeps {s0 s : State} (h : Keeps s0 s) (p : Nat) : Keeps s0 (preempt s p) := by
  unfold preempt
  repeat' first
    | with_reducible assumption
    | with_reducible first | apply exec_keeps | apply State.ownOnly_keeps | apply State.setCore_keeps
    | with_reducible apply Keeps.ite
    | split
    | ((conv in (State.mk ..) => skip); with_reducible apply Keeps.mkUpd)

theorem execMergeDone_keeps {s0 s : State} (h : Keeps s0 s)  : Keeps.Out s0 (execMergeDone s) := by
  unfold execMergeDone
  repeat' first
    | with_reducible assumption
    | with_reducible first | apply State.mergeDone_keeps
    | with_reducible apply Keeps.out

theorem execEventDispatch_keeps {s0 s : State} (h : Keeps s0 s)  : Keeps.Out s0 (execEventDispatch s) := by
  unfold execEventDispatch
  repeat' first
    | with_reducible assumption
    | with_reducible first | apply State.dispatch_keeps
    | with_reducible apply Keeps.out

theorem execPreemption_keeps {s0 s : State} (h : Keeps s0 s) (c : Core) : Keeps.Out s0 (execPreemption c s) := by
  unfold execPreemption
  repeat' first
    | with_reducible assumption
    | with_reducible first | apply State.preempt_keeps
    | with_reducible apply Keeps.out
    | split

theorem execLaneFault_keeps {s0 s : State} (h : Keeps s0 s) (p : Fin 68) (cause : BitVec 4) : Keeps.Out s0 (execLaneFault p cause s) := by
  unfold execLaneFault
  repeat' first
    | with_reducible assumption
    | with_reducible first | apply State.laneFault_keeps | apply State.raise_keeps | apply State.ueRecord_keeps | apply State.free_keeps
    | with_reducible apply Keeps.out
    | with_reducible apply Keeps.outIte

theorem execSpareReady_keeps {s0 s : State} (h : Keeps s0 s) (b : Fin 4) : Keeps.Out s0 (execSpareReady b s) := by
  unfold execSpareReady
  repeat' first
    | with_reducible assumption
    | with_reducible first | apply State.spareReady_keeps
    | with_reducible apply Keeps.out

theorem execCopyErr_keeps {s0 s : State} (h : Keeps s0 s) (b : Fin 4) (addr : BitVec 14) (half : Bool) : Keeps.Out s0 (execCopyErr b addr half s) := by
  unfold execCopyErr
  repeat' first
    | with_reducible assumption
    | with_reducible first | apply State.copyErr_keeps
    | with_reducible apply Keeps.out

theorem execForceflt_keeps {s0 s : State} (h : Keeps s0 s) (ag : Agent) (b : Fin 4) (v : Word) : Keeps.Out s0 (execForceflt ag b v s) := by
  unfold execForceflt
  repeat' first
    | refine fun x => ?_
    | with_reducible assumption
    | with_reducible first | apply State.regWrite_keeps | apply State.forceWrite_keeps
    | with_reducible apply Keeps.out

theorem execHoldStep_keeps {s0 s : State} (h : Keeps s0 s) (ag : Agent) : Keeps.Out s0 (execHoldStep ag s) := by
  unfold execHoldStep
  repeat' first
    | refine fun x => ?_
    | with_reducible assumption
    | with_reducible first | apply State.regWrite_keeps | apply State.holdCmd_keeps
    | with_reducible apply Keeps.out

theorem execHoldCycle_keeps {s0 s : State} (h : Keeps s0 s) (ag : Agent) : Keeps.Out s0 (execHoldCycle ag s) := by
  unfold execHoldCycle
  repeat' first
    | refine fun x => ?_
    | with_reducible assumption
    | with_reducible first | apply State.regWrite_keeps | apply State.holdCmd_keeps
    | with_reducible apply Keeps.out

theorem execDbgCoreHalt_keeps {s0 s : State} (h : Keeps s0 s) (ag : Agent) (v : Word) : Keeps.Out s0 (execDbgCoreHalt ag v s) := by
  unfold execDbgCoreHalt
  repeat' first
    | refine fun x => ?_
    | with_reducible assumption
    | with_reducible first | apply State.regWrite_keeps | apply State.dbgCore_keeps
    | with_reducible apply Keeps.out

theorem execDbgCoreRun_keeps {s0 s : State} (h : Keeps s0 s) (ag : Agent) (v : Word) : Keeps.Out s0 (execDbgCoreRun ag v s) := by
  unfold execDbgCoreRun
  repeat' first
    | refine fun x => ?_
    | with_reducible assumption
    | with_reducible first | apply State.regWrite_keeps | apply State.dbgCore_keeps
    | with_reducible apply Keeps.out

theorem execServiceLaneFault_keeps {s0 s : State} (h : Keeps s0 s) (i : Fin 5) : Keeps.Out s0 (execServiceLaneFault i s) := by
  unfold execServiceLaneFault
  repeat' first
    | with_reducible assumption
    | with_reducible first | apply State.free_keeps | apply State.svcStop_keeps | apply State.ueRecord_keeps
    | with_reducible apply Keeps.out

end Sys2Proof.Machine
end

