-- ==== Sys2Proof/Laws/KeepsLimlisCore.lean ====
section
/-! SUPPORT. `Keeps` of the operations and meanings of Machine/LimlisCore.lean. -/

-- one declaration at a time: many at once take a thread and its stack each
set_option Elab.async false

set_option linter.all false

namespace Sys2Proof.Machine

open State

theorem State.freeRegs_keeps {s0 s : State} (h : Keeps s0 s) (c : Nat) : Keeps s0 (freeRegs s c) := by
  unfold freeRegs
  repeat' first
    | refine fun x => ?_
    | with_reducible assumption
    | with_reducible first | apply State.freeBytes_keeps | apply freeBytes_keeps | apply State.setReg_keeps | apply setReg_keeps | apply State.setCx_keeps
    | with_reducible apply Keeps.ite
    | with_reducible refine Keeps.foldl ?_ ?_
    | split
    | ((conv in (State.mk ..) => skip); with_reducible apply Keeps.mkUpd)

theorem State.freeFlow_keeps {s0 s : State} (h : Keeps s0 s) (c : Nat) : Keeps s0 (freeFlow s c) := by
  unfold freeFlow
  repeat' first
    | with_reducible assumption
    | with_reducible first | apply State.free_keeps | apply free_keeps | apply State.setCx_keeps
    | with_reducible apply Keeps.ite
    | split
    | ((conv in (State.mk ..) => skip); with_reducible apply Keeps.mkUpd)

theorem State.freeLock_keeps {s0 s : State} (h : Keeps s0 s) (c : Nat) : Keeps s0 (freeLock s c) := by
  unfold freeLock
  repeat' first
    | with_reducible assumption
    | with_reducible first | apply State.free_keeps | apply free_keeps | apply State.endLock_keeps | apply State.setCx_keeps
    | with_reducible apply Keeps.ite
    | split
    | ((conv in (State.mk ..) => skip); with_reducible apply Keeps.mkUpd)

theorem State.freeSeal_keeps {s0 s : State} (h : Keeps s0 s) (c : Nat) : Keeps s0 (freeSeal s c) := by
  unfold freeSeal
  repeat' first
    | with_reducible assumption
    | with_reducible first | apply State.free_keeps | apply free_keeps | apply State.setCx_keeps
    | with_reducible apply Keeps.ite
    | split
    | ((conv in (State.mk ..) => skip); with_reducible apply Keeps.mkUpd)

theorem State.spent_keeps {s0 s : State} (h : Keeps s0 s) (c : Nat) : Keeps s0 (spent s c) := by
  unfold spent
  repeat' first
    | with_reducible assumption
    | with_reducible first | apply State.setCore_keeps | apply State.endStop_keeps
    | with_reducible apply Keeps.ite
    | split
    | ((conv in (State.mk ..) => skip); with_reducible apply Keeps.mkUpd)

theorem State.misplacedAt_keeps {s0 s : State} (h : Keeps s0 s) (c : Nat) (k : Kind) : Keeps s0 (misplacedAt s c k) := by
  unfold misplacedAt
  repeat' first
    | with_reducible assumption
    | with_reducible first | apply State.freeRegs_keeps | apply State.freeFlow_keeps | apply State.freeLock_keeps | apply State.setCx_keeps | apply State.spent_keeps | apply State.stepDone_keeps
    | with_reducible apply Keeps.ite
    | split
    | ((conv in (State.mk ..) => skip); with_reducible apply Keeps.mkUpd)

theorem State.retire_keeps {s0 s : State} (h : Keeps s0 s) (c : Nat) (k : Kind) (x0 : Ctx) (e : Eff) : Keeps s0 (retire s c k x0 e) := by
  unfold retire
  repeat' first
    | refine fun x => ?_
    | with_reducible assumption
    | with_reducible first | apply State.count_keeps | apply State.setCx_keeps | apply State.endLock_keeps | apply State.spent_keeps
    | with_reducible apply Keeps.ite
    | split
    | ((conv in (State.mk ..) => skip); with_reducible apply Keeps.mkUpd)

theorem State.lockExpire_keeps {s0 s : State} (h : Keeps s0 s) (c : Nat) : Keeps s0 (lockExpire s c) := by
  unfold lockExpire
  repeat' first
    | with_reducible assumption
    | with_reducible first | apply State.endLock_keeps
    | split

theorem State.fetchFault_keeps {s0 s : State} (h : Keeps s0 s) (c : Nat) (pc : Nat) : Keeps s0 (fetchFault s c pc) := by
  unfold fetchFault
  repeat' first
    | with_reducible assumption
    | with_reducible first | apply State.laneFault_keeps | apply State.raise_keeps | apply State.ueRecord_keeps | apply State.svcStop_keeps
    | split

theorem State.passBrk_keeps {s0 s : State} (h : Keeps s0 s) (c : Nat) : Keeps s0 (passBrk s c) := by
  unfold passBrk
  repeat' first
    | with_reducible assumption
    | with_reducible first | apply State.setCx_keeps
    | with_reducible apply Keeps.ite
    | split
    | ((conv in (State.mk ..) => skip); with_reducible apply Keeps.mkUpd)

theorem State.finish_keeps {s0 s : State} (h : Keeps s0 s) (c : Nat) (k : Kind) (body : Ctx → State → Eff) (hf4 : ∀ x0 x1, Keeps s0 x1 → Keeps s0 (body x0 x1).st) (post : State → State) (hf5 : ∀ x0, Keeps s0 x0 → Keeps s0 (post x0)) : Keeps s0 (finish s c k body post) := by
  unfold finish
  repeat' first
    | with_reducible assumption
    | with_reducible first | apply State.lockExpire_keeps | apply State.retire_keeps | apply State.stepDone_keeps
    | with_reducible apply hf4
    | with_reducible apply hf5
    | with_reducible apply Keeps.ite
    | split
    | ((conv in (State.mk ..) => skip); with_reducible apply Keeps.mkUpd)

theorem State.issueThen_keeps {s0 s : State} (h : Keeps s0 s) (c : Nat) (k : Kind) (body : Ctx → State → Eff) (hf4 : ∀ x0 x1, Keeps s0 x1 → Keeps s0 (body x0 x1).st) (post : State → State) (hf5 : ∀ x0, Keeps s0 x0 → Keeps s0 (post x0)) : Keeps s0 (issueThen s c k body post) := by
  unfold issueThen
  repeat' first
    | with_reducible assumption
    | with_reducible first | apply State.finish_keeps | apply State.passBrk_keeps | apply State.laneFault_keeps | apply State.breakHit_keeps | apply State.fetchFault_keeps | apply State.misplacedAt_keeps
    | with_reducible apply hf4
    | with_reducible apply hf5
    | with_reducible apply Keeps.ite
    | split
    | ((conv in (State.mk ..) => skip); with_reducible apply Keeps.mkUpd)

theorem State.issue_keeps {s0 s : State} (h : Keeps s0 s) (c : Nat) (k : Kind) (body : Ctx → State → Eff) (hf3 : ∀ x0 x1, Keeps s0 x1 → Keeps s0 (body x0 x1).st) : Keeps s0 (issue s c k body) := by
  unfold issue
  exact issueThen_keeps h _ _ _ hf3 _ fun _ hx => hx

theorem State.aluOp_keeps {s0 s : State} (h : Keeps s0 s) (c : Core) (f : Ctx → Ctx → Ctx) : Keeps s0 (aluOp s c f) := by
  unfold aluOp
  repeat' first
    | refine fun x => ?_
    | with_reducible assumption
    | with_reducible first | apply State.issue_keeps

end Sys2Proof.Machine
end

