-- ==== Sys2Proof/Laws/KeepsBgd.lean ====
section
/-! SUPPORT. `Keeps` of the operations and meanings of Machine/Bgd.lean. -/

-- one declaration at a time: many at once take a thread and its stack each
set_option Elab.async false

set_option linter.all false

namespace Sys2Proof.Machine

open State

theorem State.scrubCe_keeps {s0 s : State} (h : Keeps s0 s) (k : Nat) (a : ScrubAt) : Keeps s0 (scrubCe s k a) := by
  unfold scrubCe
  repeat' first
    | with_reducible assumption
    | with_reducible first | apply State.bump_keeps | apply State.raise_keeps | apply State.setEcc_keeps | apply State.ceWord_keeps
    | split

theorem State.scrubUe_keeps {s0 s : State} (h : Keeps s0 s) (k : Nat) (a : ScrubAt) : Keeps s0 (scrubUe s k a) := by
  unfold scrubUe
  repeat' first
    | with_reducible assumption
    | with_reducible first | apply State.ueRecord_keeps | apply State.setEcc_keeps | apply State.raise_keeps | apply State.svcStop_keeps | apply State.laneFault_keeps | apply State.wrLE_keeps | apply State.ueWord_keeps
    | split

theorem State.scrubKeep_keeps {s0 s : State} (h : Keeps s0 s) (page : Nat) : Keeps s0 (scrubKeep s page) := by
  unfold scrubKeep
  repeat' first
    | with_reducible assumption
    | with_reducible first | apply State.count_keeps | apply State.keepRead_keeps

theorem State.keepWear_keeps {s0 s : State} (h : Keeps s0 s)  : Keeps s0 (keepWear s) := by
  unfold keepWear
  repeat' first
    | with_reducible assumption
    | with_reducible first | apply State.setReg_keeps

theorem State.passEnd_keeps {s0 s : State} (h : Keeps s0 s) (i : Nat) : Keeps s0 (passEnd s i) := by
  unfold passEnd
  repeat' first
    | with_reducible assumption
    | with_reducible first | apply State.bump_keeps | apply State.keepWear_keeps | apply State.raise_keeps
    | ((try lift_lets); intro x; refine Keeps.cut (s := s0) (x := x) ?_ ?_; unfold x; rotate_left; intro hx; clear_value x; rotate_right)
    | ((try lift_lets); intro x; clear_value x)
    | split
    | ((conv in (State.mk ..) => skip); with_reducible apply Keeps.mkUpd)

theorem State.scrubRead_keeps {s0 s : State} (h : Keeps s0 s) (i : Nat) (k : Nat) (ue : Bool) (ce : Bool) : Keeps s0 (scrubRead s i k ue ce) := by
  unfold scrubRead
  repeat' first
    | with_reducible assumption
    | with_reducible first | apply State.scrubKeep_keeps | apply State.setEcc_keeps | apply State.scrubUe_keeps | apply State.scrubCe_keeps | apply State.passEnd_keeps
    | with_reducible apply Keeps.ite
    | split

theorem State.scrubBack_keeps {s0 s : State} (h : Keeps s0 s) (k : Nat) : Keeps s0 (scrubBack s k) := by
  unfold scrubBack
  repeat' first
    | with_reducible assumption
    | with_reducible first | apply State.setEcc_keeps
    | split

theorem State.rcalRequest_keeps {s0 s : State} (h : Keeps s0 s)  : Keeps s0 (rcalRequest s) := by
  unfold rcalRequest
  repeat' first
    | with_reducible assumption
    | with_reducible first | apply State.rndPush_keeps
    | ((try lift_lets); intro x; refine Keeps.cut (s := s0) (x := x) ?_ ?_; unfold x; rotate_left; intro hx; clear_value x; rotate_right)
    | ((try lift_lets); intro x; clear_value x)
    | split
    | ((conv in (State.mk ..) => skip); with_reducible apply Keeps.mkUpd)

theorem State.rtcTrim_keeps {s0 s : State} (h : Keeps s0 s) (e : Half) (discarded : Bool) : Keeps s0 (rtcTrim s e discarded) := by
  unfold rtcTrim
  repeat' first
    | with_reducible assumption
    | with_reducible first | apply State.setReg_keeps | apply setReg_keeps | apply State.setRf_keeps | apply State.raise_keeps
    | with_reducible apply Keeps.ite
    | split
    | ((conv in (State.mk ..) => skip); with_reducible apply Keeps.mkUpd)

theorem State.tempSample_keeps {s0 s : State} (h : Keeps s0 s) (i : Nat) (v : Nat) : Keeps s0 (tempSample s i v) := by
  unfold tempSample
  repeat' first
    | with_reducible assumption
    | with_reducible first | apply State.setReg_keeps | apply State.free_keeps | apply State.raise_keeps
    | with_reducible apply Keeps.ite
    | ((try lift_lets); intro x; refine Keeps.cut (s := s0) (x := x) ?_ ?_; unfold x; rotate_left; intro hx; clear_value x; rotate_right)
    | ((try lift_lets); intro x; clear_value x)
    | ((conv in (State.mk ..) => skip); with_reducible apply Keeps.mkUpd)

theorem State.voltSample_keeps {s0 s : State} (h : Keeps s0 s) (i : Nat) (v : Nat) : Keeps s0 (voltSample s i v) := by
  unfold voltSample
  repeat' first
    | with_reducible assumption
    | with_reducible first | apply State.setReg_keeps | apply State.raise_keeps
    | ((try lift_lets); intro x; refine Keeps.cut (s := s0) (x := x) ?_ ?_; unfold x; rotate_left; intro hx; clear_value x; rotate_right)
    | ((try lift_lets); intro x; clear_value x)
    | split
    | ((conv in (State.mk ..) => skip); with_reducible apply Keeps.mkUpd)

theorem State.telemetry_keeps {s0 s : State} (h : Keeps s0 s) (temps : List Half) (volts : List Half) : Keeps s0 (telemetry s temps volts) := by
  unfold telemetry
  repeat' first
    | refine fun x => ?_
    | with_reducible assumption
    | with_reducible first | apply State.tempSample_keeps | apply State.raiseFree_keeps | apply State.voltSample_keeps
    | with_reducible refine Keeps.foldl ?_ ?_
    | ((try lift_lets); intro x; refine Keeps.cut (s := s0) (x := x) ?_ ?_; unfold x; rotate_left; intro hx; clear_value x; rotate_right)
    | ((try lift_lets); intro x; clear_value x)
    | split
    | ((conv in (State.mk ..) => skip); with_reducible apply Keeps.mkUpd)

theorem State.lclrWrite_keeps {s0 s : State} (h : Keeps s0 s) (v : Word) : Keeps s0 (lclrWrite s v) := by
  unfold lclrWrite
  repeat' first
    | refine fun x => ?_
    | with_reducible assumption
    | with_reducible first | apply State.setRf_keeps
    | with_reducible refine Keeps.foldl ?_ ?_
    | split
    | ((conv in (State.mk ..) => skip); with_reducible apply Keeps.mkUpd)

theorem execScrubRead_keeps {s0 s : State} (h : Keeps s0 s) (i : Fin 6) (key : Nat) (ue : Bool) (ce : Bool) : Keeps.Out s0 (execScrubRead i key ue ce s) := by
  unfold execScrubRead
  repeat' first
    | with_reducible assumption
    | with_reducible first | apply State.scrubRead_keeps
    | with_reducible apply Keeps.out

theorem execScrubWriteback_keeps {s0 s : State} (h : Keeps s0 s) (key : Nat) : Keeps.Out s0 (execScrubWriteback key s) := by
  unfold execScrubWriteback
  repeat' first
    | with_reducible assumption
    | with_reducible first | apply State.scrubBack_keeps
    | with_reducible apply Keeps.out

theorem execRcalRequest_keeps {s0 s : State} (h : Keeps s0 s)  : Keeps.Out s0 (execRcalRequest s) := by
  unfold execRcalRequest
  repeat' first
    | with_reducible assumption
    | with_reducible first | apply State.rcalRequest_keeps
    | with_reducible apply Keeps.out

theorem execRtcTrimWindow_keeps {s0 s : State} (h : Keeps s0 s) (e : Half) (discarded : Bool) : Keeps.Out s0 (execRtcTrimWindow e discarded s) := by
  unfold execRtcTrimWindow
  repeat' first
    | with_reducible assumption
    | with_reducible first | apply State.rtcTrim_keeps
    | with_reducible apply Keeps.out

theorem execRateAverage_keeps {s0 s : State} (h : Keeps s0 s) (mean : Word) : Keeps.Out s0 (execRateAverage mean s) := by
  unfold execRateAverage
  repeat' first
    | with_reducible assumption
    | with_reducible first | apply State.setReg_keeps
    | with_reducible apply Keeps.out
    | split

theorem execTelemetrySample_keeps {s0 s : State} (h : Keeps s0 s) (temps : List Half) (volts : List Half) : Keeps.Out s0 (execTelemetrySample temps volts s) := by
  unfold execTelemetrySample
  repeat' first
    | with_reducible assumption
    | with_reducible first | apply State.telemetry_keeps
    | with_reducible apply Keeps.out

theorem execLclr_keeps {s0 s : State} (h : Keeps s0 s) (ag : Agent) : Keeps.Out s0 (execLclr ag s) := by
  unfold execLclr
  repeat' first
    | refine fun x => ?_
    | with_reducible assumption
    | with_reducible first | apply State.regWrite_keeps | apply State.lclrWrite_keeps
    | with_reducible apply Keeps.out

end Sys2Proof.Machine
end

