-- ==== Sys2Proof/Laws/KeepsGraft.lean ====
section
/-! SUPPORT. `Keeps` of the operations and meanings of Machine/Graft.lean. -/

-- one declaration at a time: many at once take a thread and its stack each
set_option Elab.async false

set_option linter.all false

namespace Sys2Proof.Machine

open State

theorem State.armRefused_keeps {s0 s : State} (h : Keeps s0 s) (reason : Nat) : Keeps s0 (armRefused s reason) := by
  unfold armRefused
  repeat' first
    | with_reducible assumption
    | with_reducible first | apply State.raise_keeps | apply State.setRf_keeps

theorem State.armGo_keeps {s0 s : State} (h : Keeps s0 s)  : Keeps s0 (armGo s) := by
  unfold armGo
  repeat' first
    | with_reducible assumption
    | with_reducible first | apply State.armRefused_keeps | apply State.raise_keeps | apply State.setRf_keeps | apply State.setReg_keeps
    | split

theorem State.disarm_keeps {s0 s : State} (h : Keeps s0 s)  : Keeps s0 (disarm s) := by
  unfold disarm
  repeat' first
    | with_reducible assumption
    | with_reducible first | apply State.setRf_keeps | apply State.wign_keeps
    | ((try lift_lets); intro x; refine Keeps.cut (s := s0) (x := x) ?_ ?_; unfold x; rotate_left; intro hx; clear_value x; rotate_right)
    | ((try lift_lets); intro x; clear_value x)
    | split
    | ((conv in (State.mk ..) => skip); with_reducible apply Keeps.mkUpd)

theorem State.grfCtrl_keeps {s0 s : State} (h : Keeps s0 s) (v : Word) : Keeps s0 (grfCtrl s v) := by
  unfold grfCtrl
  repeat' first
    | with_reducible assumption
    | with_reducible first | apply State.free_keeps | apply State.setReg_keeps | apply State.armGo_keeps | apply State.disarm_keeps
    | split

theorem State.mapRd_keeps {s0 s : State} (h : Keeps s0 s) (space : Nat) (off : Nat) (y3 : Nat) : Keeps s0 (mapRd s space off y3).2 := by
  induction y3 generalizing s off with
  | zero => exact h
  | succ n ih => unfold mapRd; exact ih (rdT_keeps h _) _

theorem State.mapByte_keeps {s0 s : State} (h : Keeps s0 s) (space : Nat) (off : Nat) (bs : List Byte) (i : Nat) : Keeps s0 (mapByte s space off bs i) := by
  unfold mapByte
  repeat' first
    | with_reducible assumption
    | with_reducible first | apply State.setEcc_keeps | apply State.touch_keeps | apply State.wr_keeps | apply State.dirty_keeps
    | split

theorem State.mapWr_keeps {s0 s : State} (h : Keeps s0 s) (space : Nat) (off : Nat) (bs : List Byte) : Keeps s0 (mapWr s space off bs) := by
  unfold mapWr
  repeat' first
    | refine fun x => ?_
    | with_reducible assumption
    | with_reducible first | apply State.mapByte_keeps
    | with_reducible apply Keeps.ite
    | with_reducible refine Keeps.foldl ?_ ?_
    | ((conv in (State.mk ..) => skip); with_reducible apply Keeps.mkUpd)

theorem State.mapCell_keeps {s0 s : State} (h : Keeps s0 s) (kind : Nat) (m : Byte) (src : Nat) (dst : Nat) : Keeps s0 (mapCell s kind m src dst) := by
  unfold mapCell
  repeat' first
    | with_reducible assumption
    | with_reducible first | apply State.setCellBase_keeps | apply State.setStatus_keeps | apply State.wr_keeps | apply State.wrLE_keeps | apply State.cellSetMode_keeps
    | split

theorem State.mapEdge_keeps {s0 s : State} (h : Keeps s0 s) (init : Nat) (sbit : Nat) (dbit : Nat) (src : Nat) (dst : Nat) : Keeps s0 (mapEdge s init sbit dbit src dst) := by
  unfold mapEdge
  repeat' first
    | with_reducible assumption
    | with_reducible first | apply State.mapRd_keeps | apply State.rdT_keeps | apply State.mapWr_keeps
    | split

theorem State.mapFree_keeps {s0 s : State} (h : Keeps s0 s)  : Keeps s0 (mapFree s) := by
  unfold mapFree
  repeat' first
    | with_reducible assumption
    | with_reducible first | apply State.free64_keeps | apply State.freeBytes_keeps | apply State.wrBytes_keeps | apply State.mapWr_keeps
    | with_reducible apply Keeps.ite

theorem State.mapExec_keeps {s0 s : State} (h : Keeps s0 s) (e : List Byte) : Keeps s0 (mapExec s e) := by
  unfold mapExec
  repeat' first
    | with_reducible assumption
    | with_reducible first | apply State.mapFree_keeps | apply State.mapRd_keeps | apply State.mapWr_keeps | apply State.mapCell_keeps | apply State.mapEdge_keeps
    | split

theorem State.mapHalted_keeps {s0 s : State} (h : Keeps s0 s)  : Keeps s0 (mapHalted s) := by
  unfold mapHalted
  repeat' first
    | with_reducible assumption
    | with_reducible first | apply State.setRf_keeps
    | ((try lift_lets); intro x; refine Keeps.cut (s := s0) (x := x) ?_ ?_; unfold x; rotate_left; intro hx; clear_value x; rotate_right)
    | ((try lift_lets); intro x; clear_value x)
    | ((conv in (State.mk ..) => skip); with_reducible apply Keeps.mkUpd)

theorem State.mapRun_keeps {s0 s : State} (h : Keeps s0 s) (i : Nat) (y2 : Nat) : Keeps s0 (mapRun s i y2) := by
  induction y2 generalizing s i with
  | zero => exact h
  | succ n ih =>
    unfold mapRun
    dsimp only
    exact Keeps.ite (mapHalted_keeps (setReg_keeps (mapExec_keeps h _) _ _)) (ih (setReg_keeps (mapExec_keeps h _) _ _) _)

theorem State.grfSwap_keeps {s0 s : State} (h : Keeps s0 s)  : Keeps s0 (grfSwap s) := by
  unfold grfSwap
  repeat' first
    | with_reducible assumption
    | with_reducible first | apply State.setReg_keeps | apply State.setRf_keeps | apply State.swapSets_keeps | apply State.swapHalves_keeps | apply State.mapRun_keeps
    | ((conv in (State.mk ..) => skip); with_reducible apply Keeps.mkUpd)

theorem State.graftApply_keeps {s0 s : State} (h : Keeps s0 s)  : Keeps s0 (graftApply s) := by
  unfold graftApply
  repeat' first
    | with_reducible assumption
    | with_reducible first | apply State.postpone_keeps
    | split
    | ((conv in (State.mk ..) => skip); with_reducible apply Keeps.mkUpd)

theorem State.grfTell_keeps {s0 s : State} (h : Keeps s0 s)  : Keeps s0 (grfTell s) := by
  unfold grfTell
  repeat' first
    | refine fun x => ?_
    | with_reducible assumption
    | with_reducible first | apply State.lineSend_keeps | apply State.twnSend_keeps | apply State.twnCmd_keeps
    | with_reducible apply Keeps.ite
    | with_reducible refine Keeps.foldl ?_ ?_
    | split
    | ((conv in (State.mk ..) => skip); with_reducible apply Keeps.mkUpd)

theorem State.testPoint_keeps {s0 s : State} (h : Keeps s0 s)  : Keeps s0 (testPoint s) := by
  unfold testPoint
  repeat' first
    | with_reducible assumption
    | with_reducible first | apply State.grfTell_keeps | apply State.fcRestart_keeps | apply State.grfSwap_keeps | apply State.postpone_keeps
    | split

theorem State.attemptFail_keeps {s0 s : State} (h : Keeps s0 s)  : Keeps s0 (attemptFail s) := by
  unfold attemptFail
  repeat' first
    | with_reducible assumption
    | with_reducible first | apply State.postpone_keeps
    | split

theorem State.grfFollow_keeps {s0 s : State} (h : Keeps s0 s)  : Keeps s0 (grfFollow s) := by
  unfold grfFollow
  repeat' first
    | with_reducible assumption
    | with_reducible first | apply State.grfSwap_keeps
    | with_reducible apply Keeps.ite
    | split
    | ((conv in (State.mk ..) => skip); with_reducible apply Keeps.mkUpd)

theorem State.grfApplied_keeps {s0 s : State} (h : Keeps s0 s)  : Keeps s0 (grfApplied s) := by
  unfold grfApplied
  repeat' first
    | with_reducible assumption
    | with_reducible first | apply State.raise_keeps | apply State.setRf_keeps | apply State.bump_keeps | apply State.setReg64_keeps
    | split
    | ((conv in (State.mk ..) => skip); with_reducible apply Keeps.mkUpd)

theorem State.digestDone_keeps {s0 s : State} (h : Keeps s0 s)  : Keeps s0 (digestDone s) := by
  unfold digestDone
  repeat' first
    | with_reducible assumption
    | with_reducible first | apply State.setReg_keeps | apply State.setReg64_keeps | apply State.twnCmd_keeps | apply State.setRf_keeps
    | split

theorem State.mapReload_keeps {s0 s : State} (h : Keeps s0 s)  : Keeps s0 (mapReload s) := by
  unfold mapReload
  repeat' first
    | refine fun x => ?_
    | with_reducible assumption
    | with_reducible refine Keeps.foldl ?_ ?_
    | ((conv in (State.mk ..) => skip); with_reducible apply Keeps.mkUpd)

theorem State.setMapIdx_keeps {s0 s : State} (h : Keeps s0 s) (i : Nat) : Keeps s0 (setMapIdx s i) := by
  unfold setMapIdx
  repeat' first
    | with_reducible assumption
    | with_reducible first | apply State.mapReload_keeps | apply State.setReg_keeps

theorem State.mapIdxWrite_keeps {s0 s : State} (h : Keeps s0 s) (v : Word) : Keeps s0 (mapIdxWrite s v) := by
  unfold mapIdxWrite
  repeat' first
    | with_reducible assumption
    | with_reducible first | apply State.wign_keeps | apply State.setMapIdx_keeps
    | split

theorem State.mapLenWrite_keeps {s0 s : State} (h : Keeps s0 s) (v : Word) : Keeps s0 (mapLenWrite s v) := by
  unfold mapLenWrite
  repeat' first
    | with_reducible assumption
    | with_reducible first | apply State.wign_keeps | apply State.setReg_keeps
    | split

theorem State.mapCommit_keeps {s0 s : State} (h : Keeps s0 s) (n : Nat) (v : Word) : Keeps s0 (mapCommit s n v) := by
  unfold mapCommit
  repeat' first
    | with_reducible assumption
    | with_reducible first | apply State.wign_keeps | apply State.setMapIdx_keeps | apply State.wrLE_keeps
    | split

theorem State.mapHiRead_keeps {s0 s : State} (h : Keeps s0 s) (n : Nat) : Keeps s0 (mapHiRead s n).2 := by
  unfold mapHiRead
  repeat' first
    | with_reducible assumption
    | with_reducible first | apply State.setMapIdx_keeps

theorem execGrfArm_keeps {s0 s : State} (h : Keeps s0 s) (ag : Agent) : Keeps.Out s0 (execGrfArm ag s) := by
  unfold execGrfArm
  repeat' first
    | refine fun x => ?_
    | with_reducible assumption
    | with_reducible first | apply State.regWrite_keeps | apply State.grfCtrl_keeps
    | with_reducible apply Keeps.out

theorem execGraftDigestDone_keeps {s0 s : State} (h : Keeps s0 s)  : Keeps.Out s0 (execGraftDigestDone s) := by
  unfold execGraftDigestDone
  repeat' first
    | with_reducible assumption
    | with_reducible first | apply State.digestDone_keeps
    | with_reducible apply Keeps.out

theorem execGrfDisarm_keeps {s0 s : State} (h : Keeps s0 s) (ag : Agent) : Keeps.Out s0 (execGrfDisarm ag s) := by
  unfold execGrfDisarm
  repeat' first
    | refine fun x => ?_
    | with_reducible assumption
    | with_reducible first | apply State.regWrite_keeps | apply State.grfCtrl_keeps
    | with_reducible apply Keeps.out

theorem execMapidxWrite_keeps {s0 s : State} (h : Keeps s0 s) (ag : Agent) (v : Word) : Keeps.Out s0 (execMapidxWrite ag v s) := by
  unfold execMapidxWrite
  repeat' first
    | refine fun x => ?_
    | with_reducible assumption
    | with_reducible first | apply State.regWrite_keeps | apply State.mapIdxWrite_keeps
    | with_reducible apply Keeps.out

theorem execMapdataHiWrite_keeps {s0 s : State} (h : Keeps s0 s) (ag : Agent) (v : Word) : Keeps.Out s0 (execMapdataHiWrite ag v s) := by
  unfold execMapdataHiWrite
  repeat' first
    | refine fun x => ?_
    | with_reducible assumption
    | with_reducible first | apply State.regWrite_keeps | apply State.mapCommit_keeps
    | with_reducible apply Keeps.out

theorem execMapdataHiRead_keeps {s0 s : State} (h : Keeps s0 s) (ag : Agent) : Keeps.Out s0 (execMapdataHiRead ag s) := by
  unfold execMapdataHiRead
  repeat' first
    | refine fun x => ?_
    | with_reducible assumption
    | with_reducible first | apply State.guardedRd_keeps | apply State.mapHiRead_keeps
    | with_reducible apply Keeps.out

theorem execGraftTestPoint_keeps {s0 s : State} (h : Keeps s0 s)  : Keeps.Out s0 (execGraftTestPoint s) := by
  unfold execGraftTestPoint
  repeat' first
    | with_reducible assumption
    | with_reducible first | apply State.testPoint_keeps
    | with_reducible apply Keeps.out

theorem execGraftAttemptFail_keeps {s0 s : State} (h : Keeps s0 s)  : Keeps.Out s0 (execGraftAttemptFail s) := by
  unfold execGraftAttemptFail
  repeat' first
    | with_reducible assumption
    | with_reducible first | apply State.attemptFail_keeps
    | with_reducible apply Keeps.out

theorem execGrfApplied_keeps {s0 s : State} (h : Keeps s0 s)  : Keeps.Out s0 (execGrfApplied s) := by
  unfold execGrfApplied
  repeat' first
    | with_reducible assumption
    | with_reducible first | apply State.grfApplied_keeps
    | with_reducible apply Keeps.out

theorem execGraftLate_keeps {s0 s : State} (h : Keeps s0 s)  : Keeps.Out s0 (execGraftLate s) := by
  unfold execGraftLate
  repeat' first
    | with_reducible assumption
    | with_reducible first | apply State.diverge_keeps
    | with_reducible apply Keeps.out
    | split

theorem execCmdGrfGo_keeps {s0 s : State} (h : Keeps s0 s) (r : List Byte) : Keeps.Out s0 (execCmdGrfGo r s) := by
  unfold execCmdGrfGo
  repeat' first
    | refine fun x => ?_
    | with_reducible assumption
    | with_reducible first | apply State.cmdRx_keeps | apply State.grfFollow_keeps
    | with_reducible apply Keeps.out
    | with_reducible apply Keeps.ite
    | with_reducible apply Keeps.outIte
    | split
    | ((conv in (State.mk ..) => skip); with_reducible apply Keeps.mkUpd)

end Sys2Proof.Machine
end

