-- ==== Sys2Proof/Laws/KeepsAccess.lean ====
section
/-! SUPPORT. `Keeps` of the operations and meanings of Machine/Access.lean. -/

-- one declaration at a time: many at once take a thread and its stack each
set_option Elab.async false

set_option linter.all false

namespace Sys2Proof.Machine

open State

theorem State.liveWord_keeps {s0 s : State} (h : Keeps s0 s) (ag : Agent) (p : Nat) (off : Nat) (t : Target) : Keeps s0 (liveWord s ag p off t).2 := by
  unfold liveWord
  repeat' first
    | with_reducible assumption
    | with_reducible first | apply State.free_keeps | apply State.canStatView_keeps | apply State.canErrView_keeps
    | ((try lift_lets); intro x; refine Keeps.cut (s := s0) (x := x.2) ?_ ?_; unfold x; rotate_left; intro hx; clear_value x; rotate_right)
    | ((try lift_lets); intro x; clear_value x)
    | split

theorem State.liveWords_keeps {s0 s : State} (h : Keeps s0 s) (ag : Agent) (p : Nat) (off : Nat) (y4 : Nat) : Keeps s0 (liveWords s ag p off y4).2 := by
  induction y4 generalizing s off with
  | zero => exact h
  | succ n ih =>
    unfold liveWords
    split
    · exact ih (liveWord_keeps h ..) _
    · exact h

theorem State.rclClear_keeps {s0 s : State} (h : Keeps s0 s) (p : Nat) (off : Nat) (y3 : Nat) : Keeps s0 (rclClear s p off y3) := by
  induction y3 generalizing s off with
  | zero => exact h
  | succ n ih =>
    unfold rclClear
    refine ih ?_ _
    split
    · exact Keeps.ite (setReg_keeps h _ _) h
    · exact h

theorem State.latchRead_keeps {s0 s : State} (h : Keeps s0 s) (ag : Agent) (p : Nat) (off : Nat) (parts : Nat) : Keeps s0 (latchRead s ag p off parts) := by
  unfold latchRead
  repeat' first
    | with_reducible assumption
    | with_reducible first | apply State.tciPop_keeps | apply State.latchWords_keeps | apply State.txPop_keeps | apply State.liveWords_keeps | apply State.rclClear_keeps
    | split

theorem State.pageRead_keeps {s0 s : State} (h : Keeps s0 s) (ag : Agent) (a : Nat) (n : Nat) : Keeps s0 (pageRead s ag a n).2 := by
  unfold pageRead
  repeat' first
    | with_reducible assumption
    | with_reducible first | apply State.latchRead_keeps | apply State.mapHiRead_keeps
    | with_reducible apply Keeps.ite
    | ((try lift_lets); intro x; clear_value x)
    | split

theorem State.memRead1_keeps {s0 s : State} (h : Keeps s0 s) (ag : Agent) (a : Nat) : Keeps s0 (memRead1 s ag a).2 := by
  unfold memRead1
  repeat' first
    | with_reducible assumption
    | with_reducible first | apply State.rdT_keeps | apply State.cellRead_keeps
    | split

theorem State.memRead_keeps {s0 s : State} (h : Keeps s0 s) (ag : Agent) (a : Nat) (y3 : Nat) : Keeps s0 (memRead s ag a y3).2 := by
  induction y3 generalizing s a with
  | zero => exact h
  | succ n ih => unfold memRead; exact ih (memRead1_keeps h ..) _

theorem State.wordRead_keeps {s0 s : State} (h : Keeps s0 s) (ag : Agent) (a : Nat) (n : Nat) : Keeps s0 (wordRead s ag a n).2 := by
  have hw : ∀ g : List Byte × State, Keeps s0 g.2 → Keeps s0 (let g := g; ((g.1.drop (a % 4)).take n, g.2)).2 := fun _ hg => hg
  rw [wordRead]
  cases region a with
  | none => exact h
  | some r => exact Keeps.ite2 (pageRead_keeps h ..) (Keeps.ite2 (hw _ (keepWindow_keeps h (a / 4 * 4) (bankOf ag) (bankOf ag))) (memRead_keeps h ..))

theorem State.beatWrite_keeps {s0 s : State} (h : Keeps s0 s) (a : Nat) (bs : List Byte) : Keeps s0 (beatWrite s a bs) := by
  unfold beatWrite
  repeat' first
    | refine fun x => ?_
    | with_reducible assumption
    | with_reducible first | apply State.setEcc_keeps | apply State.wrBytes_keeps | apply wrBytes_keeps | apply State.touch_keeps | apply State.panHost_keeps | apply State.dirty_keeps
    | with_reducible apply Keeps.ite
    | with_reducible refine Keeps.foldl ?_ ?_
    | split
    | ((conv in (State.mk ..) => skip); with_reducible apply Keeps.mkUpd)

theorem State.instrWrite_keeps {s0 s : State} (h : Keeps s0 s) (a : Nat) (bs : List Byte) : Keeps s0 (instrWrite s a bs) := by
  unfold instrWrite
  repeat' first
    | refine fun x => ?_
    | with_reducible assumption
    | with_reducible first | apply State.wign_keeps | apply State.wr_keeps | apply State.setEcc_keeps
    | with_reducible apply Keeps.ite
    | with_reducible refine Keeps.foldl ?_ ?_

theorem State.memWrite_keeps {s0 s : State} (h : Keeps s0 s) (ag : Agent) (r : Region) (a : Nat) (bs : List Byte) : Keeps s0 (memWrite s ag r a bs) := by
  unfold memWrite
  repeat' first
    | refine fun x => ?_
    | with_reducible assumption
    | with_reducible first | apply State.wign_keeps | apply State.instrWrite_keeps | apply State.wrBytes_keeps | apply wrBytes_keeps | apply State.beatWrite_keeps | apply State.cellFabWrite_keeps
    | with_reducible apply Keeps.ite
    | split
    | ((conv in (State.mk ..) => skip); with_reducible apply Keeps.mkUpd)

theorem State.commitOf_keeps {s0 s : State} (h : Keeps s0 s) (ag : Agent) (p : Nat) (off : Nat) (v : Word) : ∀ t, (commitOf s ag p off v) = some t → Keeps s0 t := by
  intro t ht
  unfold commitOf at ht
  try dsimp only at ht
  repeat' (first | cases ht | split at ht)
  repeat' first
    | with_reducible assumption
    | with_reducible first | apply State.ctrlPut_keeps | apply State.pendClear_keeps | apply State.ownerPut_keeps | apply State.cfgswapWrite_keeps | apply State.requestMode_keeps | apply State.sysReset_keeps | apply State.domReqWrite_keeps | apply State.ridxWrite_keeps | apply State.swRaise_keeps | apply State.holdCmd_keeps | apply State.forceWrite_keeps | apply State.psnClear_keeps | apply State.arbCommitWrite_keeps | apply State.grfCtrl_keeps | apply State.mapLenWrite_keeps | apply State.mapIdxWrite_keeps | apply State.mapCommit_keeps | apply State.twnCmdWrite_keeps | apply State.presetWrite_keeps | apply State.timCmdWrite_keeps | apply State.ofsMeas_keeps | apply State.tpoCtrlWrite_keeps | apply State.canCmdWrite_keeps | apply State.canTxrdy_keeps | apply State.canTxcan_keeps | apply State.rndCmd_keeps | apply State.chenWrite_keeps | apply State.chcfgWrite_keeps | apply State.setRb_keeps | apply State.wdtPeriodWrite_keeps | apply State.wdtConfigWrite_keeps | apply State.wdtService_keeps | apply State.wdtCheckin_keeps | apply State.keepCmdWrite_keeps | apply State.rtcCmdWrite_keeps | apply State.mbxWrite_keeps | apply State.hcmdWrite_keeps | apply State.keyCmd_keeps | apply State.xcmd_keeps | apply State.evtSet_keeps | apply State.lclrWrite_keeps | apply State.mdioWrite_keeps | apply State.qspCmd_keeps | apply State.fusCmd_keeps | apply State.dbgCore_keeps
    | split

theorem State.plainPut_keeps {s0 s : State} (h : Keeps s0 s) (k : Nat) (p : Nat) (off : Nat) (r : RegRow) (v : Word) : Keeps s0 (plainPut s k p off r v) := by
  unfold plainPut
  repeat' first
    | with_reducible assumption
    | with_reducible first | apply State.free_keeps | apply State.setReg_keeps
    | split

theorem State.afterPlain_keeps {s0 s : State} (h : Keeps s0 s) (ag : Agent) (p : Nat) (off : Nat) (t : Target) : Keeps s0 (afterPlain s ag p off t) := by
  unfold afterPlain
  repeat' first
    | refine fun x => ?_
    | with_reducible assumption
    | with_reducible first | apply State.rndPush_keeps | apply State.voidTrim_keeps | apply State.setRb_keeps
    | with_reducible apply Keeps.ite
    | split
    | ((conv in (State.mk ..) => skip); with_reducible apply Keeps.mkUpd)

theorem State.commitVal_keeps {s0 s : State} (h : Keeps s0 s) (ag : Agent) (p : Nat) (off : Nat) (t : Target) (v : Word) : Keeps s0 (commitVal s ag p off t v) := by
  unfold commitVal
  dsimp only
  split
  · rename_i u hu
    have hk : Keeps s0 u := by
      split at hu
      · cases hu
      · exact commitOf_keeps h _ _ _ _ _ hu
    exact Keeps.ite (cfgNote_keeps hk _) (stageLoad_keeps (cfgNote_keeps hk _) ..)
  · exact stageLoad_keeps (cfgNote_keeps (afterPlain_keeps (plainPut_keeps h ..) ..) _) ..

theorem State.commitWord_keeps {s0 s : State} (h : Keeps s0 s) (ag : Agent) (p : Nat) (off : Nat) (t : Target) (v : Word) : Keeps s0 (commitWord s ag p off t v) := by
  unfold commitWord
  repeat' first
    | with_reducible assumption
    | with_reducible first | apply State.keepUse_keeps | apply State.free_keeps | apply free_keeps | apply State.commitVal_keeps
    | with_reducible apply Keeps.ite
    | split
    | ((conv in (State.mk ..) => skip); with_reducible apply Keeps.mkUpd)

theorem State.commitWords_keeps {s0 s : State} (h : Keeps s0 s) (ag : Agent) (p : Nat) (off : Nat) (y4 : Nat) : Keeps s0 (commitWords s ag p off y4) := by
  induction y4 generalizing s off with
  | zero => exact h
  | succ n ih =>
    unfold commitWords
    split
    · exact ih (commitWord_keeps h ..) _
    · exact h

theorem State.pageWrite_keeps {s0 s : State} (h : Keeps s0 s) (ag : Agent) (a : Nat) (bs : List Byte) : Keeps s0 (pageWrite s ag a bs) := by
  unfold pageWrite
  repeat' first
    | with_reducible assumption
    | with_reducible first | apply State.wign_keeps | apply State.commitWords_keeps
    | ((try lift_lets); intro x; refine Keeps.cut (s := s0) (x := x) ?_ ?_; unfold x; rotate_left; intro hx; clear_value x; rotate_right)
    | ((try lift_lets); intro x; clear_value x)
    | split
    | ((conv in (State.mk ..) => skip); with_reducible apply Keeps.mkUpd)

theorem State.accRead_keeps {s0 s : State} (h : Keeps s0 s) (ag : Agent) (a : Nat) (n : Nat) : Keeps s0 (accRead s ag a n).2 := by
  unfold accRead
  repeat' first
    | with_reducible assumption
    | with_reducible first | apply State.wordRead_keeps
    | split
    | with_reducible (refine State.check_keeps ?_ _ _ _ _ ‹_›)

theorem State.accWrite_keeps {s0 s : State} (h : Keeps s0 s) (ag : Agent) (a : Nat) (bs : List Byte) : Keeps s0 (accWrite s ag a bs) := by
  unfold accWrite
  split
  · exact Keeps.ite (regChecks_keeps h _ _ _ fun _ hx => pageWrite_keeps hx ..) (guarded_keeps h _ _ _ fun _ hx => memWrite_keeps hx ..)
  · exact guarded_keeps h _ _ _ fun _ hx => hx

theorem State.busReadF_keeps {s0 s : State} (h : Keeps s0 s) (ag : Agent) (y2 : Nat) (y3 : Nat) (y4 : Nat) : Keeps s0 (busReadF s ag y2 y3 y4).2 := by
  induction y2 generalizing s y3 y4 with
  | zero => exact h
  | succ n ih => unfold busReadF; exact Keeps.ite2 h (ih (accRead_keeps h ..) _ _)

theorem State.busRead_keeps {s0 s : State} (h : Keeps s0 s) (ag : Agent) (a : Nat) (n : Nat) : Keeps s0 (busRead s ag a n).2 := by
  unfold busRead
  repeat' first
    | with_reducible assumption
    | with_reducible first | apply State.busReadF_keeps

theorem State.busWriteF_keeps {s0 s : State} (h : Keeps s0 s) (ag : Agent) (y2 : Nat) (y3 : Nat) (y4 : List Byte) : Keeps s0 (busWriteF s ag y2 y3 y4) := by
  induction y2 generalizing s y3 y4 with
  | zero => exact h
  | succ n ih => unfold busWriteF; exact Keeps.ite h (ih (accWrite_keeps h ..) _ _)

theorem State.busWrite_keeps {s0 s : State} (h : Keeps s0 s) (ag : Agent) (a : Nat) (bs : List Byte) : Keeps s0 (busWrite s ag a bs) := by
  unfold busWrite
  repeat' first
    | with_reducible assumption
    | with_reducible first | apply State.busWriteF_keeps

theorem State.msixPut_keeps {s0 s : State} (h : Keeps s0 s) (o : Nat) (v : Byte) : Keeps s0 (msixPut s o v) := by
  unfold msixPut
  repeat' first
    | with_reducible assumption
    | with_reducible first | apply State.wr_keeps
    | split

theorem State.agentRead_keeps {s0 s : State} (h : Keeps s0 s) (ag : Agent) (a : Nat) (n : Nat) : Keeps s0 (agentRead s ag a n).2 := by
  unfold agentRead
  repeat' first
    | with_reducible assumption
    | with_reducible first | apply State.busRead_keeps | apply State.badAddr_keeps
    | split

theorem State.agentWrite_keeps {s0 s : State} (h : Keeps s0 s) (ag : Agent) (a : Nat) (bs : List Byte) : Keeps s0 (agentWrite s ag a bs) := by
  unfold agentWrite
  repeat' first
    | refine fun x => ?_
    | with_reducible assumption
    | with_reducible first | apply State.busWrite_keeps | apply State.badAddr_keeps | apply State.msixPut_keeps | apply State.setRb_keeps
    | with_reducible refine Keeps.foldl ?_ ?_
    | split

theorem State.gapWords_keeps {s0 s : State} (h : Keeps s0 s) (ag : Agent) (p off n : Nat) : Keeps s0 (gapWords s ag p off n) := by
  induction n generalizing s off with
  | zero => exact h
  | succ n ih =>
    unfold gapWords
    split
    · exact ih (Keeps.mkUpd (setReg_keeps (free_keeps (free_keeps h)) ..) ..) _
    · exact h

theorem State.gapAccess_keeps {s0 s : State} (h : Keeps s0 s) (ag : Agent) (d : Nat) (w : Bool) : Keeps s0 (gapAccess s ag d w) := by
  unfold gapAccess
  split
  · exact check_keeps h _ _ _ _ ‹_›
  · dsimp only
    split
    · exact gapWords_keeps h ..
    · exact h

theorem execLowPartLatch_keeps {s0 s : State} (h : Keeps s0 s) (ag : Agent) (addr : Word) (n : Extent) : Keeps.Out s0 (execLowPartLatch ag addr n s) := by
  unfold execLowPartLatch
  repeat' first
    | with_reducible assumption
    | with_reducible first | apply State.gapAccess_keeps | apply State.free64_keeps | apply free64_keeps | apply State.agentRead_keeps
    | with_reducible apply Keeps.out
    | with_reducible apply Keeps.ite
    | with_reducible apply Keeps.outIte
    | split
    | ((conv in (State.mk ..) => skip); with_reducible apply Keeps.mkUpd)

theorem execRclRead_keeps {s0 s : State} (h : Keeps s0 s) (ag : Agent) (addr : Word) : Keeps.Out s0 (execRclRead ag addr s) := by
  unfold execRclRead
  repeat' first
    | with_reducible assumption
    | with_reducible first | apply State.agentRead_keeps
    | with_reducible apply Keeps.out
    | with_reducible apply Keeps.ite
    | with_reducible apply Keeps.outIte
    | split
    | ((conv in (State.mk ..) => skip); with_reducible apply Keeps.mkUpd)

end Sys2Proof.Machine
end

