-- ==== Sys2Proof/Laws/KeepsBoot.lean ====
section
/-! SUPPORT. `Keeps` of the operations and meanings of Machine/Boot.lean. -/

-- one declaration at a time: many at once take a thread and its stack each
set_option Elab.async false

set_option linter.all false

namespace Sys2Proof.Machine

open State

theorem State.setBootPhase_keeps {s0 s : State} (h : Keeps s0 s) (n : Nat) : Keeps s0 (setBootPhase s n) := by
  unfold setBootPhase
  repeat' first
    | with_reducible assumption
    | with_reducible first | apply State.setRf_keeps

theorem State.bootFail_keeps {s0 s : State} (h : Keeps s0 s) (err : Nat) : Keeps s0 (bootFail s err) := by
  unfold bootFail
  repeat' first
    | with_reducible assumption
    | with_reducible first | apply State.setBootPhase_keeps | apply State.setRf_keeps

theorem State.bootDomains_keeps {s0 s : State} (h : Keeps s0 s)  : Keeps s0 (bootDomains s) := by
  unfold bootDomains
  repeat' first
    | refine fun x => ?_
    | with_reducible assumption
    | with_reducible first | apply State.setReg_keeps | apply State.domRequest_keeps | apply State.setRb_keeps
    | with_reducible refine Keeps.foldl ?_ ?_
    | split

theorem State.selfTestSpare_keeps {s0 s : State} (h : Keeps s0 s) (p : Nat) : Keeps s0 (selfTestSpare s p) := by
  unfold selfTestSpare
  repeat' first
    | with_reducible assumption
    | with_reducible first | apply State.setRb_keeps | apply State.setCore_keeps | apply State.setRf_keeps | apply State.raiseFree_keeps
    | split

theorem State.warmWord_keeps {s0 s : State} (h : Keeps s0 s) (k : Nat) : Keeps s0 (warmWord s k) := by
  unfold warmWord
  repeat' first
    | refine fun x => ?_
    | with_reducible assumption
    | with_reducible first | apply State.setEcc_keeps | apply State.wrLE_keeps | apply wrLE_keeps | apply State.ueRecord_keeps | apply State.scrubUe_keeps | apply State.ueWord_keeps | apply State.free_keeps | apply free_keeps
    | with_reducible apply Keeps.ite
    | split
    | ((conv in (State.mk ..) => skip); with_reducible apply Keeps.mkUpd)

theorem State.bootSelfTest_keeps {s0 s : State} (h : Keeps s0 s) (cold : Bool) (t : SelfTest) (finds : List Nat) : Keeps s0 (bootSelfTest s cold t finds).2 := by
  unfold bootSelfTest
  repeat' first
    | refine fun x => ?_
    | with_reducible assumption
    | with_reducible first | apply State.bootFail_keeps | apply State.selfTestSpare_keeps | apply State.warmWord_keeps
    | with_reducible apply Keeps.ite
    | with_reducible refine Keeps.foldl ?_ ?_
    | ((try lift_lets); intro x; refine Keeps.cut (s := s0) (x := x) ?_ ?_; unfold x; rotate_left; intro hx; clear_value x; rotate_right)
    | ((try lift_lets); intro x; refine Keeps.cut (s := s0) (x := x.2) ?_ ?_; unfold x; rotate_left; intro hx; clear_value x; rotate_right)
    | ((try lift_lets); intro x; clear_value x)
    | split
    | ((conv in (State.mk ..) => skip); with_reducible apply Keeps.mkUpd)

theorem State.bootCurve_keeps {s0 s : State} (h : Keeps s0 s)  : Keeps s0 (bootCurve s) := by
  unfold bootCurve
  repeat' first
    | refine fun x => ?_
    | with_reducible assumption
    | with_reducible first | apply State.setReg_keeps | apply State.setRb_keeps | apply State.setRf_keeps | apply State.raiseFree_keeps
    | with_reducible apply Keeps.ite
    | with_reducible refine Keeps.foldl ?_ ?_

theorem State.slotFallback_keeps {s0 s : State} (h : Keeps s0 s) (second : Bool) : Keeps s0 (slotFallback s second) := by
  unfold slotFallback
  repeat' first
    | with_reducible assumption
    | with_reducible first | apply State.raiseFree_keeps | apply State.setRb_keeps
    | split

theorem State.stoneTaken_keeps {s0 s : State} (h : Keeps s0 s) (d : Drupe) : Keeps s0 (stoneTaken s d) := by
  unfold stoneTaken
  repeat' first
    | with_reducible assumption
    | with_reducible first | apply State.setCore_keeps | apply State.setReg_keeps | apply State.setRf_keeps

theorem State.pulpTaken_keeps {s0 s : State} (h : Keeps s0 s) (d : Drupe) : Keeps s0 (pulpTaken s d) := by
  unfold pulpTaken
  repeat' first
    | with_reducible assumption
    | with_reducible first | apply State.setReg_keeps | apply State.setRf_keeps

theorem State.configRecord_keeps {s0 s : State} (h : Keeps s0 s) (r : List Byte) : Keeps s0 (configRecord s r) := by
  unfold configRecord
  repeat' first
    | with_reducible assumption
    | with_reducible first | apply State.plainPut_keeps | apply State.busWrite_keeps
    | with_reducible apply Keeps.ite
    | split

theorem State.configRecords_keeps {s0 s : State} (h : Keeps s0 s) (bs : List Byte) (y2 : Nat) : Keeps s0 (configRecords s bs y2) := by
  induction y2 generalizing s bs with
  | zero => exact h
  | succ n ih => unfold configRecords; exact ih (configRecord_keeps h _) _

theorem State.loadInstr_keeps {s0 s : State} (h : Keeps s0 s) (lane : Nat) (w : Nat) (y3 : Nat) (y4 : List Byte) : Keeps s0 (loadInstr s lane w y3 y4) := by
  induction y3 generalizing s w y4 with
  | zero => exact h
  | succ n ih => unfold loadInstr; exact ih (wrBytes_keeps h _ _) _ _

theorem State.loadCells_keeps {s0 s : State} (h : Keeps s0 s) (c : Nat) (y2 : Nat) (y3 : List Byte) : Keeps s0 (loadCells s c y2 y3) := by
  induction y2 generalizing s c y3 with
  | zero => exact h
  | succ n ih =>
    unfold loadCells
    exact ih (Keeps.ite (setCellBase_keeps (wrBytes_keeps h _ _) _ _) (wrBytes_keeps h _ _)) _ _

theorem State.loadPantry_keeps {s0 s : State} (h : Keeps s0 s) (o : Nat) (bs : List Byte) : Keeps s0 (loadPantry s o bs) := by
  unfold loadPantry
  repeat' first
    | refine fun x => ?_
    | with_reducible assumption
    | with_reducible first | apply State.wrLines_keeps | apply State.dirty_keeps
    | with_reducible refine Keeps.foldl ?_ ?_

theorem State.sectLoad_keeps {s0 s : State} (h : Keeps s0 s) (ty : Nat) (idx : Nat) (bs : List Byte) : Keeps s0 (sectLoad s ty idx bs) := by
  unfold sectLoad
  repeat' first
    | with_reducible assumption
    | with_reducible first | apply State.loadInstr_keeps | apply State.wrBytes_keeps | apply State.configRecords_keeps | apply State.loadPantry_keeps | apply State.loadCells_keeps
    | split

theorem State.sectRun_keeps {s0 s : State} (h : Keeps s0 s) (cold : Bool) (total : Nat) (y3 : List (List Byte)) : Keeps s0 (sectRun s cold total y3).2 := by
  induction y3 generalizing s with
  | nil => exact h
  | cons e t ih =>
    unfold sectRun
    exact Keeps.ite2 (ih h) (Keeps.ite2 h (Keeps.ite2 h (ih (sectLoad_keeps h ..))))

theorem State.bootProject_keeps {s0 s : State} (h : Keeps s0 s) (cold : Bool) : Keeps s0 (bootProject s cold) := by
  unfold bootProject
  repeat' first
    | with_reducible assumption
    | with_reducible first | apply State.sectRun_keeps | apply State.free_keeps | apply State.setRb_keeps
    | ((try lift_lets); intro x; refine Keeps.cut (s := s0) (x := x) ?_ ?_; unfold x; rotate_left; intro hx; clear_value x; rotate_right)
    | ((try lift_lets); intro x; refine Keeps.cut (s := s0) (x := x.2) ?_ ?_; unfold x; rotate_left; intro hx; clear_value x; rotate_right)
    | ((try lift_lets); intro x; clear_value x)
    | split
    | ((conv in (State.mk ..) => skip); with_reducible apply Keeps.mkUpd)

theorem State.bootConfig_keeps {s0 s : State} (h : Keeps s0 s)  : Keeps s0 (bootConfig s) := by
  unfold bootConfig
  repeat' first
    | with_reducible assumption
    | with_reducible first | apply State.configRecords_keeps | apply State.setRb_keeps
    | with_reducible apply Keeps.ite

theorem State.bootRights_keeps {s0 s : State} (h : Keeps s0 s)  : Keeps s0 (bootRights s) := by
  unfold bootRights
  repeat' first
    | refine fun x => ?_
    | with_reducible assumption
    | with_reducible first | apply State.setBootPhase_keeps | apply State.setReg_keeps | apply State.raise_keeps | apply State.domForce_keeps | apply State.setCore_keeps
    | with_reducible apply Keeps.ite
    | with_reducible refine Keeps.foldl ?_ ?_
    | ((conv in (State.mk ..) => skip); with_reducible apply Keeps.mkUpd)

theorem State.bootLast_keeps {s0 s : State} (h : Keeps s0 s)  : Keeps s0 (bootLast s) := by
  unfold bootLast
  repeat' first
    | with_reducible assumption
    | with_reducible first | apply State.bootRights_keeps | apply State.mapCheck_keeps | apply State.bootConfig_keeps | apply State.setBootPhase_keeps | apply State.bootProject_keeps
    | with_reducible apply Keeps.ite

theorem State.bootPulp_keeps {s0 s : State} (h : Keeps s0 s)  : Keeps s0 (bootPulp s) := by
  unfold bootPulp
  repeat' first
    | with_reducible assumption
    | with_reducible first | apply State.setBootPhase_keeps | apply State.bootLast_keeps | apply State.slotFallback_keeps | apply State.pulpTaken_keeps | apply State.setRb_keeps
    | with_reducible apply Keeps.ite
    | split
    | ((conv in (State.mk ..) => skip); with_reducible apply Keeps.mkUpd)

theorem State.install_keeps {s0 s : State} (h : Keeps s0 s) (d : Drupe) (img : List Byte) : Keeps s0 (install s d img) := by
  unfold install
  repeat' first
    | with_reducible assumption
    | with_reducible first | apply State.flashErase_keeps | apply State.wrBytes_keeps | apply State.putSess_keeps

theorem State.bootUpdate_keeps {s0 s : State} (h : Keeps s0 s)  : Keeps s0 (bootUpdate s) := by
  unfold bootUpdate
  repeat' first
    | refine fun x => ?_
    | with_reducible assumption
    | with_reducible first | apply State.setBootPhase_keeps | apply State.bootPulp_keeps | apply State.setReg_keeps | apply setReg_keeps | apply State.putSess_keeps | apply State.install_keeps | apply State.beginReset_keeps | apply State.setRb_keeps
    | with_reducible apply Keeps.ite
    | split
    | ((conv in (State.mk ..) => skip); with_reducible apply Keeps.mkUpd)

theorem State.bootQspi_keeps {s0 s : State} (h : Keeps s0 s)  : Keeps s0 (bootQspi s) := by
  unfold bootQspi
  repeat' first
    | with_reducible assumption
    | with_reducible first | apply State.free_keeps | apply State.setReg_keeps

theorem State.romInstall_keeps {s0 s : State} (h : Keeps s0 s)  : Keeps s0 (romInstall s) := by
  unfold romInstall
  repeat' first
    | refine fun x => ?_
    | with_reducible assumption
    | with_reducible first | apply State.setReg_keeps | apply setReg_keeps | apply State.putSess_keeps | apply State.install_keeps | apply State.setRb_keeps
    | with_reducible apply Keeps.ite
    | split
    | ((conv in (State.mk ..) => skip); with_reducible apply Keeps.mkUpd)

theorem State.bootStone_keeps {s0 s : State} (h : Keeps s0 s)  : Keeps s0 (bootStone s) := by
  unfold bootStone
  repeat' first
    | with_reducible assumption
    | with_reducible first | apply State.setBootPhase_keeps | apply State.bootQspi_keeps | apply State.setRb_keeps | apply State.stoneTaken_keeps | apply State.slotFallback_keeps | apply State.bootUpdate_keeps | apply State.romInstall_keeps | apply State.bootFail_keeps
    | with_reducible apply Keeps.ite
    | ((try lift_lets); intro x; refine Keeps.cut (s := s0) (x := x) ?_ ?_; unfold x; rotate_left; intro hx; clear_value x; rotate_right)
    | ((try lift_lets); intro x; refine Keeps.cut (s := s0) (x := x.2) ?_ ?_; unfold x; rotate_left; intro hx; clear_value x; rotate_right)
    | ((try lift_lets); intro x; clear_value x)
    | split
    | ((conv in (State.mk ..) => skip); with_reducible apply Keeps.mkUpd)

theorem State.romGo_keeps {s0 s : State} (h : Keeps s0 s) (o : BootObs) : Keeps s0 (romGo s o) := by
  unfold romGo
  repeat' first
    | with_reducible assumption
    | with_reducible first | apply State.setReg_keeps | apply setReg_keeps | apply State.bootDomains_keeps | apply State.setRf_keeps | apply State.setRb_keeps | apply State.bootFail_keeps | apply State.bootSelfTest_keeps | apply State.keepRecover_keeps | apply State.bootCurve_keeps | apply State.bootStone_keeps
    | with_reducible apply Keeps.ite
    | split
    | ((conv in (State.mk ..) => skip); with_reducible apply Keeps.mkUpd)

theorem State.hostGo_keeps {s0 s : State} (h : Keeps s0 s)  : Keeps s0 (hostGo s) := by
  unfold hostGo
  repeat' first
    | with_reducible assumption
    | with_reducible first | apply State.setRb_keeps | apply State.free_keeps | apply State.setRf_keeps | apply State.bootUpdate_keeps | apply State.stoneTaken_keeps | apply State.bootLast_keeps | apply State.pulpTaken_keeps
    | ((try lift_lets); intro x; refine Keeps.cut (s := s0) (x := x) ?_ ?_; unfold x; rotate_left; intro hx; clear_value x; rotate_right)
    | ((try lift_lets); intro x; refine Keeps.cut (s := s0) (x := x.2) ?_ ?_; unfold x; rotate_left; intro hx; clear_value x; rotate_right)
    | ((try lift_lets); intro x; clear_value x)
    | split
    | ((conv in (State.mk ..) => skip); with_reducible apply Keeps.mkUpd)

theorem State.hostbootWrite_keeps {s0 s : State} (h : Keeps s0 s) (v : Word) : Keeps s0 (hostbootWrite s v) := by
  unfold hostbootWrite
  repeat' first
    | with_reducible assumption
    | with_reducible first | apply State.hostGo_keeps | apply State.setReg_keeps

theorem State.bootEnd_keeps {s0 s : State} (h : Keeps s0 s) (us : Nat) : Keeps s0 (bootEnd s us) := by
  unfold bootEnd
  refine Keeps.ite h ?_
  lift_lets
  intro u1 svc run u2 src2
  have h1 : Keeps s0 u1 := raise_keeps (setReg_keeps h _ _) _ _
  have h2 : Keeps s0 u2 := changeMode_keeps h1 _ _
  clear_value src2 u2
  intro u3
  have h3 : Keeps s0 u3 := Keeps.ite (changeMode_keeps h1 _ _) (Keeps.ite (changeMode_keeps h1 _ _) (Keeps.ite (changeMode_keeps h1 _ _) (Keeps.mkUpd h2 ..)))
  clear_value u3
  intro u4
  have h4 : Keeps s0 u4 := rtcBootAlarms_keeps h3
  clear_value u4
  intro u5
  have h5 : Keeps s0 u5 := Keeps.ite (raise_keeps h4 _ _) h4
  clear_value u5
  intro u6
  have h6 : Keeps s0 u6 := Keeps.ite (raise_keeps h5 _ _) h5
  clear_value u6
  intro u7
  have h7 : Keeps s0 u7 := by
    unfold u7
    split
    · exact raise_keeps h6 _ _
    · exact raise_keeps h6 _ _
    · exact h6
  clear_value u7
  intro src8 u8
  have h8 : Keeps s0 u8 := Keeps.mkUpd h7 ..
  clear_value u8
  exact Keeps.ite (raise_keeps h8 _ _) h8

theorem State.softEnd_keeps {s0 s : State} (h : Keeps s0 s) (p : Nat) : Keeps s0 (softEnd s p) := by
  unfold softEnd
  repeat' first
    | with_reducible assumption
    | with_reducible first | apply State.softClear_keeps | apply State.tpoReset_keeps | apply State.canSoft_keeps | apply State.syncBusy_keeps | apply State.setRb_keeps
    | split
    | ((conv in (State.mk ..) => skip); with_reducible apply Keeps.mkUpd)

theorem State.agentStore_keeps {s0 s : State} (h : Keeps s0 s) (ag : Agent) (a : Nat) (bs : List Byte) : Keeps s0 (agentStore s ag a bs) := by
  unfold agentStore
  repeat' first
    | with_reducible assumption
    | with_reducible first | apply State.hostGo_keeps | apply State.agentWrite_keeps

theorem execRegisterWrite_keeps {s0 s : State} (h : Keeps s0 s) (ag : Agent) (addr : Word) (n : Extent) (v : DWord) : Keeps.Out s0 (execRegisterWrite ag addr n v s) := by
  unfold execRegisterWrite
  repeat' first
    | with_reducible assumption
    | with_reducible first | apply State.gapAccess_keeps | apply State.agentStore_keeps
    | with_reducible apply Keeps.out
    | with_reducible apply Keeps.ite
    | with_reducible apply Keeps.outIte
    | split
    | ((conv in (State.mk ..) => skip); with_reducible apply Keeps.mkUpd)

theorem execSoftRstEnd_keeps {s0 s : State} (h : Keeps s0 s) (page : Fin 37) : Keeps.Out s0 (execSoftRstEnd page s) := by
  unfold execSoftRstEnd
  repeat' first
    | with_reducible assumption
    | with_reducible first | apply State.softEnd_keeps
    | with_reducible apply Keeps.out

theorem execRomStart_keeps {s0 s : State} (h : Keeps s0 s) (obs : BootObs) : Keeps.Out s0 (execRomStart obs s) := by
  unfold execRomStart
  repeat' first
    | with_reducible assumption
    | with_reducible first | apply State.romGo_keeps
    | with_reducible apply Keeps.out
    | with_reducible apply Keeps.ite
    | with_reducible apply Keeps.outIte
    | split
    | ((conv in (State.mk ..) => skip); with_reducible apply Keeps.mkUpd)

theorem execHostbootGo_keeps {s0 s : State} (h : Keeps s0 s) (ag : Agent) (v : Word) : Keeps.Out s0 (execHostbootGo ag v s) := by
  unfold execHostbootGo
  repeat' first
    | refine fun x => ?_
    | with_reducible assumption
    | with_reducible first | apply State.regWrite_keeps | apply State.hostbootWrite_keeps
    | with_reducible apply Keeps.out

theorem execBootDone_keeps {s0 s : State} (h : Keeps s0 s) (us : BitVec 24) : Keeps.Out s0 (execBootDone us s) := by
  unfold execBootDone
  repeat' first
    | with_reducible assumption
    | with_reducible first | apply State.bootEnd_keeps
    | with_reducible apply Keeps.out

end Sys2Proof.Machine
end

