-- ==== Sys2Proof/Laws/KeepsCycle.lean ====
section
/-! SUPPORT. `Keeps` of the operations and meanings of Machine/Cycle.lean. -/

-- one declaration at a time: many at once take a thread and its stack each
set_option Elab.async false

set_option linter.all false

namespace Sys2Proof.Machine

open State

theorem State.overrun_keeps {s0 s : State} (h : Keeps s0 s)  : Keeps s0 (overrun s) := by
  unfold overrun
  repeat' first
    | with_reducible assumption
    | with_reducible first | apply State.setReg_keeps | apply State.setPhase_keeps | apply State.abortTasks_keeps | apply State.stopAllSolving_keeps | apply State.safeHalt_keeps | apply State.raise_keeps
    | split
    | ((conv in (State.mk ..) => skip); with_reducible apply Keeps.mkUpd)

theorem State.apply_keeps {s0 s : State} (h : Keeps s0 s)  : Keeps s0 (apply s) := by
  unfold apply
  repeat' first
    | with_reducible assumption
    | with_reducible first | apply State.publishDue_keeps | apply State.rndPush_keeps | apply State.raise_keeps | apply State.pubLate_keeps | apply State.graftApply_keeps | apply State.setPhase_keeps
    | with_reducible apply Keeps.ite
    | split
    | ((conv in (State.mk ..) => skip); with_reducible apply Keeps.mkUpd)

theorem State.cycleClose_keeps {s0 s : State} (h : Keeps s0 s)  : Keeps s0 (cycleClose s) := by
  unfold cycleClose
  repeat' first
    | with_reducible assumption
    | with_reducible first | apply State.overrun_keeps | apply State.apply_keeps | apply State.postpone_keeps
    | with_reducible apply Keeps.ite
    | split
    | ((conv in (State.mk ..) => skip); with_reducible apply Keeps.mkUpd)

theorem State.publishCopied_keeps {s0 s : State} (h : Keeps s0 s)  : Keeps s0 (publishCopied s) := by
  unfold publishCopied
  repeat' first
    | with_reducible assumption
    | with_reducible first | apply State.publishDue_keeps | apply State.copyWords_keeps | apply State.publish_keeps | apply State.setRb_keeps | apply State.ownDigest_keeps
    | with_reducible apply Keeps.ite
    | split
    | ((conv in (State.mk ..) => skip); with_reducible apply Keeps.mkUpd)

theorem State.spareTakes_keeps {s0 s : State} (h : Keeps s0 s) (b : Nat) (c : Copy) : Keeps s0 (spareTakes s b c) := by
  unfold spareTakes
  repeat' first
    | with_reducible assumption
    | with_reducible first | apply State.setRb_keeps | apply State.setReg_keeps

theorem State.sparing_keeps {s0 s : State} (h : Keeps s0 s)  : Keeps s0 (sparing s) := by
  unfold sparing
  repeat' first
    | refine fun x => ?_
    | with_reducible assumption
    | with_reducible first | apply State.spareTakes_keeps
    | with_reducible refine Keeps.foldl ?_ ?_
    | ((conv in (State.mk ..) => skip); with_reducible apply Keeps.mkUpd)

theorem State.startCycle_keeps {s0 s : State} (h : Keeps s0 s) (n : Nat) (cts : Nat) (tn : Nat) (held : Bool) : Keeps s0 (startCycle s n cts tn held) := by
  unfold startCycle
  repeat' first
    | with_reducible assumption
    | with_reducible first | apply State.raise_keeps | apply State.setReg64_keeps
    | ((conv in (State.mk ..) => skip); with_reducible apply Keeps.mkUpd)

theorem State.startLane_keeps {s0 s : State} (h : Keeps s0 s) (k : Nat) : Keeps s0 (startLane s k) := by
  unfold startLane
  repeat' first
    | with_reducible assumption
    | with_reducible first | apply State.endStop_keeps | apply exec_keeps | apply State.setCtx_keeps | apply State.clearBufs_keeps | apply State.setCore_keeps
    | with_reducible apply Keeps.ite
    | split
    | ((conv in (State.mk ..) => skip); with_reducible apply Keeps.mkUpd)

theorem State.solveStart_keeps {s0 s : State} (h : Keeps s0 s)  : Keeps s0 (solveStart s) := by
  unfold solveStart
  repeat' first
    | refine fun x => ?_
    | with_reducible assumption
    | with_reducible first | apply State.setPhase_keeps | apply State.startLane_keeps | apply State.setRf_keeps
    | with_reducible refine Keeps.foldl ?_ ?_
    | ((try lift_lets); intro x; refine Keeps.cut (s := s0) (x := x) ?_ ?_; unfold x; rotate_left; intro hx; clear_value x; rotate_right)
    | ((try lift_lets); intro x; clear_value x)
    | split
    | ((conv in (State.mk ..) => skip); with_reducible apply Keeps.mkUpd)

theorem State.heldCycle_keeps {s0 s : State} (h : Keeps s0 s)  : Keeps s0 (heldCycle s) := by
  unfold heldCycle
  repeat' first
    | with_reducible assumption
    | with_reducible first | apply State.setPhase_keeps | apply State.raise_keeps | apply State.bump_keeps | apply State.ownDigest_keeps | apply State.publishOut_keeps
    | split
    | ((conv in (State.mk ..) => skip); with_reducible apply Keeps.mkUpd)

theorem State.freeze_keeps {s0 s : State} (h : Keeps s0 s) (n : Nat) (first : Bool) : Keeps s0 (freeze s n first) := by
  unfold freeze
  repeat' first
    | with_reducible assumption
    | with_reducible first | apply State.safeHalt_keeps | apply State.freezeImage_keeps | apply State.stnBlocks_keeps | apply State.canFill_keeps | apply State.vuvFreeze_keeps | apply State.localErr_keeps | apply State.vuvFrozen_keeps | apply State.startCycle_keeps | apply State.updateCells_keeps | apply State.setReg64_keeps | apply State.clearAll_keeps | apply State.deltaTx_keeps | apply State.fcBegin_keeps | apply State.heldCycle_keeps | apply State.solveStart_keeps | apply State.setPhase_keeps
    | with_reducible apply Keeps.ite
    | split
    | ((conv in (State.mk ..) => skip); with_reducible apply Keeps.mkUpd)

theorem State.twinCounts_keeps {s0 s : State} (h : Keeps s0 s)  : Keeps s0 (twinCounts s) := by
  unfold twinCounts
  repeat' first
    | with_reducible assumption
    | with_reducible first | apply State.setReg_keeps
    | ((try lift_lets); intro x; refine Keeps.cut (s := s0) (x := x) ?_ ?_; unfold x; rotate_left; intro hx; clear_value x; rotate_right)
    | ((try lift_lets); intro x; clear_value x)
    | split
    | ((conv in (State.mk ..) => skip); with_reducible apply Keeps.mkUpd)

theorem State.takeover_keeps {s0 s : State} (h : Keeps s0 s) (n : Nat) (cause : Nat) : Keeps s0 (takeover s n cause) := by
  unfold takeover
  repeat' first
    | with_reducible assumption
    | with_reducible first | apply State.acquireLead_keeps | apply State.changeMode_keeps | apply State.bump_keeps | apply State.setReg_keeps | apply State.raise_keeps
    | ((conv in (State.mk ..) => skip); with_reducible apply Keeps.mkUpd)

theorem State.twinTakeover_keeps {s0 s : State} (h : Keeps s0 s) (n : Nat) : Keeps s0 (twinTakeover s n) := by
  unfold twinTakeover
  repeat' first
    | with_reducible assumption
    | with_reducible first | apply State.takeover_keeps
    | split

theorem State.switchFail_keeps {s0 s : State} (h : Keeps s0 s) (tries : Nat) : Keeps s0 (switchFail s tries) := by
  unfold switchFail
  repeat' first
    | with_reducible assumption
    | with_reducible first | apply State.raise_keeps | apply State.setReg_keeps
    | ((try lift_lets); intro x; refine Keeps.cut (s := s0) (x := x) ?_ ?_; unfold x; rotate_left; intro hx; clear_value x; rotate_right)
    | ((try lift_lets); intro x; clear_value x)
    | ((conv in (State.mk ..) => skip); with_reducible apply Keeps.mkUpd)

theorem State.twinSwitch_keeps {s0 s : State} (h : Keeps s0 s) (n : Nat) : Keeps s0 (twinSwitch s n) := by
  unfold twinSwitch
  repeat' first
    | with_reducible assumption
    | with_reducible first | apply State.raise_keeps | apply State.takeover_keeps | apply State.switchFail_keeps | apply State.setReg_keeps | apply State.twnCmd_keeps
    | ((try lift_lets); intro x; refine Keeps.cut (s := s0) (x := x) ?_ ?_; unfold x; rotate_left; intro hx; clear_value x; rotate_right)
    | ((try lift_lets); intro x; clear_value x)
    | split
    | ((conv in (State.mk ..) => skip); with_reducible apply Keeps.mkUpd)

theorem State.syncLost_keeps {s0 s : State} (h : Keeps s0 s) (n : Nat) : Keeps s0 (syncLost s n) := by
  unfold syncLost
  repeat' first
    | with_reducible assumption
    | with_reducible first | apply State.raise_keeps | apply State.changeMode_keeps
    | split

theorem State.stopLead_keeps {s0 s : State} (h : Keeps s0 s)  : Keeps s0 (stopLead s) := by
  unfold stopLead
  repeat' first
    | with_reducible assumption
    | with_reducible first | apply State.acquireLead_keeps
    | with_reducible apply Keeps.ite
    | ((conv in (State.mk ..) => skip); with_reducible apply Keeps.mkUpd)

theorem State.afterRow_keeps {s0 s : State} (h : Keeps s0 s) (n : Nat) (row : Nat) : Keeps s0 (afterRow s n row) := by
  unfold afterRow
  repeat' first
    | with_reducible assumption
    | with_reducible first | apply State.raise_keeps | apply State.setRf_keeps
    | ((try lift_lets); intro x; refine Keeps.cut (s := s0) (x := x) ?_ ?_; unfold x; rotate_left; intro hx; clear_value x; rotate_right)
    | ((try lift_lets); intro x; clear_value x)
    | split
    | ((conv in (State.mk ..) => skip); with_reducible apply Keeps.mkUpd)

theorem State.boundaryTrans_keeps {s0 s : State} (h : Keeps s0 s) (n : Nat) (y2 : Nat) : Keeps s0 (boundaryTrans s n y2) := by
  induction y2 generalizing s with
  | zero => exact h
  | succ m ih =>
    unfold boundaryTrans
    split
    · exact Keeps.ite (ih (afterRow_keeps (changeMode_keeps h _ _) _ _)) h
    · exact h

theorem State.skipped_keeps {s0 s : State} (h : Keeps s0 s) (n : Nat) : Keeps s0 (skipped s n) := by
  unfold skipped
  repeat' first
    | with_reducible assumption
    | with_reducible first | apply State.raise_keeps | apply State.count_keeps
    | split

theorem State.boundarySwap_keeps {s0 s : State} (h : Keeps s0 s) (n : Nat) : Keeps s0 (boundarySwap s n) := by
  unfold boundarySwap
  repeat' first
    | refine fun x => ?_
    | with_reducible assumption
    | with_reducible first | apply State.safeHalt_keeps | apply State.configSwap_keeps | apply State.setRb_keeps
    | with_reducible apply Keeps.ite
    | split
    | ((conv in (State.mk ..) => skip); with_reducible apply Keeps.mkUpd)

theorem State.setLastB_keeps {s0 s : State} (h : Keeps s0 s) (n : Nat) : Keeps s0 (setLastB s n) := by
  unfold setLastB
  repeat' first
    | with_reducible assumption
    | ((conv in (State.mk ..) => skip); with_reducible apply Keeps.mkUpd)

theorem State.beforeFreeze_keeps {s0 s : State} (h : Keeps s0 s) (n : Nat) : Keeps s0 (beforeFreeze s n) := by
  unfold beforeFreeze
  repeat' first
    | with_reducible assumption
    | with_reducible first | apply State.safeHalt_keeps | apply State.deltaLate_keeps | apply State.twinTakeover_keeps | apply State.twinCounts_keeps | apply State.diverge_keeps | apply State.twinSwitch_keeps | apply State.setLastB_keeps | apply State.stopLead_keeps | apply State.syncLost_keeps | apply State.stnBoundary_keeps | apply State.boundaryTrans_keeps | apply State.boundarySwap_keeps
    | split

theorem State.runBoundary_keeps {s0 s : State} (h : Keeps s0 s) (n : Nat) (switched : Bool) : Keeps s0 (runBoundary s n switched) := by
  unfold runBoundary
  repeat' first
    | with_reducible assumption
    | with_reducible first | apply State.boundarySwap_keeps | apply State.sparing_keeps | apply State.setLastB_keeps | apply State.afterRow_keeps | apply State.setRf_keeps | apply State.lanesResume_keeps | apply State.freeze_keeps | apply State.holdKeepalive_keeps
    | with_reducible apply Keeps.ite
    | ((conv in (State.mk ..) => skip); with_reducible apply Keeps.mkUpd)

theorem State.boundaryOf_keeps {s0 s : State} (h : Keeps s0 s) (n : Nat) : Keeps s0 (boundaryOf s n) := by
  unfold boundaryOf
  repeat' first
    | with_reducible assumption
    | with_reducible first | apply State.holdCycleEnd_keeps | apply State.cycleClose_keeps | apply State.skipped_keeps | apply State.beforeFreeze_keeps | apply State.publishDue_keeps | apply State.runBoundary_keeps
    | with_reducible apply Keeps.ite

theorem State.boundary_keeps {s0 s : State} (h : Keeps s0 s)  : Keeps s0 (boundary s) := by
  unfold boundary
  generalize s.cycleAt s.netT = o
  cases o with
  | none => exact h
  | some n => exact Keeps.ite h (boundaryOf_keeps h _)

theorem State.lagPut_keeps {s0 s : State} (h : Keeps s0 s) (tn : Nat) : Keeps s0 (lagPut s tn) := by
  unfold lagPut
  repeat' first
    | with_reducible assumption
    | with_reducible first | apply State.setReg_keeps
    | with_reducible apply Keeps.ite

theorem State.commitFreeze_keeps {s0 s : State} (h : Keeps s0 s) (d : Delta) : Keeps s0 (commitFreeze s d) := by
  unfold commitFreeze
  repeat' first
    | with_reducible assumption
    | with_reducible first | apply State.safeHalt_keeps | apply State.changeMode_keeps | apply State.vuvFreeze_keeps | apply State.applyDelta_keeps | apply State.freezeMarks_keeps | apply State.vuvFrozen_keeps | apply State.lagPut_keeps | apply State.startCycle_keeps | apply State.updateCells_keeps | apply State.clearAll_keeps | apply State.heldCycle_keeps | apply State.solveStart_keeps
    | with_reducible apply Keeps.ite
    | split
    | ((conv in (State.mk ..) => skip); with_reducible apply Keeps.mkUpd)

theorem State.commit_keeps {s0 s : State} (h : Keeps s0 s) (t : TRec) : Keeps s0 (commit s t) := by
  unfold commit
  repeat' first
    | with_reducible assumption
    | with_reducible first | apply State.count_keeps | apply State.diverge_keeps | apply State.applyDelta_keeps | apply State.grfFollow_keeps | apply State.commitFreeze_keeps
    | with_reducible apply Keeps.ite
    | split
    | ((conv in (State.mk ..) => skip); with_reducible apply Keeps.mkUpd)

theorem execInputFreeze_keeps {s0 s : State} (h : Keeps s0 s)  : Keeps.Out s0 (execInputFreeze s) := by
  unfold execInputFreeze
  repeat' first
    | with_reducible assumption
    | with_reducible first | apply State.boundary_keeps
    | with_reducible apply Keeps.out

theorem execHoldKeepalive_keeps {s0 s : State} (h : Keeps s0 s)  : Keeps.Out s0 (execHoldKeepalive s) := by
  unfold execHoldKeepalive
  repeat' first
    | with_reducible assumption
    | with_reducible first | apply State.boundary_keeps
    | with_reducible apply Keeps.out
    | split

theorem execPublishCopyDone_keeps {s0 s : State} (h : Keeps s0 s)  : Keeps.Out s0 (execPublishCopyDone s) := by
  unfold execPublishCopyDone
  repeat' first
    | with_reducible assumption
    | with_reducible first | apply State.publishCopied_keeps
    | with_reducible apply Keeps.out

theorem execOverrun_keeps {s0 s : State} (h : Keeps s0 s)  : Keeps.Out s0 (execOverrun s) := by
  unfold execOverrun
  repeat' first
    | with_reducible assumption
    | with_reducible first | apply State.overrun_keeps
    | with_reducible apply Keeps.out

theorem execApply_keeps {s0 s : State} (h : Keeps s0 s)  : Keeps.Out s0 (execApply s) := by
  unfold execApply
  repeat' first
    | with_reducible assumption
    | with_reducible first | apply State.apply_keeps
    | with_reducible apply Keeps.out
    | with_reducible apply Keeps.ite
    | with_reducible apply Keeps.outIte
    | split
    | ((conv in (State.mk ..) => skip); with_reducible apply Keeps.mkUpd)

theorem execCommitRx_keeps {s0 s : State} (h : Keeps s0 s) (r : List Byte) : Keeps.Out s0 (execCommitRx r s) := by
  unfold execCommitRx
  repeat' first
    | refine fun x => ?_
    | with_reducible assumption
    | with_reducible first | apply State.twnRx_keeps | apply State.commit_keeps
    | with_reducible apply Keeps.out
    | with_reducible apply Keeps.ite
    | with_reducible apply Keeps.outIte
    | split
    | ((conv in (State.mk ..) => skip); with_reducible apply Keeps.mkUpd)

end Sys2Proof.Machine
end

