-- ==== Sys2Proof/Laws/KeepsLimlisMem.lean ====
section
/-! SUPPORT. `Keeps` of the operations and meanings of Machine/LimlisMem.lean. -/

-- one declaration at a time: many at once take a thread and its stack each
set_option Elab.async false

set_option linter.all false

namespace Sys2Proof.Machine

open State

/-- `Keeps` of what a byte access answers. -/
structure Keeps.A (s : State) (a : Acc) : Prop where
  ok : ∀ b t, a = .ok b t → Keeps s t
  fault : ∀ t, a = .fault t → Keeps s t
  stall : ∀ t, a = .stall t → Keeps s t

theorem Keeps.aok {s t : State} (h : Keeps s t) (b : Byte) : Keeps.A s (.ok b t) :=
  ⟨fun _ _ e => (by cases e; exact h), fun _ e => (by cases e), fun _ e => (by cases e)⟩

theorem Keeps.afault {s t : State} (h : Keeps s t) : Keeps.A s (.fault t) :=
  ⟨fun _ _ e => (by cases e), fun _ e => (by cases e; exact h), fun _ e => (by cases e)⟩

theorem Keeps.astall {s t : State} (h : Keeps s t) : Keeps.A s (.stall t) :=
  ⟨fun _ _ e => (by cases e), fun _ e => (by cases e), fun _ e => (by cases e; exact h)⟩

theorem Keeps.aite {s : State} {a b : Acc} {c : Prop} [Decidable c] (ha : Keeps.A s a) (hb : Keeps.A s b) : Keeps.A s (if c then a else b) := by
  split
  · exact ha
  · exact hb

theorem State.stagePut_keepsA {s0 s : State} (h : Keeps s0 s) (c : Nat) (e : Entry) : Keeps.A s0 (s.stagePut c e) :=
  Keeps.aite (Keeps.aok (setCore_keeps h _ _) _) (Keeps.afault (laneFault_keeps h ..))

theorem State.leaveGroup_keeps {s0 s : State} (h : Keeps s0 s) (c : Nat) (id : Nat) : Keeps s0 (leaveGroup s c id) := by
  unfold leaveGroup
  repeat' first
    | with_reducible assumption
    | with_reducible first | apply State.endLock_keeps
    | with_reducible apply Keeps.ite
    | split
    | ((conv in (State.mk ..) => skip); with_reducible apply Keeps.mkUpd)

theorem State.takeGroup_keeps {s0 s : State} (h : Keeps s0 s) (c : Nat) (id : Nat) : Keeps s0 (takeGroup s c id) := by
  unfold takeGroup
  repeat' first
    | with_reducible assumption
    | with_reducible first | apply State.setCx_keeps | apply State.ownOnly_keeps
    | with_reducible apply Keeps.ite
    | split
    | ((conv in (State.mk ..) => skip); with_reducible apply Keeps.mkUpd)

theorem State.grant_keeps {s0 s : State} (h : Keeps s0 s) (c : Nat) (id : Nat) : Keeps s0 (grant s c id).2 := by
  unfold grant
  repeat' first
    | refine fun x => ?_
    | with_reducible assumption
    | with_reducible first | apply State.leaveGroup_keeps | apply State.ownOnly_keeps | apply State.takeGroup_keeps
    | with_reducible apply Keeps.ite
    | ((try lift_lets); intro x; refine Keeps.cut (s := s0) (x := x) ?_ ?_; unfold x; rotate_left; intro hx; clear_value x; rotate_right)
    | ((try lift_lets); intro x; refine Keeps.cut (s := s0) (x := x.2) ?_ ?_; unfold x; rotate_left; intro hx; clear_value x; rotate_right)
    | ((try lift_lets); intro x; clear_value x)
    | split
    | ((conv in (State.mk ..) => skip); with_reducible apply Keeps.mkUpd)

theorem State.granted_keepsA {s0 s : State} (h : Keeps s0 s) (c : Nat) (id : Nat) (f : State → Acc) (hf4 : ∀ x, Keeps s0 x → Keeps.A s0 (f x)) : Keeps.A s0 (granted s c id f) := by
  unfold granted
  exact Keeps.aite (hf4 _ (grant_keeps h ..)) (Keeps.astall (grant_keeps h ..))

theorem State.keepBeats_keeps {s0 s : State} (h : Keeps s0 s) (c : Nat) (left : Bool) (id : Option Nat) : Keeps s0 (keepBeats s c left id) := by
  unfold keepBeats
  repeat' first
    | with_reducible assumption
    | with_reducible first | apply State.ownOnly_keeps
    | with_reducible apply Keeps.ite
    | split
    | ((conv in (State.mk ..) => skip); with_reducible apply Keeps.mkUpd)

theorem State.panNote_keeps {s0 s : State} (h : Keeps s0 s) (c : Nat) (k : Nat) (w : Bool) : Keeps s0 (panNote s c k w) := by
  unfold panNote
  repeat' first
    | with_reducible assumption
    | with_reducible first | apply State.noteAcc_keeps
    | with_reducible apply Keeps.ite
    | split
    | ((conv in (State.mk ..) => skip); with_reducible apply Keeps.mkUpd)

theorem State.lcLatch_keeps {s0 s : State} (h : Keeps s0 s) (n : Nat) (o : Nat) (i : Nat) (v : Word) : Keeps s0 (lcLatch s n o i v).2 := by
  unfold lcLatch
  repeat' first
    | with_reducible assumption
    | split
    | ((conv in (State.mk ..) => skip); with_reducible apply Keeps.mkUpd)

theorem State.stwqTake_keeps {s0 s : State} (h : Keeps s0 s)  : Keeps s0 (stwqTake s).2 := by
  unfold stwqTake
  repeat' first
    | with_reducible assumption
    | split
    | ((conv in (State.mk ..) => skip); with_reducible apply Keeps.mkUpd)

theorem State.lcTpoLoad_keeps {s0 s : State} (h : Keeps s0 s) (n : Nat) (o : Nat) (i : Nat) : Keeps s0 (lcTpoLoad s n o i).2 := by
  unfold lcTpoLoad
  repeat' first
    | with_reducible assumption
    | with_reducible first | apply State.lcLatch_keeps
    | split

theorem State.lcLoad_keeps {s0 s : State} (h : Keeps s0 s) (c : Nat) (x : Ctx) (o : Nat) : Keeps s0 (lcLoad s c x o).2 := by
  unfold lcLoad
  repeat' first
    | with_reducible assumption
    | with_reducible first | apply State.lcLatch_keeps | apply State.stwqTake_keeps | apply State.lcTpoLoad_keeps
    | ((try lift_lets); intro x; refine Keeps.cut (s := s0) (x := x.2) ?_ ?_; unfold x; rotate_left; intro hx; clear_value x; rotate_right)
    | ((try lift_lets); intro x; clear_value x)
    | split

theorem State.swEvent_keeps {s0 s : State} (h : Keeps s0 s) (v : Byte) : Keeps s0 (swEvent s v) := by
  unfold swEvent
  repeat' first
    | with_reducible assumption
    | with_reducible first | apply State.raiseFree_keeps | apply State.free_keeps
    | with_reducible apply Keeps.ite

theorem State.lcStage_keeps {s0 s : State} (h : Keeps s0 s) (n : Nat) (o : Nat) (w : Word) : Keeps s0 (lcStage s n o w) := by
  unfold lcStage
  repeat' first
    | with_reducible assumption
    | ((conv in (State.mk ..) => skip); with_reducible apply Keeps.mkUpd)

theorem State.lcRind_keeps {s0 s : State} (h : Keeps s0 s) (n : Nat) (o : Nat) (v : Byte) (mask : Byte) : Keeps s0 (lcRind s n o v mask) := by
  unfold lcRind
  repeat' first
    | with_reducible assumption
    | with_reducible first | apply State.doutSet_keeps | apply State.lcStage_keeps
    | with_reducible apply Keeps.ite

theorem State.lcTpo_keeps {s0 s : State} (h : Keeps s0 s) (n : Nat) (t : Nat) (i : Nat) (v : Byte) : Keeps s0 (lcTpo s n t i v) := by
  unfold lcTpo
  repeat' first
    | refine fun x => ?_
    | with_reducible assumption
    | with_reducible first | apply State.lcStage_keeps | apply State.tpoArmWith_keeps
    | with_reducible refine Keeps.foldl ?_ ?_
    | split

theorem State.lcStore_keeps {s0 s : State} (h : Keeps s0 s) (c : Nat) (x : Ctx) (o : Nat) (v : Byte) (mask : Byte) : Keeps s0 (lcStore s c x o v mask) := by
  unfold lcStore
  repeat' first
    | with_reducible assumption
    | with_reducible first | apply State.swEvent_keeps | apply State.lcRind_keeps | apply State.lcTpo_keeps
    | with_reducible apply Keeps.ite

theorem State.scratchFault_keeps {s0 s : State} (h : Keeps s0 s) (c : Nat) (k : Nat) : Keeps s0 (scratchFault s c k) := by
  unfold scratchFault
  repeat' first
    | with_reducible assumption
    | with_reducible first | apply State.ueRecord_keeps | apply State.laneFault_keeps | apply State.svcStop_keeps
    | split

theorem State.bankLoad_keepsA {s0 s : State} (h : Keeps s0 s) (c : Nat) (k : Nat) (id : Nat) (f : State → Byte → Byte) : Keeps.A s0 (bankLoad s c k id f) :=
  granted_keepsA h _ _ _ fun _ hx => Keeps.aok (rdT_keeps hx _) _

theorem State.placeLoad_keepsA {s0 s : State} (h : Keeps s0 s) (c : Nat) (x : Ctx) (p : Place) : Keeps.A s0 (s.placeLoad c x p) := by
  cases p with
  | scratch k => exact Keeps.aite (Keeps.afault (scratchFault_keeps h _ _)) (Keeps.aok h _)
  | exch o => rw [placeLoad]; exact bankLoad_keepsA h ..
  | input o => rw [placeLoad]; exact bankLoad_keepsA h ..
  | output o => rw [placeLoad]; exact bankLoad_keepsA h ..
  | status o => rw [placeLoad]; exact bankLoad_keepsA h ..
  | zero => exact Keeps.aok h _
  | bad o => exact Keeps.aok (free_keeps h) _
  | pantry k =>
    rw [placeLoad]
    refine granted_keepsA h _ _ _ fun u hu => ?_
    exact Keeps.aite (Keeps.aok (wr_keeps (panNote_keeps (free_keeps (rdT_keeps hu _)) ..) ..) _) (Keeps.aok (panNote_keeps (rdT_keeps hu _) ..) _)
  | cell n i => rw [placeLoad]; exact granted_keepsA h _ _ _ fun _ hx => Keeps.aok (cellRead_keeps hx ..) _
  | const k => exact Keeps.aok h _
  | control o => exact Keeps.aok (lcLoad_keeps h ..) _
  | sram k => exact Keeps.aok h _
  | far a => rw [placeLoad]; exact Keeps.aite (Keeps.astall h) (Keeps.aok (busRead_keeps h ..) _)

theorem State.loadByte_keepsA {s0 s : State} (h : Keeps s0 s) (c : Nat) (x : Ctx) (a : Nat) : Keeps.A s0 (s.loadByte c x a) := by
  have hp := placeLoad_keepsA h c x (placeOf c s.activeHalf x (a % 65536))
  unfold loadByte
  dsimp only
  split
  · rename_i b t e
    have ht := hp.ok _ _ e
    split
    · split
      · exact Keeps.aok ht _
      · exact Keeps.aok ht _
    · exact Keeps.aok ht _
    · exact Keeps.aok ht _
  · exact hp

theorem State.remember_keeps {s0 s : State} (h : Keeps s0 s) (c : Nat) (k : Nat) (old : Byte) : Keeps s0 (remember s c k old) := by
  unfold remember
  repeat' first
    | with_reducible assumption
    | with_reducible first | apply State.setCx_keeps

theorem State.putPlain_keeps {s0 s : State} (h : Keeps s0 s) (c : Nat) (k : Nat) (v : Byte) (mask : Byte) : Keeps s0 (putPlain s c k v mask) := by
  unfold putPlain
  repeat' first
    | with_reducible assumption
    | with_reducible first | apply State.wr_keeps | apply State.remember_keeps

theorem State.cellStore_keeps {s0 s : State} (h : Keeps s0 s) (c : Nat) (x : Ctx) (n : Nat) (i : Nat) (v : Byte) (mask : Byte) : Keeps s0 (cellStore s c x n i v mask) := by
  unfold cellStore
  repeat' first
    | with_reducible assumption
    | with_reducible first | apply State.setCx_keeps | apply State.cellWriteByte_keeps
    | split

theorem State.staged1_keepsA {s0 s : State} (h : Keeps s0 s) (c : Nat) (x : Ctx) (w : Staged) (k : Nat) (v : Byte) (mask : Byte) : Keeps.A s0 (s.staged1 c x w k v mask) := by
  have hp := stagePut_keepsA h c ⟨w, mask, v &&& mask⟩
  unfold staged1
  refine Keeps.aite (Keeps.aok h _) ?_
  split
  · exact Keeps.aok (remember_keeps (hp.ok _ _ ‹_›) ..) _
  · exact hp

theorem State.placeStore_keepsA {s0 s : State} (h : Keeps s0 s) (c : Nat) (x : Ctx) (v : Byte) (mask : Byte) (p : Place) : Keeps.A s0 (s.placeStore c x v mask p) := by
  cases p with
  | scratch k => exact Keeps.aite (Keeps.afault (scratchFault_keeps h _ _)) (Keeps.aok (putPlain_keeps h ..) _)
  | exch o => exact staged1_keepsA h ..
  | output o => exact staged1_keepsA h ..
  | bad o =>
    rw [placeStore]
    exact Keeps.aite (staged1_keepsA (free_keeps h) ..) (Keeps.aok (free_keeps h) _)
  | pantry k =>
    rw [placeStore]
    refine granted_keepsA h _ _ _ fun u hu => ?_
    have ht := panNote_keeps (dirty_keeps (putPlain_keeps (touch_keeps hu k) c k v mask) k x.task.isSome) c k true
    exact Keeps.aite (Keeps.aok (wr_keeps (free_keeps ht) ..) _) (Keeps.aok ht _)
  | cell n i =>
    rw [placeStore]
    exact Keeps.aite (granted_keepsA h _ _ _ fun _ hx => Keeps.aok (cellStore_keeps hx ..) _) (Keeps.aok h _)
  | control o => exact Keeps.aok (lcStore_keeps h ..) _
  | sram k => exact Keeps.aok (putPlain_keeps h ..) _
  | far a =>
    rw [placeStore]
    have hr : Keeps s0 (if mask = 255 then ([], s) else s.busRead (farAgent c) a 1).2 := Keeps.ite2 h (busRead_keeps h ..)
    generalize (if mask = 255 then ([], s) else s.busRead (farAgent c) a 1) = r at hr ⊢
    refine Keeps.aite (Keeps.astall h) (Keeps.aok (agentStore_keeps ?_ ..) _)
    split
    · exact remember_keeps hr ..
    · exact hr
  | input o => exact Keeps.aok h _
  | status o => exact Keeps.aok h _
  | zero => exact Keeps.aok h _
  | const o => exact Keeps.aok h _

theorem State.storeByte_keepsA {s0 s : State} (h : Keeps s0 s) (c : Nat) (x : Ctx) (a : Nat) (v : Byte) (mask : Byte) : Keeps.A s0 (s.storeByte c x a v mask) :=
  placeStore_keepsA h ..

theorem State.setRepK_keeps {s0 s : State} (h : Keeps s0 s) (c : Nat) (k : Bool) (acc : Bool) : Keeps s0 (setRepK s c k acc) := by
  unfold setRepK
  repeat' first
    | with_reducible assumption
    | with_reducible first | apply State.setCx_keeps

theorem State.noEff_keeps {s0 s : State} (h : Keeps s0 s) (a : Acc) (ha : Keeps.A s0 a) : Keeps s0 (s.noEff a).st := by
  unfold noEff
  split
  · exact ha.fault _ rfl
  · exact ha.stall _ rfl
  · exact h

theorem State.freeLoad_keeps {s0 s : State} (h : Keeps s0 s) (x : Ctx) (g : Nat) (pb : Nat) : Keeps s0 (freeLoad s x g pb).st := by
  unfold freeLoad
  repeat' first
    | with_reducible assumption
    | with_reducible first | apply State.free_keeps

theorem State.pairFault_keeps {s0 s : State} (h : Keeps s0 s) (c : Nat) (x : Ctx) (a : Nat) (store : Bool) : ∀ t, (pairFault s c x a store) = some t → Keeps s0 t := by
  have ite' : ∀ (p : Prop) [Decidable p] (u t : State), Keeps s0 u → (if p then some u else none) = some t → Keeps s0 t := by
    intro p _ u t hu ht
    split at ht
    · cases ht; exact hu
    · cases ht
  intro t
  unfold pairFault
  dsimp only
  generalize placeOf c s.activeHalf x ((a + 1) % 65536) = p
  cases p with
  | scratch k => exact ite' _ _ _ (scratchFault_keeps h ..)
  | _ => exact ite' _ _ _ (laneFault_keeps h ..)

theorem State.pairBeats_keeps {s0 s : State} (h : Keeps s0 s) (c : Nat) (x : Ctx) (a : Nat) (store : Bool) (split : Bool) (beat : State → Nat → Acc) (hb : ∀ t n, Keeps s0 t → Keeps.A s0 (beat t n))
    (eff : Byte → Byte → State → Eff) (he : ∀ b g t, Keeps s0 t → Keeps s0 (eff b g t).st) : Keeps s0 (pairBeats s c x a store split beat eff).st := by
  have hl : ∀ (b : Byte) (t : State), Keeps s0 t → Keeps s0 (match beat t (a + 1) with
      | .ok g u => eff b g (u.keepBeats c (!repLast x) (if store then s.storeArb x (placeOf c s.activeHalf x ((a + 1) % 65536)) else loadArb (placeOf c s.activeHalf x ((a + 1) % 65536))))
      | .stall u => { st := u.setCx c { u.cx c with beat := some b }, did := false }
      | .fault u => { st := u, did := false }).st := by
    intro b t ht
    have hA := hb t (a + 1) ht
    cases e : beat t (a + 1) with
    | ok g u => exact he _ _ _ (keepBeats_keeps (hA.ok _ _ e) ..)
    | stall u => exact setCx_keeps (hA.stall _ e) ..
    | fault u => exact hA.fault _ e
  unfold pairBeats
  dsimp only
  split
  · exact hl _ _ h
  · have h1 := hb s a h
    cases e : beat s a with
    | ok b t =>
      have ht := h1.ok _ _ e
      dsimp only
      split
      · exact pairFault_keeps h _ _ _ _ _ ‹_›
      · have hk := keepBeats_keeps ht c true (if store then s.storeArb x (placeOf c s.activeHalf x (a % 65536)) else loadArb (placeOf c s.activeHalf x (a % 65536)))
        cases split with
        | true => exact setCx_keeps hk ..
        | false => exact hl _ _ hk
    | stall u => exact h1.stall _ e
    | fault u => exact h1.fault _ e

theorem State.ldEff_keeps {s0 s : State} (h : Keeps s0 s) (c : Nat) (g : Nat) (pb : Nat) (disp : Nat) (x : Ctx) : Keeps s0 (ldEff s c g pb disp x).st := by
  have h1 := loadByte_keepsA h c x (eaByte x pb disp 1)
  unfold ldEff
  dsimp only
  split
  · exact freeLoad_keeps h ..
  · split
    · exact keepBeats_keeps (h1.ok _ _ ‹_›) ..
    · exact noEff_keeps h _ h1

theorem State.ldOp_keeps {s0 s : State} (h : Keeps s0 s) (c : Nat) (g : Nat) (pb : Nat) (disp : Nat) : Keeps s0 (ldOp s c g pb disp) :=
  issue_keeps h _ _ _ fun _ _ hu => ldEff_keeps hu ..

theorem State.ldpEff_keeps {s0 s : State} (h : Keeps s0 s) (c : Nat) (g : Nat) (pb : Nat) (disp : Nat) (split : Bool) (x : Ctx) : Keeps s0 (ldpEff s c g pb disp split x).st := by
  unfold ldpEff
  split
  · exact freeLoad_keeps h ..
  · exact pairBeats_keeps h _ _ _ _ _ _ (fun t n ht => loadByte_keepsA ht ..) _ fun _ _ _ ht => ht

theorem State.ldpOp_keeps {s0 s : State} (h : Keeps s0 s) (c : Nat) (g : Nat) (pb : Nat) (disp : Nat) (split : Bool) : Keeps s0 (ldpOp s c g pb disp split) :=
  issue_keeps h _ _ _ fun _ _ hu => ldpEff_keeps hu ..

theorem State.stEff_keeps {s0 s : State} (h : Keeps s0 s) (c : Nat) (g : Nat) (pb : Nat) (disp : Nat) (x : Ctx) : Keeps s0 (stEff s c g pb disp x).st := by
  have h1 := storeByte_keepsA h c x (eaByte x pb disp 1) (x.reg g) 0xFF
  unfold stEff
  dsimp only
  split
  · exact keepBeats_keeps (h1.ok _ _ ‹_›) ..
  · exact noEff_keeps h _ h1

theorem State.stOp_keeps {s0 s : State} (h : Keeps s0 s) (c : Nat) (g : Nat) (pb : Nat) (disp : Nat) : Keeps s0 (stOp s c g pb disp) :=
  issue_keeps h _ _ _ fun _ _ hu => stEff_keeps hu ..

theorem State.stpEff_keeps {s0 s : State} (h : Keeps s0 s) (c : Nat) (g : Nat) (pb : Nat) (disp : Nat) (split : Bool) (x : Ctx) : Keeps s0 (stpEff s c g pb disp split x).st := by
  unfold stpEff
  exact pairBeats_keeps h _ _ _ _ _ _ (fun t n ht => storeByte_keepsA ht ..) _ fun _ _ _ ht => ht

theorem State.stpOp_keeps {s0 s : State} (h : Keeps s0 s) (c : Nat) (g : Nat) (pb : Nat) (disp : Nat) (split : Bool) : Keeps s0 (stpOp s c g pb disp split) :=
  issue_keeps h _ _ _ fun _ _ hu => stpEff_keeps hu ..

theorem State.bitLoadEff_keeps {s0 s : State} (h : Keeps s0 s) (c : Nat) (b : Nat) (pb : Nat) (disp : Nat) (f : Bool → Bool → Bool) (x : Ctx) : Keeps s0 (bitLoadEff s c b pb disp f x).st := by
  have h1 := loadByte_keepsA h c x (eaBit x pb disp b).1
  unfold bitLoadEff
  dsimp only
  split
  · exact setRepK_keeps (keepBeats_keeps (h1.ok _ _ ‹_›) ..) ..
  · exact noEff_keeps h _ h1

theorem State.bitLoad_keeps {s0 s : State} (h : Keeps s0 s) (c : Nat) (b : Nat) (pb : Nat) (disp : Nat) (f : Bool → Bool → Bool) : Keeps s0 (bitLoad s c b pb disp f) :=
  issue_keeps h _ _ _ fun _ _ hu => bitLoadEff_keeps hu ..

theorem State.storeBit_keepsA {s0 s : State} (h : Keeps s0 s) (c : Nat) (x : Ctx) (a : Nat) (b : Nat) (v : Bool) : Keeps.A s0 (s.storeBit c x a b v) :=
  storeByte_keepsA h ..

theorem State.bitStoreEff_keeps {s0 s : State} (h : Keeps s0 s) (c : Nat) (b : Nat) (pb : Nat) (disp : Nat) (f : Bool → Option Bool) (x : Ctx) : Keeps s0 (bitStoreEff s c b pb disp f x).st := by
  have h1 : Keeps.A s0 (match f (repK x) with | some v => s.storeBit c x (eaBit x pb disp b).1 (eaBit x pb disp b).2 v | none => .ok 0 s) := by
    split
    · exact storeBit_keepsA h ..
    · exact Keeps.aok h _
  unfold bitStoreEff
  dsimp only
  split
  · exact setRepK_keeps (keepBeats_keeps (h1.ok _ _ ‹_›) ..) ..
  · exact noEff_keeps h _ h1

theorem State.bitStore_keeps {s0 s : State} (h : Keeps s0 s) (c : Nat) (b : Nat) (pb : Nat) (disp : Nat) (f : Bool → Option Bool) : Keeps s0 (bitStore s c b pb disp f) :=
  issue_keeps h _ _ _ fun _ _ hu => bitStoreEff_keeps hu ..

theorem State.edgeEff_keeps {s0 s : State} (h : Keeps s0 s) (c : Nat) (b : Nat) (pb : Nat) (disp : Nat) (f : Bool → Bool → Bool) (x : Ctx) : Keeps s0 (edgeEff s c b pb disp f x).st := by
  have h1 := loadByte_keepsA h c x (eaBit x pb disp b).1
  unfold edgeEff
  dsimp only
  split
  · rename_i v t e
    have ht := h1.ok _ _ e
    have hf : Keeps s0 (if x.rep.isSome then t.free else (0, t)).2 := Keeps.ite2 (free_keeps ht) ht
    have h2 := fun m => storeBit_keepsA hf c x (eaBit x pb disp b).1 (eaBit x pb disp b).2 m
    split
    · exact keepBeats_keeps ((h2 _).ok _ _ ‹_›) ..
    · exact noEff_keeps h _ (h2 _)
  · exact noEff_keeps h _ h1

theorem State.edgeOp_keeps {s0 s : State} (h : Keeps s0 s) (c : Nat) (b : Nat) (pb : Nat) (disp : Nat) (f : Bool → Bool → Bool) : Keeps s0 (edgeOp s c b pb disp f) :=
  issue_keeps h _ _ _ fun _ _ hu => edgeEff_keeps hu ..

theorem State.tmrEff_keeps {s0 s : State} (h : Keeps s0 s) (c : Nat) (b : Nat) (pb : Nat) (disp : Nat) (x : Ctx) : Keeps s0 (tmrEff s c b pb disp x).st := by
  unfold tmrEff
  dsimp only
  split
  · rename_i n i e
    split
    · exact h
    · have hf : Keeps s0 (if decide (4 ≤ b) || x.rep.isSome then s.free else (0, s)).2 := Keeps.ite2 (free_keeps h) h
      have h2 := fun e => stagePut_keepsA hf c e
      split
      · exact remember_keeps ((h2 _).ok _ _ ‹_›) ..
      · exact noEff_keeps h _ (h2 _)
  · exact h

theorem State.tmrOp_keeps {s0 s : State} (h : Keeps s0 s) (c : Nat) (b : Nat) (pb : Nat) (disp : Nat) : Keeps s0 (tmrOp s c b pb disp) :=
  issue_keeps h _ _ _ fun _ _ hu => tmrEff_keeps hu ..

theorem State.freeStore_keeps {s0 s : State} (h : Keeps s0 s) (c : Nat) (x : Ctx) : Keeps s0 (freeStore s c x) := by
  have hf := free_keeps h
  have h1 := fun a v => storeByte_keepsA hf c x a v 0xFF
  unfold freeStore
  dsimp only
  split
  · split
    · exact (h1 _ _).ok _ _ ‹_›
    · exact hf
  · exact hf

theorem State.badInstr_keeps {s0 s : State} (h : Keeps s0 s) (c : Nat) : Keeps s0 (badInstr s c) :=
  issueThen_keeps h _ _ _ (fun _ _ hu => freeStore_keeps (freeStore_keeps hu ..) ..) _ fun _ hu => freeRegs_keeps hu ..

theorem execLd_keeps {s0 s : State} (h : Keeps s0 s) (c : Core) (g : GReg) (pb : PReg) (disp : BitVec 9) : Keeps.Out s0 (execLd c g pb disp s) := by
  unfold execLd
  repeat' first
    | with_reducible assumption
    | with_reducible first | apply State.ldOp_keeps
    | with_reducible apply Keeps.out
    | with_reducible apply Keeps.ite
    | with_reducible apply Keeps.outIte
    | split
    | ((conv in (State.mk ..) => skip); with_reducible apply Keeps.mkUpd)

theorem execSt_keeps {s0 s : State} (h : Keeps s0 s) (c : Core) (g : GReg) (pb : PReg) (disp : BitVec 9) : Keeps.Out s0 (execSt c g pb disp s) := by
  unfold execSt
  repeat' first
    | with_reducible assumption
    | with_reducible first | apply State.stOp_keeps
    | with_reducible apply Keeps.out
    | with_reducible apply Keeps.ite
    | with_reducible apply Keeps.outIte
    | split
    | ((conv in (State.mk ..) => skip); with_reducible apply Keeps.mkUpd)

theorem execLdp_keeps {s0 s : State} (h : Keeps s0 s) (c : Core) (g : GReg) (pb : PReg) (disp : PairAt) : Keeps.Out s0 (execLdp c g pb disp s) := by
  unfold execLdp
  repeat' first
    | with_reducible assumption
    | with_reducible first | apply State.ldpOp_keeps | apply State.badInstr_keeps
    | with_reducible apply Keeps.out
    | with_reducible apply Keeps.ite
    | with_reducible apply Keeps.outIte
    | split
    | ((conv in (State.mk ..) => skip); with_reducible apply Keeps.mkUpd)

theorem execStp_keeps {s0 s : State} (h : Keeps s0 s) (c : Core) (g : GReg) (pb : PReg) (disp : PairAt) : Keeps.Out s0 (execStp c g pb disp s) := by
  unfold execStp
  repeat' first
    | with_reducible assumption
    | with_reducible first | apply State.stpOp_keeps | apply State.badInstr_keeps
    | with_reducible apply Keeps.out
    | with_reducible apply Keeps.ite
    | with_reducible apply Keeps.outIte
    | split
    | ((conv in (State.mk ..) => skip); with_reducible apply Keeps.mkUpd)

theorem execLdk_keeps {s0 s : State} (h : Keeps s0 s) (c : Core) (b : BitVec 3) (pb : PReg) (disp : BitVec 11) : Keeps.Out s0 (execLdk c b pb disp s) := by
  unfold execLdk
  repeat' first
    | with_reducible assumption
    | with_reducible first | apply State.bitLoad_keeps
    | with_reducible apply Keeps.out

theorem execLdkn_keeps {s0 s : State} (h : Keeps s0 s) (c : Core) (b : BitVec 3) (pb : PReg) (disp : BitVec 11) : Keeps.Out s0 (execLdkn c b pb disp s) := by
  unfold execLdkn
  repeat' first
    | with_reducible assumption
    | with_reducible first | apply State.bitLoad_keeps
    | with_reducible apply Keeps.out

theorem execAndk_keeps {s0 s : State} (h : Keeps s0 s) (c : Core) (b : BitVec 3) (pb : PReg) (disp : BitVec 11) : Keeps.Out s0 (execAndk c b pb disp s) := by
  unfold execAndk
  repeat' first
    | with_reducible assumption
    | with_reducible first | apply State.bitLoad_keeps
    | with_reducible apply Keeps.out

theorem execAndkn_keeps {s0 s : State} (h : Keeps s0 s) (c : Core) (b : BitVec 3) (pb : PReg) (disp : BitVec 11) : Keeps.Out s0 (execAndkn c b pb disp s) := by
  unfold execAndkn
  repeat' first
    | with_reducible assumption
    | with_reducible first | apply State.bitLoad_keeps
    | with_reducible apply Keeps.out

theorem execOrk_keeps {s0 s : State} (h : Keeps s0 s) (c : Core) (b : BitVec 3) (pb : PReg) (disp : BitVec 11) : Keeps.Out s0 (execOrk c b pb disp s) := by
  unfold execOrk
  repeat' first
    | with_reducible assumption
    | with_reducible first | apply State.bitLoad_keeps
    | with_reducible apply Keeps.out

theorem execOrkn_keeps {s0 s : State} (h : Keeps s0 s) (c : Core) (b : BitVec 3) (pb : PReg) (disp : BitVec 11) : Keeps.Out s0 (execOrkn c b pb disp s) := by
  unfold execOrkn
  repeat' first
    | with_reducible assumption
    | with_reducible first | apply State.bitLoad_keeps
    | with_reducible apply Keeps.out

theorem execXork_keeps {s0 s : State} (h : Keeps s0 s) (c : Core) (b : BitVec 3) (pb : PReg) (disp : BitVec 11) : Keeps.Out s0 (execXork c b pb disp s) := by
  unfold execXork
  repeat' first
    | with_reducible assumption
    | with_reducible first | apply State.bitLoad_keeps
    | with_reducible apply Keeps.out

theorem execStk_keeps {s0 s : State} (h : Keeps s0 s) (c : Core) (b : BitVec 3) (pb : PReg) (disp : BitVec 11) : Keeps.Out s0 (execStk c b pb disp s) := by
  unfold execStk
  repeat' first
    | with_reducible assumption
    | with_reducible first | apply State.bitStore_keeps
    | with_reducible apply Keeps.out

theorem execStkn_keeps {s0 s : State} (h : Keeps s0 s) (c : Core) (b : BitVec 3) (pb : PReg) (disp : BitVec 11) : Keeps.Out s0 (execStkn c b pb disp s) := by
  unfold execStkn
  repeat' first
    | with_reducible assumption
    | with_reducible first | apply State.bitStore_keeps
    | with_reducible apply Keeps.out

theorem execSetk_keeps {s0 s : State} (h : Keeps s0 s) (c : Core) (b : BitVec 3) (pb : PReg) (disp : BitVec 11) : Keeps.Out s0 (execSetk c b pb disp s) := by
  unfold execSetk
  repeat' first
    | with_reducible assumption
    | with_reducible first | apply State.bitStore_keeps
    | with_reducible apply Keeps.out

theorem execClrk_keeps {s0 s : State} (h : Keeps s0 s) (c : Core) (b : BitVec 3) (pb : PReg) (disp : BitVec 11) : Keeps.Out s0 (execClrk c b pb disp s) := by
  unfold execClrk
  repeat' first
    | with_reducible assumption
    | with_reducible first | apply State.bitStore_keeps
    | with_reducible apply Keeps.out

theorem execRise_keeps {s0 s : State} (h : Keeps s0 s) (c : Core) (b : BitVec 3) (pb : PReg) (disp : BitVec 11) : Keeps.Out s0 (execRise c b pb disp s) := by
  unfold execRise
  repeat' first
    | with_reducible assumption
    | with_reducible first | apply State.edgeOp_keeps
    | with_reducible apply Keeps.out

theorem execFall_keeps {s0 s : State} (h : Keeps s0 s) (c : Core) (b : BitVec 3) (pb : PReg) (disp : BitVec 11) : Keeps.Out s0 (execFall c b pb disp s) := by
  unfold execFall
  repeat' first
    | with_reducible assumption
    | with_reducible first | apply State.edgeOp_keeps
    | with_reducible apply Keeps.out

theorem execTmr_keeps {s0 s : State} (h : Keeps s0 s) (c : Core) (b : BitVec 3) (pb : PReg) (disp : BitVec 11) : Keeps.Out s0 (execTmr c b pb disp s) := by
  unfold execTmr
  repeat' first
    | with_reducible assumption
    | with_reducible first | apply State.tmrOp_keeps
    | with_reducible apply Keeps.out

theorem execLcSwevt_keeps {s0 s : State} (h : Keeps s0 s) (c : Core) (v : Byte) : Keeps.Out s0 (execLcSwevt c v s) := by
  unfold execLcSwevt
  repeat' first
    | with_reducible assumption
    | with_reducible first | apply State.lcStore_keeps
    | with_reducible apply Keeps.out

theorem execLcStwqRead_keeps {s0 s : State} (h : Keeps s0 s)  : Keeps.Out s0 (execLcStwqRead s) := by
  unfold execLcStwqRead
  repeat' first
    | with_reducible assumption
    | with_reducible first | apply State.stwqTake_keeps | apply State.lcLoad_keeps
    | with_reducible apply Keeps.out
    | ((conv in (State.mk ..) => skip); with_reducible apply Keeps.mkUpd)

theorem execLcRindStore_keeps {s0 s : State} (h : Keeps s0 s) (c : Core) (off : Byte) (v : Byte) : Keeps.Out s0 (execLcRindStore c off v s) := by
  unfold execLcRindStore
  repeat' first
    | with_reducible assumption
    | with_reducible first | apply State.lcStore_keeps
    | with_reducible apply Keeps.out

theorem execLcTpoCommit_keeps {s0 s : State} (h : Keeps s0 s) (c : Core) (n : Fin 8) (v : Byte) : Keeps.Out s0 (execLcTpoCommit c n v s) := by
  unfold execLcTpoCommit
  repeat' first
    | with_reducible assumption
    | with_reducible first | apply State.lcStore_keeps
    | with_reducible apply Keeps.out

end Sys2Proof.Machine
end

