-- ==== Sys2Proof/Laws/KeepsLimlisAlu.lean ====
section
/-! SUPPORT. `Keeps` of the operations and meanings of Machine/LimlisAlu.lean. -/

-- one declaration at a time: many at once take a thread and its stack each
set_option Elab.async false

set_option linter.all false

namespace Sys2Proof.Machine

open State

theorem State.wordOp_keeps {s0 s : State} (h : Keeps s0 s) (c : Core) (rs : List GReg) (f : Ctx → Ctx → Ctx) : Keeps s0 (wordOp s c rs f) := by
  unfold wordOp
  repeat' first
    | with_reducible assumption
    | with_reducible first | apply State.aluOp_keeps | apply State.badInstr_keeps
    | with_reducible apply Keeps.ite
    | split
    | ((conv in (State.mk ..) => skip); with_reducible apply Keeps.mkUpd)

theorem State.mdvOp_keeps {s0 s : State} (h : Keeps s0 s) (c : Core) (gd : GReg) (gs : GReg) (gt : GReg) (f : Byte → Byte → Mdv) : Keeps s0 (mdvOp s c gd gs gt f) := by
  unfold mdvOp
  repeat' first
    | refine fun x => ?_
    | with_reducible assumption
    | with_reducible first | apply State.issue_keeps | apply State.badInstr_keeps
    | with_reducible apply Keeps.ite
    | split
    | ((conv in (State.mk ..) => skip); with_reducible apply Keeps.mkUpd)

theorem execAdd_keeps {s0 s : State} (h : Keeps s0 s) (c : Core) (gd : GReg) (gs : GReg) (gt : GReg) : Keeps.Out s0 (execAdd c gd gs gt s) := by
  unfold execAdd
  repeat' first
    | with_reducible assumption
    | with_reducible first | apply State.aluOp_keeps
    | with_reducible apply Keeps.out

theorem execAdc_keeps {s0 s : State} (h : Keeps s0 s) (c : Core) (gd : GReg) (gs : GReg) (gt : GReg) : Keeps.Out s0 (execAdc c gd gs gt s) := by
  unfold execAdc
  repeat' first
    | with_reducible assumption
    | with_reducible first | apply State.aluOp_keeps
    | with_reducible apply Keeps.out

theorem execSub_keeps {s0 s : State} (h : Keeps s0 s) (c : Core) (gd : GReg) (gs : GReg) (gt : GReg) : Keeps.Out s0 (execSub c gd gs gt s) := by
  unfold execSub
  repeat' first
    | with_reducible assumption
    | with_reducible first | apply State.aluOp_keeps
    | with_reducible apply Keeps.out

theorem execSbc_keeps {s0 s : State} (h : Keeps s0 s) (c : Core) (gd : GReg) (gs : GReg) (gt : GReg) : Keeps.Out s0 (execSbc c gd gs gt s) := by
  unfold execSbc
  repeat' first
    | with_reducible assumption
    | with_reducible first | apply State.aluOp_keeps
    | with_reducible apply Keeps.out

theorem execAnd_keeps {s0 s : State} (h : Keeps s0 s) (c : Core) (gd : GReg) (gs : GReg) (gt : GReg) : Keeps.Out s0 (execAnd c gd gs gt s) := by
  unfold execAnd
  repeat' first
    | with_reducible assumption
    | with_reducible first | apply State.aluOp_keeps
    | with_reducible apply Keeps.out

theorem execOr_keeps {s0 s : State} (h : Keeps s0 s) (c : Core) (gd : GReg) (gs : GReg) (gt : GReg) : Keeps.Out s0 (execOr c gd gs gt s) := by
  unfold execOr
  repeat' first
    | with_reducible assumption
    | with_reducible first | apply State.aluOp_keeps
    | with_reducible apply Keeps.out

theorem execXor_keeps {s0 s : State} (h : Keeps s0 s) (c : Core) (gd : GReg) (gs : GReg) (gt : GReg) : Keeps.Out s0 (execXor c gd gs gt s) := by
  unfold execXor
  repeat' first
    | with_reducible assumption
    | with_reducible first | apply State.aluOp_keeps
    | with_reducible apply Keeps.out

theorem execCmp_keeps {s0 s : State} (h : Keeps s0 s) (c : Core) (gs : GReg) (gt : GReg) : Keeps.Out s0 (execCmp c gs gt s) := by
  unfold execCmp
  repeat' first
    | with_reducible assumption
    | with_reducible first | apply State.aluOp_keeps
    | with_reducible apply Keeps.out

theorem execShl_keeps {s0 s : State} (h : Keeps s0 s) (c : Core) (gd : GReg) (gs : GReg) (gt : GReg) : Keeps.Out s0 (execShl c gd gs gt s) := by
  unfold execShl
  repeat' first
    | with_reducible assumption
    | with_reducible first | apply State.aluOp_keeps
    | with_reducible apply Keeps.out

theorem execShr_keeps {s0 s : State} (h : Keeps s0 s) (c : Core) (gd : GReg) (gs : GReg) (gt : GReg) : Keeps.Out s0 (execShr c gd gs gt s) := by
  unfold execShr
  repeat' first
    | with_reducible assumption
    | with_reducible first | apply State.aluOp_keeps
    | with_reducible apply Keeps.out

theorem execAsr_keeps {s0 s : State} (h : Keeps s0 s) (c : Core) (gd : GReg) (gs : GReg) (gt : GReg) : Keeps.Out s0 (execAsr c gd gs gt s) := by
  unfold execAsr
  repeat' first
    | with_reducible assumption
    | with_reducible first | apply State.aluOp_keeps
    | with_reducible apply Keeps.out

theorem execRol_keeps {s0 s : State} (h : Keeps s0 s) (c : Core) (gd : GReg) (gs : GReg) (gt : GReg) : Keeps.Out s0 (execRol c gd gs gt s) := by
  unfold execRol
  repeat' first
    | with_reducible assumption
    | with_reducible first | apply State.aluOp_keeps
    | with_reducible apply Keeps.out

theorem execRor_keeps {s0 s : State} (h : Keeps s0 s) (c : Core) (gd : GReg) (gs : GReg) (gt : GReg) : Keeps.Out s0 (execRor c gd gs gt s) := by
  unfold execRor
  repeat' first
    | with_reducible assumption
    | with_reducible first | apply State.aluOp_keeps
    | with_reducible apply Keeps.out

theorem execMov_keeps {s0 s : State} (h : Keeps s0 s) (c : Core) (gd : GReg) (gs : GReg) : Keeps.Out s0 (execMov c gd gs s) := by
  unfold execMov
  repeat' first
    | with_reducible assumption
    | with_reducible first | apply State.aluOp_keeps
    | with_reducible apply Keeps.out

theorem execNot_keeps {s0 s : State} (h : Keeps s0 s) (c : Core) (gd : GReg) (gs : GReg) : Keeps.Out s0 (execNot c gd gs s) := by
  unfold execNot
  repeat' first
    | with_reducible assumption
    | with_reducible first | apply State.aluOp_keeps
    | with_reducible apply Keeps.out

theorem execNeg_keeps {s0 s : State} (h : Keeps s0 s) (c : Core) (gd : GReg) (gs : GReg) : Keeps.Out s0 (execNeg c gd gs s) := by
  unfold execNeg
  repeat' first
    | with_reducible assumption
    | with_reducible first | apply State.aluOp_keeps
    | with_reducible apply Keeps.out

theorem execMulu_keeps {s0 s : State} (h : Keeps s0 s) (c : Core) (gd : GReg) (gs : GReg) (gt : GReg) : Keeps.Out s0 (execMulu c gd gs gt s) := by
  unfold execMulu
  repeat' first
    | with_reducible assumption
    | with_reducible first | apply State.mdvOp_keeps
    | with_reducible apply Keeps.out

theorem execMuls_keeps {s0 s : State} (h : Keeps s0 s) (c : Core) (gd : GReg) (gs : GReg) (gt : GReg) : Keeps.Out s0 (execMuls c gd gs gt s) := by
  unfold execMuls
  repeat' first
    | with_reducible assumption
    | with_reducible first | apply State.mdvOp_keeps
    | with_reducible apply Keeps.out

theorem execDivu_keeps {s0 s : State} (h : Keeps s0 s) (c : Core) (gd : GReg) (gs : GReg) (gt : GReg) : Keeps.Out s0 (execDivu c gd gs gt s) := by
  unfold execDivu
  repeat' first
    | with_reducible assumption
    | with_reducible first | apply State.mdvOp_keeps
    | with_reducible apply Keeps.out

theorem execDivs_keeps {s0 s : State} (h : Keeps s0 s) (c : Core) (gd : GReg) (gs : GReg) (gt : GReg) : Keeps.Out s0 (execDivs c gd gs gt s) := by
  unfold execDivs
  repeat' first
    | with_reducible assumption
    | with_reducible first | apply State.mdvOp_keeps
    | with_reducible apply Keeps.out

theorem execAddw_keeps {s0 s : State} (h : Keeps s0 s) (c : Core) (gd : GReg) (gs : GReg) (gt : GReg) : Keeps.Out s0 (execAddw c gd gs gt s) := by
  unfold execAddw
  repeat' first
    | with_reducible assumption
    | with_reducible first | apply State.wordOp_keeps
    | with_reducible apply Keeps.out

theorem execSubw_keeps {s0 s : State} (h : Keeps s0 s) (c : Core) (gd : GReg) (gs : GReg) (gt : GReg) : Keeps.Out s0 (execSubw c gd gs gt s) := by
  unfold execSubw
  repeat' first
    | with_reducible assumption
    | with_reducible first | apply State.wordOp_keeps
    | with_reducible apply Keeps.out

theorem execCmpw_keeps {s0 s : State} (h : Keeps s0 s) (c : Core) (gs : GReg) (gt : GReg) : Keeps.Out s0 (execCmpw c gs gt s) := by
  unfold execCmpw
  repeat' first
    | with_reducible assumption
    | with_reducible first | apply State.wordOp_keeps
    | with_reducible apply Keeps.out

theorem execMovw_keeps {s0 s : State} (h : Keeps s0 s) (c : Core) (gd : GReg) (gs : GReg) : Keeps.Out s0 (execMovw c gd gs s) := by
  unfold execMovw
  repeat' first
    | with_reducible assumption
    | with_reducible first | apply State.wordOp_keeps
    | with_reducible apply Keeps.out

theorem execLdi_keeps {s0 s : State} (h : Keeps s0 s) (c : Core) (gd : GReg) (imm : Byte) : Keeps.Out s0 (execLdi c gd imm s) := by
  unfold execLdi
  repeat' first
    | with_reducible assumption
    | with_reducible first | apply State.aluOp_keeps
    | with_reducible apply Keeps.out

theorem execAddi_keeps {s0 s : State} (h : Keeps s0 s) (c : Core) (gd : GReg) (imm : Byte) : Keeps.Out s0 (execAddi c gd imm s) := by
  unfold execAddi
  repeat' first
    | with_reducible assumption
    | with_reducible first | apply State.aluOp_keeps
    | with_reducible apply Keeps.out

theorem execAdci_keeps {s0 s : State} (h : Keeps s0 s) (c : Core) (gd : GReg) (imm : Byte) : Keeps.Out s0 (execAdci c gd imm s) := by
  unfold execAdci
  repeat' first
    | with_reducible assumption
    | with_reducible first | apply State.aluOp_keeps
    | with_reducible apply Keeps.out

theorem execSubi_keeps {s0 s : State} (h : Keeps s0 s) (c : Core) (gd : GReg) (imm : Byte) : Keeps.Out s0 (execSubi c gd imm s) := by
  unfold execSubi
  repeat' first
    | with_reducible assumption
    | with_reducible first | apply State.aluOp_keeps
    | with_reducible apply Keeps.out

theorem execSbci_keeps {s0 s : State} (h : Keeps s0 s) (c : Core) (gd : GReg) (imm : Byte) : Keeps.Out s0 (execSbci c gd imm s) := by
  unfold execSbci
  repeat' first
    | with_reducible assumption
    | with_reducible first | apply State.aluOp_keeps
    | with_reducible apply Keeps.out

theorem execAndi_keeps {s0 s : State} (h : Keeps s0 s) (c : Core) (gd : GReg) (imm : Byte) : Keeps.Out s0 (execAndi c gd imm s) := by
  unfold execAndi
  repeat' first
    | with_reducible assumption
    | with_reducible first | apply State.aluOp_keeps
    | with_reducible apply Keeps.out

theorem execOri_keeps {s0 s : State} (h : Keeps s0 s) (c : Core) (gd : GReg) (imm : Byte) : Keeps.Out s0 (execOri c gd imm s) := by
  unfold execOri
  repeat' first
    | with_reducible assumption
    | with_reducible first | apply State.aluOp_keeps
    | with_reducible apply Keeps.out

theorem execXori_keeps {s0 s : State} (h : Keeps s0 s) (c : Core) (gd : GReg) (imm : Byte) : Keeps.Out s0 (execXori c gd imm s) := by
  unfold execXori
  repeat' first
    | with_reducible assumption
    | with_reducible first | apply State.aluOp_keeps
    | with_reducible apply Keeps.out

theorem execCmpi_keeps {s0 s : State} (h : Keeps s0 s) (c : Core) (gd : GReg) (imm : Byte) : Keeps.Out s0 (execCmpi c gd imm s) := by
  unfold execCmpi
  repeat' first
    | with_reducible assumption
    | with_reducible first | apply State.aluOp_keeps
    | with_reducible apply Keeps.out

theorem execTsti_keeps {s0 s : State} (h : Keeps s0 s) (c : Core) (gd : GReg) (imm : Byte) : Keeps.Out s0 (execTsti c gd imm s) := by
  unfold execTsti
  repeat' first
    | with_reducible assumption
    | with_reducible first | apply State.aluOp_keeps
    | with_reducible apply Keeps.out

theorem execShli_keeps {s0 s : State} (h : Keeps s0 s) (c : Core) (gd : GReg) (imm : Byte) : Keeps.Out s0 (execShli c gd imm s) := by
  unfold execShli
  repeat' first
    | with_reducible assumption
    | with_reducible first | apply State.aluOp_keeps
    | with_reducible apply Keeps.out

theorem execShri_keeps {s0 s : State} (h : Keeps s0 s) (c : Core) (gd : GReg) (imm : Byte) : Keeps.Out s0 (execShri c gd imm s) := by
  unfold execShri
  repeat' first
    | with_reducible assumption
    | with_reducible first | apply State.aluOp_keeps
    | with_reducible apply Keeps.out

theorem execAsri_keeps {s0 s : State} (h : Keeps s0 s) (c : Core) (gd : GReg) (imm : Byte) : Keeps.Out s0 (execAsri c gd imm s) := by
  unfold execAsri
  repeat' first
    | with_reducible assumption
    | with_reducible first | apply State.aluOp_keeps
    | with_reducible apply Keeps.out

theorem execRoli_keeps {s0 s : State} (h : Keeps s0 s) (c : Core) (gd : GReg) (imm : Byte) : Keeps.Out s0 (execRoli c gd imm s) := by
  unfold execRoli
  repeat' first
    | with_reducible assumption
    | with_reducible first | apply State.aluOp_keeps
    | with_reducible apply Keeps.out

theorem execRori_keeps {s0 s : State} (h : Keeps s0 s) (c : Core) (gd : GReg) (imm : Byte) : Keeps.Out s0 (execRori c gd imm s) := by
  unfold execRori
  repeat' first
    | with_reducible assumption
    | with_reducible first | apply State.aluOp_keeps
    | with_reducible apply Keeps.out

theorem execAddwi_keeps {s0 s : State} (h : Keeps s0 s) (c : Core) (gd : GReg) (imm : Byte) : Keeps.Out s0 (execAddwi c gd imm s) := by
  unfold execAddwi
  repeat' first
    | with_reducible assumption
    | with_reducible first | apply State.wordOp_keeps
    | with_reducible apply Keeps.out

theorem execSubwi_keeps {s0 s : State} (h : Keeps s0 s) (c : Core) (gd : GReg) (imm : Byte) : Keeps.Out s0 (execSubwi c gd imm s) := by
  unfold execSubwi
  repeat' first
    | with_reducible assumption
    | with_reducible first | apply State.wordOp_keeps
    | with_reducible apply Keeps.out

theorem execKfr_keeps {s0 s : State} (h : Keeps s0 s) (c : Core) (gd : GReg) (b : BitVec 3) : Keeps.Out s0 (execKfr c gd b s) := by
  unfold execKfr
  repeat' first
    | with_reducible assumption
    | with_reducible first | apply State.aluOp_keeps
    | with_reducible apply Keeps.out

theorem execKto_keeps {s0 s : State} (h : Keeps s0 s) (c : Core) (gd : GReg) (b : BitVec 3) : Keeps.Out s0 (execKto c gd b s) := by
  unfold execKto
  repeat' first
    | with_reducible assumption
    | with_reducible first | apply State.aluOp_keeps
    | with_reducible apply Keeps.out

theorem execPshk_keeps {s0 s : State} (h : Keeps s0 s) (c : Core) : Keeps.Out s0 (execPshk c s) := by
  unfold execPshk
  repeat' first
    | with_reducible assumption
    | with_reducible first | apply State.aluOp_keeps
    | with_reducible apply Keeps.out

theorem execPopk_keeps {s0 s : State} (h : Keeps s0 s) (c : Core) : Keeps.Out s0 (execPopk c s) := by
  unfold execPopk
  repeat' first
    | with_reducible assumption
    | with_reducible first | apply State.aluOp_keeps
    | with_reducible apply Keeps.out

theorem execAndpk_keeps {s0 s : State} (h : Keeps s0 s) (c : Core) : Keeps.Out s0 (execAndpk c s) := by
  unfold execAndpk
  repeat' first
    | with_reducible assumption
    | with_reducible first | apply State.aluOp_keeps
    | with_reducible apply Keeps.out

theorem execOrpk_keeps {s0 s : State} (h : Keeps s0 s) (c : Core) : Keeps.Out s0 (execOrpk c s) := by
  unfold execOrpk
  repeat' first
    | with_reducible assumption
    | with_reducible first | apply State.aluOp_keeps
    | with_reducible apply Keeps.out

theorem execXorpk_keeps {s0 s : State} (h : Keeps s0 s) (c : Core) : Keeps.Out s0 (execXorpk c s) := by
  unfold execXorpk
  repeat' first
    | with_reducible assumption
    | with_reducible first | apply State.aluOp_keeps
    | with_reducible apply Keeps.out

theorem execNotk_keeps {s0 s : State} (h : Keeps s0 s) (c : Core) : Keeps.Out s0 (execNotk c s) := by
  unfold execNotk
  repeat' first
    | with_reducible assumption
    | with_reducible first | apply State.aluOp_keeps
    | with_reducible apply Keeps.out

theorem execOnek_keeps {s0 s : State} (h : Keeps s0 s) (c : Core) : Keeps.Out s0 (execOnek c s) := by
  unfold execOnek
  repeat' first
    | with_reducible assumption
    | with_reducible first | apply State.aluOp_keeps
    | with_reducible apply Keeps.out

theorem execZerok_keeps {s0 s : State} (h : Keeps s0 s) (c : Core) : Keeps.Out s0 (execZerok c s) := by
  unfold execZerok
  repeat' first
    | with_reducible assumption
    | with_reducible first | apply State.aluOp_keeps
    | with_reducible apply Keeps.out

end Sys2Proof.Machine
end

