-- ==== Sys2Proof/Laws/KeepsLimlisCtl.lean ====
section
/-! SUPPORT. `Keeps` of the operations and meanings of Machine/LimlisCtl.lean. -/

-- one declaration at a time: many at once take a thread and its stack each
set_option Elab.async false

set_option linter.all false

namespace Sys2Proof.Machine

open State

theorem State.endTask_keeps {s0 s : State} (h : Keeps s0 s) (p : Nat) : Keeps s0 (endTask s p) := by
  unfold endTask
  repeat' first
    | with_reducible assumption
    | with_reducible first | apply State.setCtx_keeps | apply State.endLock_keeps | apply State.setCore_keeps
    | ((try lift_lets); intro x; refine Keeps.cut (s := s0) (x := x) ?_ ?_; unfold x; rotate_left; intro hx; clear_value x; rotate_right)
    | ((try lift_lets); intro x; clear_value x)
    | split

theorem State.endSegment_keeps {s0 s : State} (h : Keeps s0 s) (p : Nat) : Keeps s0 (endSegment s p) := by
  unfold endSegment
  repeat' first
    | with_reducible assumption
    | with_reducible first | apply State.endLock_keeps | apply State.setCx_keeps | apply State.mergeStart_keeps | apply State.setCore_keeps

theorem State.haltCore_keeps {s0 s : State} (h : Keeps s0 s) (c : Nat) : Keeps s0 (haltCore s c) := by
  unfold haltCore
  repeat' first
    | with_reducible assumption
    | with_reducible first | apply State.endTask_keeps | apply State.endSegment_keeps | apply State.setCx_keeps | apply State.setCore_keeps
    | split

theorem State.stepCore_keeps {s0 s : State} (h : Keeps s0 s) (c : Nat) : Keeps s0 (stepCore s c) := by
  unfold stepCore
  repeat' first
    | with_reducible assumption
    | with_reducible first | apply State.endSegment_keeps | apply State.endLock_keeps | apply State.setCx_keeps | apply State.mergeStart_keeps | apply State.setCore_keeps
    | split

theorem State.svrelWrite_keeps {s0 s : State} (h : Keeps s0 s) (v : Byte) : Keeps s0 (svrelWrite s v) := by
  unfold svrelWrite
  repeat' first
    | refine fun x => ?_
    | with_reducible assumption
    | with_reducible first | apply State.setCtx_keeps | apply State.setCore_keeps
    | with_reducible refine Keeps.foldl ?_ ?_
    | split
    | ((conv in (State.mk ..) => skip); with_reducible apply Keeps.mkUpd)

theorem State.srOutside_keeps {s0 s : State} (h : Keeps s0 s) (c : Nat) (n : Nat) (v : Byte) : Keeps s0 (srOutside s c n v) := by
  unfold srOutside
  repeat' first
    | with_reducible assumption
    | with_reducible first | apply State.svrelWrite_keeps
    | split
    | ((conv in (State.mk ..) => skip); with_reducible apply Keeps.mkUpd)

theorem State.repOp_keeps {s0 s : State} (h : Keeps s0 s) (c : Nat) (n : Ctx → Nat) : Keeps s0 (repOp s c n) := by
  unfold repOp
  repeat' first
    | refine fun x => ?_
    | with_reducible assumption
    | with_reducible first | apply State.issue_keeps

theorem State.jumpOp_keeps {s0 s : State} (h : Keeps s0 s) (c : Nat) (t : Ctx → Option Nat) (now : Ctx → Ctx → Ctx) : Keeps s0 (jumpOp s c t now) := by
  unfold jumpOp
  repeat' first
    | refine fun x => ?_
    | with_reducible assumption
    | with_reducible first | apply State.issue_keeps

theorem State.repBad_keeps {s0 s : State} (h : Keeps s0 s) (c : Nat) : Keeps s0 (repBad s c) := by
  unfold repBad
  repeat' first
    | refine fun x => ?_
    | with_reducible assumption
    | with_reducible first | apply State.issue_keeps | apply State.free_keeps | apply free_keeps | apply State.freeRegs_keeps
    | with_reducible apply Keeps.ite
    | split
    | ((conv in (State.mk ..) => skip); with_reducible apply Keeps.mkUpd)

theorem execHalt_keeps {s0 s : State} (h : Keeps s0 s) (c : Core) : Keeps.Out s0 (execHalt c s) := by
  unfold execHalt
  repeat' first
    | refine fun x => ?_
    | with_reducible assumption
    | with_reducible first | apply State.issueThen_keeps | apply State.haltCore_keeps
    | with_reducible apply Keeps.out

theorem execStewardWake_keeps {s0 s : State} (h : Keeps s0 s)  : Keeps.Out s0 (execStewardWake s) := by
  unfold execStewardWake
  repeat' first
    | with_reducible assumption
    | with_reducible first | apply State.setCore_keeps
    | with_reducible apply Keeps.out
    | split

theorem execNop_keeps {s0 s : State} (h : Keeps s0 s) (c : Core) : Keeps.Out s0 (execNop c s) := by
  unfold execNop
  repeat' first
    | with_reducible assumption
    | with_reducible first | apply State.aluOp_keeps
    | with_reducible apply Keeps.out

theorem execRepImm_keeps {s0 s : State} (h : Keeps s0 s) (c : Core) (n : BitVec 6) : Keeps.Out s0 (execRepImm c n s) := by
  unfold execRepImm
  repeat' first
    | refine fun x => ?_
    | with_reducible assumption
    | with_reducible first | apply State.repBad_keeps | apply State.repOp_keeps
    | with_reducible apply Keeps.out
    | with_reducible apply Keeps.ite
    | with_reducible apply Keeps.outIte
    | split
    | ((conv in (State.mk ..) => skip); with_reducible apply Keeps.mkUpd)

theorem execRepReg_keeps {s0 s : State} (h : Keeps s0 s) (c : Core) (g : GReg) : Keeps.Out s0 (execRepReg c g s) := by
  unfold execRepReg
  repeat' first
    | with_reducible assumption
    | with_reducible first | apply State.repOp_keeps
    | with_reducible apply Keeps.out

theorem execRepRc_keeps {s0 s : State} (h : Keeps s0 s) (c : Core) : Keeps.Out s0 (execRepRc c s) := by
  unfold execRepRc
  repeat' first
    | with_reducible assumption
    | with_reducible first | apply State.repOp_keeps
    | with_reducible apply Keeps.out

theorem execSeal_keeps {s0 s : State} (h : Keeps s0 s) (c : Core) (n : BitVec 4) : Keeps.Out s0 (execSeal c n s) := by
  unfold execSeal
  repeat' first
    | refine fun x => ?_
    | with_reducible assumption
    | with_reducible first | apply State.issue_keeps | apply State.issueThen_keeps | apply State.freeSeal_keeps | apply State.freeLock_keeps
    | with_reducible apply Keeps.out
    | with_reducible apply Keeps.ite
    | with_reducible apply Keeps.outIte
    | split
    | ((conv in (State.mk ..) => skip); with_reducible apply Keeps.mkUpd)

theorem execLck_keeps {s0 s : State} (h : Keeps s0 s) (c : Core) (n : BitVec 3) : Keeps.Out s0 (execLck c n s) := by
  unfold execLck
  repeat' first
    | refine fun x => ?_
    | with_reducible assumption
    | with_reducible first | apply State.issue_keeps | apply State.issueThen_keeps | apply State.freeSeal_keeps | apply State.freeLock_keeps
    | with_reducible apply Keeps.out
    | with_reducible apply Keeps.ite
    | with_reducible apply Keeps.outIte
    | split
    | ((conv in (State.mk ..) => skip); with_reducible apply Keeps.mkUpd)

theorem execBreakpointHit_keeps {s0 s : State} (h : Keeps s0 s) (p : Fin 68) : Keeps.Out s0 (execBreakpointHit p s) := by
  unfold execBreakpointHit
  repeat' first
    | with_reducible assumption
    | with_reducible first | apply State.passBrk_keeps | apply exec_keeps | apply State.breakHit_keeps
    | with_reducible apply Keeps.out
    | with_reducible apply Keeps.ite
    | with_reducible apply Keeps.outIte
    | split
    | ((conv in (State.mk ..) => skip); with_reducible apply Keeps.mkUpd)

theorem execLockTimeout_keeps {s0 s : State} (h : Keeps s0 s) (c : Core) : Keeps.Out s0 (execLockTimeout c s) := by
  unfold execLockTimeout
  repeat' first
    | with_reducible assumption
    | with_reducible first | apply State.lockExpire_keeps
    | with_reducible apply Keeps.out

theorem execStep_keeps {s0 s : State} (h : Keeps s0 s) (c : Core) : Keeps.Out s0 (execStep c s) := by
  unfold execStep
  repeat' first
    | refine fun x => ?_
    | with_reducible assumption
    | with_reducible first | apply State.issueThen_keeps | apply State.stepCore_keeps
    | with_reducible apply Keeps.out
    | split

theorem execMovs_keeps {s0 s : State} (h : Keeps s0 s) (c : Core) (gd : GReg) (sr : Byte) : Keeps.Out s0 (execMovs c gd sr s) := by
  unfold execMovs
  repeat' first
    | refine fun x => ?_
    | with_reducible assumption
    | with_reducible first | apply State.issue_keeps
    | with_reducible apply Keeps.out

theorem execMovt_keeps {s0 s : State} (h : Keeps s0 s) (c : Core) (sr : Byte) (gs : GReg) : Keeps.Out s0 (execMovt c sr gs s) := by
  unfold execMovt
  repeat' first
    | refine fun x => ?_
    | with_reducible assumption
    | with_reducible first | apply State.issue_keeps | apply State.srOutside_keeps
    | with_reducible apply Keeps.out

theorem execEvret_keeps {s0 s : State} (h : Keeps s0 s) (c : Core) : Keeps.Out s0 (execEvret c s) := by
  unfold execEvret
  repeat' first
    | refine fun x => ?_
    | with_reducible assumption
    | with_reducible first | apply State.issueThen_keeps | apply State.endTask_keeps
    | with_reducible apply Keeps.out
    | split

theorem execBrk_keeps {s0 s : State} (h : Keeps s0 s) (c : Core) (code : BitVec 14) : Keeps.Out s0 (execBrk c code s) := by
  unfold execBrk
  repeat' first
    | refine fun x => ?_
    | with_reducible assumption
    | with_reducible first | apply State.issue_keeps | apply State.breakHit_keeps
    | with_reducible apply Keeps.out
    | with_reducible apply Keeps.ite
    | with_reducible apply Keeps.outIte
    | split
    | ((conv in (State.mk ..) => skip); with_reducible apply Keeps.mkUpd)

theorem execJmpr_keeps {s0 s : State} (h : Keeps s0 s) (c : Core) (pb : PReg) : Keeps.Out s0 (execJmpr c pb s) := by
  unfold execJmpr
  repeat' first
    | with_reducible assumption
    | with_reducible first | apply State.jumpOp_keeps
    | with_reducible apply Keeps.out

theorem execBr_keeps {s0 s : State} (h : Keeps s0 s) (c : Core) (cond : BitVec 4) (off : BitVec 14) : Keeps.Out s0 (execBr c cond off s) := by
  unfold execBr
  repeat' first
    | with_reducible assumption
    | with_reducible first | apply State.badInstr_keeps | apply State.jumpOp_keeps
    | with_reducible apply Keeps.out
    | split

theorem execBrf_keeps {s0 s : State} (h : Keeps s0 s) (c : Core) (cond : BitVec 4) (off : BitVec 14) : Keeps.Out s0 (execBrf c cond off s) := by
  unfold execBrf
  repeat' first
    | with_reducible assumption
    | with_reducible first | apply State.badInstr_keeps | apply State.jumpOp_keeps
    | with_reducible apply Keeps.out
    | split

theorem execJmp_keeps {s0 s : State} (h : Keeps s0 s) (c : Core) (target : BitVec 14) : Keeps.Out s0 (execJmp c target s) := by
  unfold execJmp
  repeat' first
    | with_reducible assumption
    | with_reducible first | apply State.jumpOp_keeps
    | with_reducible apply Keeps.out

theorem execCall_keeps {s0 s : State} (h : Keeps s0 s) (c : Core) (target : BitVec 14) : Keeps.Out s0 (execCall c target s) := by
  unfold execCall
  repeat' first
    | with_reducible assumption
    | with_reducible first | apply State.jumpOp_keeps
    | with_reducible apply Keeps.out

end Sys2Proof.Machine
end

