-- ==== Sys2Proof/Laws/KeepsSvc.lean ====
section
/-! SUPPORT. `Keeps` of the operations and meanings of Machine/Svc.lean. -/

-- one declaration at a time: many at once take a thread and its stack each
set_option Elab.async false

set_option linter.all false

namespace Sys2Proof.Machine

open State

theorem State.svcSend_keeps {s0 s : State} (h : Keeps s0 s) (bytes : List Byte) : Keeps s0 (svcSend s bytes) := by
  unfold svcSend
  repeat' first
    | with_reducible assumption
    | with_reducible first | apply State.send_keeps | apply State.bump_keeps
    | ((try lift_lets); intro x; refine Keeps.cut (s := s0) (x := x) ?_ ?_; unfold x; rotate_left; intro hx; clear_value x; rotate_right)
    | ((try lift_lets); intro x; clear_value x)
    | ((conv in (State.mk ..) => skip); with_reducible apply Keeps.mkUpd)

theorem State.svcDone_keeps {s0 s : State} (h : Keeps s0 s) (seq : Byte) (cmd : Byte) (rcmd : Byte) (status : Nat) (payload : List Byte) : Keeps s0 (svcDone s seq cmd rcmd status payload) := by
  unfold svcDone
  repeat' first
    | with_reducible assumption
    | with_reducible first | apply State.setRf_keeps | apply State.bump_keeps | apply State.raise_keeps | apply State.svcSend_keeps
    | ((conv in (State.mk ..) => skip); with_reducible apply Keeps.mkUpd)

theorem State.svcAnswer_keeps {s0 s : State} (h : Keeps s0 s) (seq : Byte) (cmd : Byte) (status : Nat) (payload : List Byte) : Keeps s0 (svcAnswer s seq cmd status payload) := by
  unfold svcAnswer
  repeat' first
    | with_reducible assumption
    | with_reducible first | apply State.svcDone_keeps

theorem State.svcPoll_keeps {s0 s : State} (h : Keeps s0 s)  : Keeps s0 (svcPoll s) := by
  unfold svcPoll
  repeat' first
    | with_reducible assumption
    | with_reducible first | apply State.svcAnswer_keeps
    | split
    | ((conv in (State.mk ..) => skip); with_reducible apply Keeps.mkUpd)

theorem State.svcTake_keeps {s0 s : State} (h : Keeps s0 s) (seq : Byte) (cmd : Byte) (lenOk : Bool) (f : State → State) (hf4 : ∀ x0, Keeps s0 x0 → Keeps s0 (f x0)) : Keeps s0 (svcTake s seq cmd lenOk f) := by
  unfold svcTake
  repeat' first
    | with_reducible assumption
    | with_reducible first | apply State.svcPoll_keeps | apply State.bump_keeps | apply State.svcSend_keeps
    | with_reducible apply hf4
    | with_reducible apply Keeps.ite
    | split

theorem State.svcUpdRun_keeps {s0 s : State} (h : Keeps s0 s) (cmd : Byte) (f : List Byte) (ok : Bool) : Keeps s0 (svcUpdRun s cmd f ok).2 := by
  have h2 := updOpen_keeps h 1 f ok
  have h3 := updPiece_keeps h 1 (ofLE (sub f 0 2)) (ofLE (sub f 2 4)) (f.drop 6) ok
  have h4 := updAbort_keeps h 1
  unfold svcUpdRun
  generalize s.updOpen 1 f ok = q2 at h2 ⊢
  generalize s.updPiece 1 (ofLE (sub f 0 2)) (ofLE (sub f 2 4)) (f.drop 6) ok = q3 at h3 ⊢
  generalize s.updAbort 1 = q4 at h4 ⊢
  generalize cmd.toNat = k
  generalize leBytes 4 s.updStatView.toNat ++ s.rdBytes (keepPage 1113) 16 ++ s.sess.ident = bs
  dsimp only
  refine Keeps.ite2 h ?_
  split
  · exact h2
  · exact h3
  · exact h
  · exact h4

theorem State.svcUpd_keeps {s0 s : State} (h : Keeps s0 s) (seq : Byte) (cmd : Byte) (f : List Byte) (ok : Bool) : Keeps s0 (svcUpd s seq cmd f ok) := by
  unfold svcUpd
  repeat' first
    | with_reducible assumption
    | with_reducible first | apply State.svcUpdRun_keeps | apply State.svcAnswer_keeps
    | split
    | ((conv in (State.mk ..) => skip); with_reducible apply Keeps.mkUpd)

theorem State.svcResume_keeps {s0 s : State} (h : Keeps s0 s)  : Keeps s0 (svcResume s) := by
  unfold svcResume
  repeat' first
    | with_reducible assumption
    | with_reducible first | apply State.svcUpd_keeps
    | split
    | ((conv in (State.mk ..) => skip); with_reducible apply Keeps.mkUpd)

theorem State.svcWords_keeps {s0 s : State} (h : Keeps s0 s) (hide : Bool) (a : Nat) (y3 : Nat) : Keeps s0 (svcWords s hide a y3).2 := by
  induction y3 generalizing s a with
  | zero => exact h
  | succ n ih =>
    unfold svcWords
    exact ih (Keeps.ite2 h (accRead_keeps h ..)) _

theorem State.svcDump_keeps {s0 s : State} (h : Keeps s0 s) (f : List Byte) : Keeps s0 (svcDump s f).2 := by
  have hfb := freeBytes_keeps h (List.replicate 1024 0)
  have hw : ∀ b a n, Keeps s0 (s.svcWords b a n).2 := fun b a n => svcWords_keeps h b a n
  unfold svcDump
  generalize s.svcWords = W at hw ⊢
  generalize s.freeBytes (List.replicate 1024 0) = fb at hfb ⊢
  dsimp only
  refine Keeps.ite2 h ?_
  split
  · exact hw ..
  · exact hw ..
  · exact hw ..
  · exact Keeps.ite2 (hw ..) hfb
  · exact hfb

theorem State.svcMode_keeps {s0 s : State} (h : Keeps s0 s) (seq : Byte) (f : List Byte) : Keeps s0 (svcMode s seq f) := by
  unfold svcMode
  repeat' first
    | with_reducible assumption
    | with_reducible first | apply State.raise_keeps | apply State.svcAnswer_keeps | apply State.freeBytes_keeps | apply State.requestMode_keeps | apply State.svcPoll_keeps
    | with_reducible apply Keeps.ite
    | ((conv in (State.mk ..) => skip); with_reducible apply Keeps.mkUpd)

theorem State.svcBad_keeps {s0 s : State} (h : Keeps s0 s)  : Keeps s0 (svcBad s) := by
  unfold svcBad
  repeat' first
    | with_reducible assumption
    | with_reducible first | apply State.bump_keeps | apply State.raiseFree_keeps
    | with_reducible apply Keeps.ite
    | ((conv in (State.mk ..) => skip); with_reducible apply Keeps.mkUpd)

theorem execSvcBadFrame_keeps {s0 s : State} (h : Keeps s0 s)  : Keeps.Out s0 (execSvcBadFrame s) := by
  unfold execSvcBadFrame
  repeat' first
    | with_reducible assumption
    | with_reducible first | apply State.svcBad_keeps
    | with_reducible apply Keeps.out

theorem execSvcGapTimeout_keeps {s0 s : State} (h : Keeps s0 s)  : Keeps.Out s0 (execSvcGapTimeout s) := by
  unfold execSvcGapTimeout
  repeat' first
    | with_reducible assumption
    | with_reducible first | apply State.setRb_keeps
    | with_reducible apply Keeps.out

theorem execIdentify_keeps {s0 s : State} (h : Keeps s0 s) (seq : Byte) : Keeps.Out s0 (execIdentify seq s) := by
  unfold execIdentify
  repeat' first
    | refine fun x => ?_
    | with_reducible assumption
    | with_reducible first | apply State.svcTake_keeps | apply State.svcAnswer_keeps
    | with_reducible apply Keeps.out

theorem execUpdOpen_keeps {s0 s : State} (h : Keeps s0 s) (seq : Byte) (f : List Byte) (ok : Bool) : Keeps.Out s0 (execUpdOpen seq f ok s) := by
  unfold execUpdOpen
  repeat' first
    | refine fun x => ?_
    | with_reducible assumption
    | with_reducible first | apply State.svcTake_keeps | apply State.svcUpd_keeps
    | with_reducible apply Keeps.out

theorem execUpdPiece_keeps {s0 s : State} (h : Keeps s0 s) (seq : Byte) (f : List Byte) (ok : Bool) : Keeps.Out s0 (execUpdPiece seq f ok s) := by
  unfold execUpdPiece
  repeat' first
    | refine fun x => ?_
    | with_reducible assumption
    | with_reducible first | apply State.svcTake_keeps | apply State.svcUpd_keeps
    | with_reducible apply Keeps.out

theorem execUpdStatus_keeps {s0 s : State} (h : Keeps s0 s) (seq : Byte) : Keeps.Out s0 (execUpdStatus seq s) := by
  unfold execUpdStatus
  repeat' first
    | refine fun x => ?_
    | with_reducible assumption
    | with_reducible first | apply State.svcTake_keeps | apply State.svcUpd_keeps
    | with_reducible apply Keeps.out

theorem execUpdAbort_keeps {s0 s : State} (h : Keeps s0 s) (seq : Byte) : Keeps.Out s0 (execUpdAbort seq s) := by
  unfold execUpdAbort
  repeat' first
    | refine fun x => ?_
    | with_reducible assumption
    | with_reducible first | apply State.svcTake_keeps | apply State.svcUpd_keeps
    | with_reducible apply Keeps.out

theorem execDiagDump_keeps {s0 s : State} (h : Keeps s0 s) (seq : Byte) (f : List Byte) : Keeps.Out s0 (execDiagDump seq f s) := by
  unfold execDiagDump
  exact Keeps.out (svcTake_keeps h _ _ _ _ fun u hu => svcAnswer_keeps (svcDump_keeps hu _) ..)

theorem execModeReq_keeps {s0 s : State} (h : Keeps s0 s) (seq : Byte) (f : List Byte) : Keeps.Out s0 (execModeReq seq f s) := by
  unfold execModeReq
  repeat' first
    | refine fun x => ?_
    | with_reducible assumption
    | with_reducible first | apply State.svcTake_keeps | apply State.svcMode_keeps
    | with_reducible apply Keeps.out

theorem execUnknownCmd_keeps {s0 s : State} (h : Keeps s0 s) (seq : Byte) (cmd : Byte) : Keeps.Out s0 (execUnknownCmd seq cmd s) := by
  unfold execUnknownCmd
  repeat' first
    | refine fun x => ?_
    | with_reducible assumption
    | with_reducible first | apply State.svcTake_keeps | apply State.svcDone_keeps
    | with_reducible apply Keeps.out
    | split

theorem execHcmdDone_keeps {s0 s : State} (h : Keeps s0 s) (ok : Bool) : Keeps.Out s0 (execHcmdDone ok s) := by
  unfold execHcmdDone
  repeat' first
    | with_reducible assumption
    | with_reducible first | apply State.svcResume_keeps | apply State.hcmdDone_keeps
    | with_reducible apply Keeps.out

end Sys2Proof.Machine
end

