-- ==== Sys2Proof/Laws/KeepsStep.lean ====
section
/-! SUPPORT. `Keeps` of every command and of the idle tick; what a step keeps. -/

-- one declaration at a time: many at once take a thread and its stack each
set_option Elab.async false

set_option linter.all false

namespace Sys2Proof.Machine

theorem exec_keeps (i : Instr) (s : State) : Keeps.Out s (exec i s) :=
  match i with
  | .lowPartLatch ag addr n => execLowPartLatch_keeps (Keeps.refl s) ..
  | .registerWrite ag addr n v => execRegisterWrite_keeps (Keeps.refl s) ..
  | .rclRead ag addr => execRclRead_keeps (Keeps.refl s) ..
  | .heldRequestStart fn => execHeldRequestStart_keeps (Keeps.refl s) ..
  | .bar0winWrite ag v => execBar0winWrite_keeps (Keeps.refl s) ..
  | .softRst ag page => execSoftRst_keeps (Keeps.refl s) ..
  | .softRstEnd page => execSoftRstEnd_keeps (Keeps.refl s) ..
  | .pageEnable ag page en => execPageEnable_keeps (Keeps.refl s) ..
  | .freezeSet ag page => execFreezeSet_keeps (Keeps.refl s) ..
  | .freezeClear ag page => execFreezeClear_keeps (Keeps.refl s) ..
  | .ownerWrite ag page v => execOwnerWrite_keeps (Keeps.refl s) ..
  | .ownerLock ag page => execOwnerLock_keeps (Keeps.refl s) ..
  | .cfgswapGo ag => execCfgswapGo_keeps (Keeps.refl s) ..
  | .configSwap => execConfigSwap_keeps (Keeps.refl s)
  | .cfgswapCopy ag => execCfgswapCopy_keeps (Keeps.refl s) ..
  | .copyDone => execCopyDone_keeps (Keeps.refl s)
  | .mapCheck => execMapCheck_keeps (Keeps.refl s)
  | .evtPendClear ag page v => execEvtPendClear_keeps (Keeps.refl s) ..
  | .evtSwraise ag v => execEvtSwraise_keeps (Keeps.refl s) ..
  | .msixMessage vec => execMsixMessage_keeps (Keeps.refl s) ..
  | .logWrite => execLogWrite_keeps (Keeps.refl s)
  | .logRidxWrite ag v => execLogRidxWrite_keeps (Keeps.refl s) ..
  | .sysModereq ag v => execSysModereq_keeps (Keeps.refl s) ..
  | .modeChange => execModeChange_keeps (Keeps.refl s)
  | .mainSupplyFail vbat => execMainSupplyFail_keeps (Keeps.refl s) ..
  | .supplyWarn k => execSupplyWarn_keeps (Keeps.refl s) k
  | .vbatLow => execVbatLow_keeps (Keeps.refl s)
  | .powerOn vbatKept => execPowerOn_keeps (Keeps.refl s) ..
  | .rstNLow ns => execRstNLow_keeps (Keeps.refl s) ..
  | .sysReset ag v => execSysReset_keeps (Keeps.refl s) ..
  | .romStart obs => execRomStart_keeps (Keeps.refl s) ..
  | .hostbootGo ag v => execHostbootGo_keeps (Keeps.refl s) ..
  | .bootDone us => execBootDone_keeps (Keeps.refl s) ..
  | .domainRequest ag d v => execDomainRequest_keeps (Keeps.refl s) ..
  | .domDone d => execDomDone_keeps (Keeps.refl s) ..
  | .pllUnlock p => execPllUnlock_keeps (Keeps.refl s) ..
  | .ref25Measurement ppm => execRef25Measurement_keeps (Keeps.refl s) ..
  | .halt c => execHalt_keeps (Keeps.refl s) ..
  | .stewardWake => execStewardWake_keeps (Keeps.refl s)
  | .nop c => execNop_keeps (Keeps.refl s) ..
  | .repImm c n => execRepImm_keeps (Keeps.refl s) ..
  | .repReg c g => execRepReg_keeps (Keeps.refl s) ..
  | .repRc c => execRepRc_keeps (Keeps.refl s) ..
  | .seal c n => execSeal_keeps (Keeps.refl s) ..
  | .lck c n => execLck_keeps (Keeps.refl s) ..
  | .lockTimeout c => execLockTimeout_keeps (Keeps.refl s) ..
  | .step c => execStep_keeps (Keeps.refl s) ..
  | .movs c gd sr => execMovs_keeps (Keeps.refl s) ..
  | .movt c sr gs => execMovt_keeps (Keeps.refl s) ..
  | .evret c => execEvret_keeps (Keeps.refl s) ..
  | .brk c code => execBrk_keeps (Keeps.refl s) ..
  | .jmpr c pb => execJmpr_keeps (Keeps.refl s) ..
  | .pshk c => execPshk_keeps (Keeps.refl s) ..
  | .popk c => execPopk_keeps (Keeps.refl s) ..
  | .andpk c => execAndpk_keeps (Keeps.refl s) ..
  | .orpk c => execOrpk_keeps (Keeps.refl s) ..
  | .xorpk c => execXorpk_keeps (Keeps.refl s) ..
  | .notk c => execNotk_keeps (Keeps.refl s) ..
  | .onek c => execOnek_keeps (Keeps.refl s) ..
  | .zerok c => execZerok_keeps (Keeps.refl s) ..
  | .ld c g pb disp => execLd_keeps (Keeps.refl s) ..
  | .st c g pb disp => execSt_keeps (Keeps.refl s) ..
  | .ldp c g pb disp => execLdp_keeps (Keeps.refl s) ..
  | .stp c g pb disp => execStp_keeps (Keeps.refl s) ..
  | .ldk c b pb disp => execLdk_keeps (Keeps.refl s) ..
  | .ldkn c b pb disp => execLdkn_keeps (Keeps.refl s) ..
  | .andk c b pb disp => execAndk_keeps (Keeps.refl s) ..
  | .andkn c b pb disp => execAndkn_keeps (Keeps.refl s) ..
  | .ork c b pb disp => execOrk_keeps (Keeps.refl s) ..
  | .orkn c b pb disp => execOrkn_keeps (Keeps.refl s) ..
  | .xork c b pb disp => execXork_keeps (Keeps.refl s) ..
  | .stk c b pb disp => execStk_keeps (Keeps.refl s) ..
  | .stkn c b pb disp => execStkn_keeps (Keeps.refl s) ..
  | .setk c b pb disp => execSetk_keeps (Keeps.refl s) ..
  | .clrk c b pb disp => execClrk_keeps (Keeps.refl s) ..
  | .rise c b pb disp => execRise_keeps (Keeps.refl s) ..
  | .fall c b pb disp => execFall_keeps (Keeps.refl s) ..
  | .tmr c b pb disp => execTmr_keeps (Keeps.refl s) ..
  | .add c gd gs gt => execAdd_keeps (Keeps.refl s) ..
  | .adc c gd gs gt => execAdc_keeps (Keeps.refl s) ..
  | .sub c gd gs gt => execSub_keeps (Keeps.refl s) ..
  | .sbc c gd gs gt => execSbc_keeps (Keeps.refl s) ..
  | .and c gd gs gt => execAnd_keeps (Keeps.refl s) ..
  | .or c gd gs gt => execOr_keeps (Keeps.refl s) ..
  | .xor c gd gs gt => execXor_keeps (Keeps.refl s) ..
  | .cmp c gs gt => execCmp_keeps (Keeps.refl s) ..
  | .shl c gd gs gt => execShl_keeps (Keeps.refl s) ..
  | .shr c gd gs gt => execShr_keeps (Keeps.refl s) ..
  | .asr c gd gs gt => execAsr_keeps (Keeps.refl s) ..
  | .rol c gd gs gt => execRol_keeps (Keeps.refl s) ..
  | .ror c gd gs gt => execRor_keeps (Keeps.refl s) ..
  | .mov c gd gs => execMov_keeps (Keeps.refl s) ..
  | .not c gd gs => execNot_keeps (Keeps.refl s) ..
  | .neg c gd gs => execNeg_keeps (Keeps.refl s) ..
  | .mulu c gd gs gt => execMulu_keeps (Keeps.refl s) ..
  | .muls c gd gs gt => execMuls_keeps (Keeps.refl s) ..
  | .divu c gd gs gt => execDivu_keeps (Keeps.refl s) ..
  | .divs c gd gs gt => execDivs_keeps (Keeps.refl s) ..
  | .addw c gd gs gt => execAddw_keeps (Keeps.refl s) ..
  | .subw c gd gs gt => execSubw_keeps (Keeps.refl s) ..
  | .cmpw c gs gt => execCmpw_keeps (Keeps.refl s) ..
  | .movw c gd gs => execMovw_keeps (Keeps.refl s) ..
  | .ldi c gd imm => execLdi_keeps (Keeps.refl s) ..
  | .addi c gd imm => execAddi_keeps (Keeps.refl s) ..
  | .adci c gd imm => execAdci_keeps (Keeps.refl s) ..
  | .subi c gd imm => execSubi_keeps (Keeps.refl s) ..
  | .sbci c gd imm => execSbci_keeps (Keeps.refl s) ..
  | .andi c gd imm => execAndi_keeps (Keeps.refl s) ..
  | .ori c gd imm => execOri_keeps (Keeps.refl s) ..
  | .xori c gd imm => execXori_keeps (Keeps.refl s) ..
  | .cmpi c gd imm => execCmpi_keeps (Keeps.refl s) ..
  | .tsti c gd imm => execTsti_keeps (Keeps.refl s) ..
  | .shli c gd imm => execShli_keeps (Keeps.refl s) ..
  | .shri c gd imm => execShri_keeps (Keeps.refl s) ..
  | .asri c gd imm => execAsri_keeps (Keeps.refl s) ..
  | .roli c gd imm => execRoli_keeps (Keeps.refl s) ..
  | .rori c gd imm => execRori_keeps (Keeps.refl s) ..
  | .addwi c gd imm => execAddwi_keeps (Keeps.refl s) ..
  | .subwi c gd imm => execSubwi_keeps (Keeps.refl s) ..
  | .kfr c gd b => execKfr_keeps (Keeps.refl s) ..
  | .kto c gd b => execKto_keeps (Keeps.refl s) ..
  | .br c cond off => execBr_keeps (Keeps.refl s) ..
  | .brf c cond off => execBrf_keeps (Keeps.refl s) ..
  | .jmp c target => execJmp_keeps (Keeps.refl s) ..
  | .call c target => execCall_keeps (Keeps.refl s) ..
  | .lcSwevt c v => execLcSwevt_keeps (Keeps.refl s) ..
  | .lcStwqRead => execLcStwqRead_keeps (Keeps.refl s)
  | .lcRindStore c off v => execLcRindStore_keeps (Keeps.refl s) ..
  | .lcTpoCommit c n v => execLcTpoCommit_keeps (Keeps.refl s) ..
  | .arbiterDecision id reqs dead => execArbiterDecision_keeps (Keeps.refl s) ..
  | .arbCommit ag v => execArbCommit_keeps (Keeps.refl s) ..
  | .inputFreeze => execInputFreeze_keeps (Keeps.refl s)
  | .updateDone clk => execUpdateDone_keeps (Keeps.refl s) ..
  | .mergeDone => execMergeDone_keeps (Keeps.refl s)
  | .publishCopyDone => execPublishCopyDone_keeps (Keeps.refl s)
  | .overrun => execOverrun_keeps (Keeps.refl s)
  | .apply => execApply_keeps (Keeps.refl s)
  | .rindRefreshSkip => execRindRefreshSkip_keeps (Keeps.refl s)
  | .eventDispatch => execEventDispatch_keeps (Keeps.refl s)
  | .preemption c => execPreemption_keeps (Keeps.refl s) ..
  | .laneFault p cause => execLaneFault_keeps (Keeps.refl s) ..
  | .spareReady b => execSpareReady_keeps (Keeps.refl s) ..
  | .copyErr b addr half => execCopyErr_keeps (Keeps.refl s) ..
  | .forceflt ag b v => execForceflt_keeps (Keeps.refl s) ..
  | .breakpointHit p => execBreakpointHit_keeps (Keeps.refl s) ..
  | .holdKeepalive => execHoldKeepalive_keeps (Keeps.refl s)
  | .holdStep ag => execHoldStep_keeps (Keeps.refl s) ..
  | .holdCycle ag => execHoldCycle_keeps (Keeps.refl s) ..
  | .dbgCoreHalt ag v => execDbgCoreHalt_keeps (Keeps.refl s) ..
  | .dbgCoreRun ag v => execDbgCoreRun_keeps (Keeps.refl s) ..
  | .serviceLaneFault k => execServiceLaneFault_keeps (Keeps.refl s) ..
  | .psnclr ag v => execPsnclr_keeps (Keeps.refl s) ..
  | .tmcModeWrite ag cell v => execTmcModeWrite_keeps (Keeps.refl s) ..
  | .cellCountCommit ag cell v => execCellCountCommit_keeps (Keeps.refl s) ..
  | .grfArm ag => execGrfArm_keeps (Keeps.refl s) ..
  | .graftDigestDone => execGraftDigestDone_keeps (Keeps.refl s)
  | .grfDisarm ag => execGrfDisarm_keeps (Keeps.refl s) ..
  | .mapidxWrite ag v => execMapidxWrite_keeps (Keeps.refl s) ..
  | .mapdataHiWrite ag v => execMapdataHiWrite_keeps (Keeps.refl s) ..
  | .mapdataHiRead ag => execMapdataHiRead_keeps (Keeps.refl s) ..
  | .graftTestPoint => execGraftTestPoint_keeps (Keeps.refl s)
  | .graftAttemptFail => execGraftAttemptFail_keeps (Keeps.refl s)
  | .grfApplied => execGrfApplied_keeps (Keeps.refl s)
  | .graftLate => execGraftLate_keeps (Keeps.refl s)
  | .nonVuvasFrame net => execNonVuvasFrame_keeps (Keeps.refl s) ..
  | .inFrameRx net f lands => execInFrameRx_keeps (Keeps.refl s) ..
  | .helloRx net f => execHelloRx_keeps (Keeps.refl s) ..
  | .diagRx net f => execDiagRx_keeps (Keeps.refl s) ..
  | .partnerOutRx net f => execPartnerOutRx_keeps (Keeps.refl s) ..
  | .schedTx => execSchedTx_keeps (Keeps.refl s)
  | .safeTx => execSafeTx_keeps (Keeps.refl s)
  | .releaseTx => execReleaseTx_keeps (Keeps.refl s)
  | .confTx => execConfTx_keeps (Keeps.refl s)
  | .releaseRequest ag m v => execReleaseRequest_keeps (Keeps.refl s) ..
  | .safeRequest ag m v => execSafeRequest_keeps (Keeps.refl s) ..
  | .outFrameRx net f => execOutFrameRx_keeps (Keeps.refl s) ..
  | .schedRx net f => execSchedRx_keeps (Keeps.refl s) ..
  | .safeFrameRx net f => execSafeFrameRx_keeps (Keeps.refl s) ..
  | .releaseRx net f => execReleaseRx_keeps (Keeps.refl s) ..
  | .confRx net f => execConfRx_keeps (Keeps.refl s) ..
  | .takeRx net f => execTakeRx_keeps (Keeps.refl s) ..
  | .stationApply => execStationApply_keeps (Keeps.refl s)
  | .stationSample => execStationSample_keeps (Keeps.refl s)
  | .helloTx => execHelloTx_keeps (Keeps.refl s)
  | .diagTx => execDiagTx_keeps (Keeps.refl s)
  | .stationTimeout => execStationTimeout_keeps (Keeps.refl s)
  | .stnLeadLost => execStnLeadLost_keeps (Keeps.refl s)
  | .hbTx => execHbTx_keeps (Keeps.refl s)
  | .hbRx r => execHbRx_keeps (Keeps.refl s) ..
  | .twinLinkLost => execTwinLinkLost_keeps (Keeps.refl s)
  | .takeInPulse ns => execTakeInPulse_keeps (Keeps.refl s) ..
  | .dtimeRx r => execDtimeRx_keeps (Keeps.refl s) ..
  | .dlineRx r => execDlineRx_keeps (Keeps.refl s) ..
  | .cfgwRx r => execCfgwRx_keeps (Keeps.refl s) ..
  | .commitRx r => execCommitRx_keeps (Keeps.refl s) ..
  | .deltaLate => execDeltaLate_keeps (Keeps.refl s)
  | .digestRx r => execDigestRx_keeps (Keeps.refl s) ..
  | .pubwaitExpiry => execPubwaitExpiry_keeps (Keeps.refl s)
  | .switchReq r => execSwitchReq_keeps (Keeps.refl s) ..
  | .switchAck r => execSwitchAck_keeps (Keeps.refl s) ..
  | .cmdReset r => execCmdReset_keeps (Keeps.refl s) ..
  | .cmdHandover r => execCmdHandover_keeps (Keeps.refl s) ..
  | .cmdDiverge r => execCmdDiverge_keeps (Keeps.refl s) ..
  | .cmdHold r => execCmdHold_keeps (Keeps.refl s) ..
  | .cmdResume r => execCmdResume_keeps (Keeps.refl s) ..
  | .cmdGrfDigest r => execCmdGrfDigest_keeps (Keeps.refl s) ..
  | .cmdGrfGo r => execCmdGrfGo_keeps (Keeps.refl s) ..
  | .twnPreset ag v => execTwnPreset_keeps (Keeps.refl s) ..
  | .twnSwitch ag => execTwnSwitch_keeps (Keeps.refl s) ..
  | .twnResync ag => execTwnResync_keeps (Keeps.refl s) ..
  | .flineRx r => execFlineRx_keeps (Keeps.refl s) ..
  | .fmarkRx r => execFmarkRx_keeps (Keeps.refl s) ..
  | .timSet ag => execTimSet_keeps (Keeps.refl s) ..
  | .timStep ag => execTimStep_keeps (Keeps.refl s) ..
  | .loadrtc ag => execLoadrtc_keeps (Keeps.refl s) ..
  | .rtcLoad => execRtcLoad_keeps (Keeps.refl s)
  | .offsetMeasurement ag v => execOffsetMeasurement_keeps (Keeps.refl s) ..
  | .holdoverExpiry => execHoldoverExpiry_keeps (Keeps.refl s)
  | .tciEdge n rising => execTciEdge_keeps (Keeps.refl s) ..
  | .tciTsRead ag n => execTciTsRead_keeps (Keeps.refl s) ..
  | .tpoArm ag n v => execTpoArm_keeps (Keeps.refl s) ..
  | .tpoUnarm ag n v => execTpoUnarm_keeps (Keeps.refl s) ..
  | .tpoEdge n => execTpoEdge_keeps (Keeps.refl s) ..
  | .tpoDone n => execTpoDone_keeps (Keeps.refl s) ..
  | .ethEnable ag n en => execEthEnable_keeps (Keeps.refl s) ..
  | .ethTransitionDone n => execEthTransitionDone_keeps (Keeps.refl s) ..
  | .mdioGo ag n v => execMdioGo_keeps (Keeps.refl s) ..
  | .mdioDone n data => execMdioDone_keeps (Keeps.refl s) ..
  | .ethTxFrame n => execEthTxFrame_keeps (Keeps.refl s) ..
  | .txtsRead ag n => execTxtsRead_keeps (Keeps.refl s) ..
  | .ethRxFrame n f ok => execEthRxFrame_keeps (Keeps.refl s) ..
  | .linkChange n up speed => execLinkChange_keeps (Keeps.refl s) ..
  | .canEnable ag n en => execCanEnable_keeps (Keeps.refl s) ..
  | .canTransitionDone n => execCanTransitionDone_keeps (Keeps.refl s) ..
  | .canRxFrame n f age => execCanRxFrame_keeps (Keeps.refl s) ..
  | .rxfullAck ag n m v => execRxfullAck_keeps (Keeps.refl s) ..
  | .txrdy ag n m v => execTxrdy_keeps (Keeps.refl s) ..
  | .txcan ag n m v => execTxcan_keeps (Keeps.refl s) ..
  | .canTxSelect n => execCanTxSelect_keeps (Keeps.refl s) ..
  | .canTxEnd n r age => execCanTxEnd_keeps (Keeps.refl s) ..
  | .canRecover ag n => execCanRecover_keeps (Keeps.refl s) ..
  | .canRecovered n => execCanRecovered_keeps (Keeps.refl s) ..
  | .rndEnable ag en => execRndEnable_keeps (Keeps.refl s) ..
  | .rndChen ag v => execRndChen_keeps (Keeps.refl s) ..
  | .enableDone fn => execEnableDone_keeps (Keeps.refl s) ..
  | .rindRefresh crcOk => execRindRefresh_keeps (Keeps.refl s) ..
  | .rindApply crcOk => execRindApply_keeps (Keeps.refl s) ..
  | .rindSafeFrame crcOk => execRindSafeFrame_keeps (Keeps.refl s) ..
  | .rindReleaseFrame crcOk => execRindReleaseFrame_keeps (Keeps.refl s) ..
  | .rindDirectFrame crcOk => execRindDirectFrame_keeps (Keeps.refl s) ..
  | .rindConfigFrame crcOk => execRindConfigFrame_keeps (Keeps.refl s) ..
  | .rindSample levels => execRindSample_keeps (Keeps.refl s) ..
  | .rindReport rx => execRindReport_keeps (Keeps.refl s) ..
  | .rindTimeout => execRindTimeout_keeps (Keeps.refl s)
  | .demagEnd c => execDemagEnd_keeps (Keeps.refl s) ..
  | .thermalShutdown c on => execThermalShutdown_keeps (Keeps.refl s) ..
  | .rndCmdSafe ag => execRndCmdSafe_keeps (Keeps.refl s) ..
  | .rndCmdRelease ag => execRndCmdRelease_keeps (Keeps.refl s) ..
  | .rindLinkLost => execRindLinkLost_keeps (Keeps.refl s)
  | .rindFaultClear ag => execRindFaultClear_keeps (Keeps.refl s) ..
  | .vfldLost => execVfldLost_keeps (Keeps.refl s)
  | .vfldBack => execVfldBack_keeps (Keeps.refl s)
  | .wdtPeriodCommit ag v => execWdtPeriodCommit_keeps (Keeps.refl s) ..
  | .wdtConfigCommit ag warn v => execWdtConfigCommit_keeps (Keeps.refl s) ..
  | .wdtService ag v => execWdtService_keeps (Keeps.refl s) ..
  | .wdtCheckin ag v => execWdtCheckin_keeps (Keeps.refl s) ..
  | .wdtWindowOpen => execWdtWindowOpen_keeps (Keeps.refl s)
  | .warn => execWarn_keeps (Keeps.refl s)
  | .wdtExpiry => execWdtExpiry_keeps (Keeps.refl s)
  | .wdpulseEnd => execWdpulseEnd_keeps (Keeps.refl s)
  | .keepLoad ag page => execKeepLoad_keeps (Keeps.refl s) ..
  | .keepCommit ag page => execKeepCommit_keeps (Keeps.refl s) ..
  | .pipinc ag page => execPipinc_keeps (Keeps.refl s) ..
  | .pipread ag page => execPipread_keeps (Keeps.refl s) ..
  | .pipinit ag page => execPipinit_keeps (Keeps.refl s) ..
  | .unlockRd ag => execUnlockRd_keeps (Keeps.refl s) ..
  | .unlockWr ag => execUnlockWr_keeps (Keeps.refl s) ..
  | .keepLock ag => execKeepLock_keeps (Keeps.refl s) ..
  | .setpwRd ag => execSetpwRd_keeps (Keeps.refl s) ..
  | .setpwWr ag => execSetpwWr_keeps (Keeps.refl s) ..
  | .setbp ag => execSetbp_keeps (Keeps.refl s) ..
  | .keepCmdExecute => execKeepCmdExecute_keeps (Keeps.refl s)
  | .commitDone vf => execCommitDone_keeps (Keeps.refl s) ..
  | .keepBackgroundWrite page vf => execKeepBackgroundWrite_keeps (Keeps.refl s) ..
  | .rtcSecondTick => execRtcSecondTick_keeps (Keeps.refl s)
  | .compWindow temp => execCompWindow_keeps (Keeps.refl s) ..
  | .oscStop => execOscStop_keeps (Keeps.refl s)
  | .pd0PowerUp => execPd0PowerUp_keeps (Keeps.refl s)
  | .vbatChangeover toVbat => execVbatChangeover_keeps (Keeps.refl s) ..
  | .rtcSet ag => execRtcSet_keeps (Keeps.refl s) ..
  | .addh ag => execAddh_keeps (Keeps.refl s) ..
  | .subh ag => execSubh_keeps (Keeps.refl s) ..
  | .fromnet ag => execFromnet_keeps (Keeps.refl s) ..
  | .rtcXfer => execRtcXfer_keeps (Keeps.refl s)
  | .flr => execFlr_keeps (Keeps.refl s)
  | .perst => execPerst_keeps (Keeps.refl s)
  | .flrDone => execFlrDone_keeps (Keeps.refl s)
  | .pcieLinkUp speed width => execPcieLinkUp_keeps (Keeps.refl s) ..
  | .pcieLinkDown => execPcieLinkDown_keeps (Keeps.refl s)
  | .aerUe => execAerUe_keeps (Keeps.refl s)
  | .aerCe => execAerCe_keeps (Keeps.refl s)
  | .mbxH2dSet v => execMbxH2dSet_keeps (Keeps.refl s) ..
  | .mbxH2dClear ag v => execMbxH2dClear_keeps (Keeps.refl s) ..
  | .mbxD2hSet ag v => execMbxD2hSet_keeps (Keeps.refl s) ..
  | .mbxD2hClear v => execMbxD2hClear_keeps (Keeps.refl s) ..
  | .svcBadFrame => execSvcBadFrame_keeps (Keeps.refl s)
  | .svcGapTimeout => execSvcGapTimeout_keeps (Keeps.refl s)
  | .identify seq => execIdentify_keeps (Keeps.refl s) ..
  | .updOpen seq f ok => execUpdOpen_keeps (Keeps.refl s) ..
  | .updPiece seq f ok => execUpdPiece_keeps (Keeps.refl s) ..
  | .updStatus seq => execUpdStatus_keeps (Keeps.refl s) ..
  | .updAbort seq => execUpdAbort_keeps (Keeps.refl s) ..
  | .diagDump seq f => execDiagDump_keeps (Keeps.refl s) ..
  | .modeReq seq f => execModeReq_keeps (Keeps.refl s) ..
  | .unknownCmd seq cmd => execUnknownCmd_keeps (Keeps.refl s) ..
  | .qspRead ag => execQspRead_keeps (Keeps.refl s) ..
  | .qspProgram ag => execQspProgram_keeps (Keeps.refl s) ..
  | .qspErase4k ag => execQspErase4k_keeps (Keeps.refl s) ..
  | .qspErase64k ag => execQspErase64k_keeps (Keeps.refl s) ..
  | .qspDone bank err => execQspDone_keeps (Keeps.refl s) ..
  | .hcmdOpen ag => execHcmdOpen_keeps (Keeps.refl s) ..
  | .hcmdPiece ag => execHcmdPiece_keeps (Keeps.refl s) ..
  | .hcmdAbort ag => execHcmdAbort_keeps (Keeps.refl s) ..
  | .arbAdvance ag v => execArbAdvance_keeps (Keeps.refl s) ..
  | .secureBoot ag v => execSecureBoot_keeps (Keeps.refl s) ..
  | .dbgLock ag v => execDbgLock_keeps (Keeps.refl s) ..
  | .keyrev ag v => execKeyrev_keeps (Keeps.refl s) ..
  | .hcmdDone ok => execHcmdDone_keeps (Keeps.refl s) ..
  | .keyUnwrap ag => execKeyUnwrap_keeps (Keeps.refl s) ..
  | .keyClear ag => execKeyClear_keeps (Keeps.refl s) ..
  | .xcmdGo ag => execXcmdGo_keeps (Keeps.refl s) ..
  | .evtset ag v => execEvtset_keeps (Keeps.refl s) ..
  | .fusArbBit ag v => execFusArbBit_keeps (Keeps.refl s) ..
  | .fusSecureBoot ag v => execFusSecureBoot_keeps (Keeps.refl s) ..
  | .fusDbgLock ag v => execFusDbgLock_keeps (Keeps.refl s) ..
  | .fusKeyrev ag v => execFusKeyrev_keeps (Keeps.refl s) ..
  | .fusProgramDone ok => execFusProgramDone_keeps (Keeps.refl s) ..
  | .scrubRead k key ue ce => execScrubRead_keeps (Keeps.refl s) ..
  | .scrubWriteback key => execScrubWriteback_keeps (Keeps.refl s) ..
  | .rcalRequest => execRcalRequest_keeps (Keeps.refl s)
  | .rtcTrimWindow e discarded => execRtcTrimWindow_keeps (Keeps.refl s) ..
  | .rateAverage mean => execRateAverage_keeps (Keeps.refl s) ..
  | .telemetrySample temps volts => execTelemetrySample_keeps (Keeps.refl s) ..
  | .lclr ag => execLclr_keeps (Keeps.refl s) ..
  | .hbMiss => execHbMiss_keeps (Keeps.refl s)
  | .pllLock p => execPllLock_keeps (Keeps.refl s) ..
  | .canRxError n lec big => execCanRxError_keeps (Keeps.refl s) ..
  | .currentLimit c on => execCurrentLimit_keeps (Keeps.refl s) ..

/-- Every command ends in a next state, from every state, and this is what it leaves alone. -/
theorem exec_completes (i : Instr) (s : State) : ∃ t, exec i s = .next t ∧ Keeps s t := (exec_keeps i s).ok

/-- What a command leaves alone, whichever it is. -/
theorem exec_next_keeps {i : Instr} {s t : State} (h : exec i s = .next t) : Keeps s t := by
  obtain ⟨u, hu, k⟩ := exec_completes i s
  rw [hu] at h; cases h; exact k

end Sys2Proof.Machine
end

