-- ==== Sys2Proof/Laws/LaneAlu.lean ====
section
/-! SUPPORT. What the byte, word, multiply and bit-stack instructions of a core do: results in numbers, pairs, results that land. -/

-- one declaration at a time: many at once take a thread and its stack each
set_option Elab.async false

set_option linter.all false

namespace Sys2Proof.Machine
open State

theorem Ran.congr {s t : State} {c : Nat} {k : Kind} {g : Goes} {f h : Ctx → Ctx} {l m : List (Dest × Half)} (r : Ran s t c k g f l) (e : f = h) (e2 : l = m := by rfl) :
    Ran s t c k g h m := e2 ▸ e ▸ r

theorem aluOp_ran {s : State} {c : Core} (h : Executes s c .plain) (f : Ctx → Ctx → Ctx) :
    Ran s (s.aluOp c f) c .plain .seq (f (unexpired (s.cx c))) [] := issue_ran s h rfl rfl

theorem bool_one (b : Bool) : b = ((if b then 1 else 0 : Nat) == 1) := by cases b <;> rfl

theorem bool_zero (b : Bool) : b = ((1 - (if b then 1 else 0) : Nat) == 0) := by cases b <;> rfl

theorem bool_le (b : Bool) : (if b then 1 else 0 : Nat) ≤ 1 := by cases b <;> simp

theorem withAlu_add (d : GReg) (u v : Byte) (n : Nat) (hn : n ≤ 1) (b : Bool) (hb : b = (n == 1)) : (fun z => withAlu z d (addAlu u v b)) = fun z =>
    flagsOf (u + v + BitVec.ofNat 8 n) (decide (256 ≤ u.toNat + v.toNat + n)) (u.toInt + v.toInt + n) (z.setReg d.toNat (u + v + BitVec.ofNat 8 n)) := by
  subst hb; funext z; unfold withAlu; rw [addAlu_flags (by omega) u v n hn, addAlu_r u v n hn] <;> rfl

theorem withAlu_sub (d : GReg) (u v : Byte) (n : Nat) (hn : n ≤ 1) (b : Bool) (hb : b = (n == 0)) : (fun z => withAlu z d (subAlu u v b)) = fun z =>
    flagsOf (u - v - BitVec.ofNat 8 n) (decide (v.toNat + n ≤ u.toNat)) (u.toInt - v.toInt - n) (z.setReg d.toNat (u - v - BitVec.ofNat 8 n)) := by
  subst hb; funext z; unfold withAlu; rw [subAlu_flags (by omega) u v n hn, subAlu_r u v n hn]

theorem withCmp_sub (u v : Byte) : (fun z => withCmp z (subAlu u v true)) = fun z =>
    flagsOf (u - v) (decide (v.toNat ≤ u.toNat)) (u.toInt - v.toInt) z := by
  funext z; unfold withCmp; have h := subAlu_flags (by omega) u v 0 (by omega) z; simpa using h

theorem setZn_eq (r : Byte) (z : Ctx) : z.setZn r = znOf r z := by
  unfold Ctx.setZn znOf
  rw [beq_zero_eq, msb_eq (by omega)]
  simp only [decide_eq_decide.mpr (show 2 ^ 8 ≤ 2 * r.toNat ↔ 128 ≤ r.toNat by omega)]

theorem withLogic_eq (d : GReg) (r r' : Byte) (h : r = r') : (fun z => withLogic z d r) = fun z => znOf r' (z.setReg d.toNat r') := by
  subst h; funext z; exact setZn_eq _ _

theorem kto_eq : ∀ (w : Byte) (n : BitVec 3) (k : Bool), ((w &&& ~~~(1#8 <<< n.toNat)) ||| (if k then 1#8 <<< n.toNat else 0)) =
    BitVec.ofNat 8 (w.toNat - bn (w.toNat.testBit n.toNat) * 2 ^ n.toNat + bn k * 2 ^ n.toNat) := by decide

theorem withShift_eq (d : GReg) (p : Byte × Option Bool) (r : Byte) (cy : Bool → Bool) (h1 : p.1 = r) (h2 : ∀ old, p.2.getD old = cy old) :
    (fun z => withShift z d p) = fun z => { znOf r (z.setReg d.toNat r) with fc := cy z.fc } := by
  subst h1
  funext z
  unfold withShift withLogic
  dsimp only
  rw [setZn_eq]
  have := h2 (z.setReg d.toNat p.1).fc
  split
  · rename_i e; rw [e] at this; simp at this; rw [this]; rfl
  · rename_i e; rw [e] at this; simp at this
    have h3 : z.fc = cy z.fc := this
    rw [← h3]; rfl

theorem shl_1 (u : Byte) (k : Nat) : (shiftAlu .shl u k).1 = BitVec.ofNat 8 (u.toNat * 2 ^ k) := by
  unfold shiftAlu
  apply BitVec.eq_of_toNat_eq
  by_cases h : k = 0
  · subst h; simp
  · simp [h, BitVec.toNat_shiftLeft, Nat.shiftLeft_eq]

theorem shl_2 (u : Byte) (k : Nat) (old : Bool) : (shiftAlu .shl u k).2.getD old =
    if k = 0 then old else if k < 8 then u.toNat.testBit (8 - k) else decide (k = 8) && u.toNat.testBit 7 := by
  unfold shiftAlu
  by_cases h : k = 0
  · simp [h]
  · simp only [h, if_false, Option.getD_some, BitVec.testBit_toNat]
    split
    · rfl
    · rfl

theorem shr_1 (u : Byte) (k : Nat) : (shiftAlu .shr u k).1 = BitVec.ofNat 8 (u.toNat / 2 ^ k) := by
  unfold shiftAlu
  apply BitVec.eq_of_toNat_eq
  by_cases h : k = 0
  · subst h; simp
  · have : u.toNat / 2 ^ k < 256 := Nat.lt_of_le_of_lt (Nat.div_le_self _ _) u.isLt
    simp [h, BitVec.toNat_ushiftRight, Nat.shiftRight_eq_div_pow, Nat.mod_eq_of_lt this]

theorem shr_2 (u : Byte) (k : Nat) (old : Bool) : (shiftAlu .shr u k).2.getD old =
    if k = 0 then old else if k < 8 then u.toNat.testBit (k - 1) else decide (k = 8) && u.toNat.testBit 0 := by
  unfold shiftAlu
  by_cases h : k = 0
  · simp [h]
  · simp only [h, if_false, Option.getD_some, BitVec.testBit_toNat]
    split
    · rfl
    · rfl

theorem asr_1 (u : Byte) (k : Nat) : (shiftAlu .asr u k).1 = BitVec.ofInt 8 (u.toInt / 2 ^ k) := by
  unfold shiftAlu
  by_cases h : k = 0
  · subst h; simp
  · simp only [h, if_false]
    apply BitVec.eq_of_toInt_eq
    rw [BitVec.toInt_sshiftRight, BitVec.toInt_ofInt, Int.shiftRight_eq_div_pow]
    have h1 := BitVec.le_toInt u
    have h2 := BitVec.toInt_lt (x := u)
    have h3 : (0 : Int) < 2 ^ k := Int.pow_pos (by omega)
    have h4 : u.toInt / 2 ^ k < 128 := by
      by_cases hs : 0 ≤ u.toInt
      · exact Int.lt_of_le_of_lt (Int.ediv_le_self _ hs) (by omega)
      · have : u.toInt / 2 ^ k < 0 := Int.ediv_neg_of_neg_of_pos (by omega) h3
        omega
    have h5 : -128 ≤ u.toInt / 2 ^ k := by
      rw [Int.le_ediv_iff_mul_le h3]
      have : (1 : Int) ≤ 2 ^ k := h3
      have h6 : -128 * (2 : Int) ^ k ≤ -128 * 1 := Int.mul_le_mul_of_nonpos_left (by omega) this
      omega
    exact (Int.bmod_eq_of_le (by simpa using h5) (by simpa using h4)).symm

theorem asr_2 (u : Byte) (k : Nat) (old : Bool) : (shiftAlu .asr u k).2.getD old =
    if k = 0 then old else if k ≤ 8 then u.toNat.testBit (k - 1) else u.toNat.testBit 7 := by
  unfold shiftAlu
  by_cases h : k = 0
  · simp [h]
  · simp only [h, if_false, Option.getD_some, BitVec.testBit_toNat]
    split
    · rfl
    · rw [BitVec.msb_eq_getLsbD_last]

theorem rol_1 : ∀ (u : Byte) (k : Fin 8), (u.rotateLeft k.val) = BitVec.ofNat 8 (u.toNat * 2 ^ k.val + u.toNat / 2 ^ (8 - k.val)) := by decide

theorem ror_1 : ∀ (u : Byte) (k : Fin 8), (u.rotateRight k.val) = BitVec.ofNat 8 (u.toNat / 2 ^ k.val + u.toNat * 2 ^ (8 - k.val)) := by decide

theorem rol_s (u : Byte) (k : Nat) : (shiftAlu .rol u k).1 = BitVec.ofNat 8 (u.toNat * 2 ^ (k % 8) + u.toNat / 2 ^ (8 - k % 8)) := by
  have := rol_1 u ⟨k % 8, Nat.mod_lt _ (by omega)⟩
  unfold shiftAlu
  dsimp only at this ⊢
  rw [← this]
  split
  · rename_i h; rw [h]; have : ∀ u : Byte, u = u.rotateLeft 0 := by decide
    exact this u
  · rfl

theorem ror_s (u : Byte) (k : Nat) : (shiftAlu .ror u k).1 = BitVec.ofNat 8 (u.toNat / 2 ^ (k % 8) + u.toNat * 2 ^ (8 - k % 8)) := by
  have := ror_1 u ⟨k % 8, Nat.mod_lt _ (by omega)⟩
  unfold shiftAlu
  dsimp only at this ⊢
  rw [← this]
  split
  · rename_i h; rw [h]; have : ∀ u : Byte, u = u.rotateRight 0 := by decide
    exact this u
  · rfl

theorem rol_2 (u : Byte) (k : Nat) (old : Bool) : (shiftAlu .rol u k).2.getD old =
    if k % 8 = 0 then old else (BitVec.ofNat 8 (u.toNat * 2 ^ (k % 8) + u.toNat / 2 ^ (8 - k % 8))).toNat.testBit 0 := by
  have := rol_1 u ⟨k % 8, Nat.mod_lt _ (by omega)⟩
  dsimp only at this
  rw [← this]
  unfold shiftAlu
  dsimp only
  split
  · rfl
  · simp only [Option.getD_some, BitVec.testBit_toNat]

theorem ror_2 (u : Byte) (k : Nat) (old : Bool) : (shiftAlu .ror u k).2.getD old =
    if k % 8 = 0 then old else (BitVec.ofNat 8 (u.toNat / 2 ^ (k % 8) + u.toNat * 2 ^ (8 - k % 8))).toNat.testBit 7 := by
  have := ror_1 u ⟨k % 8, Nat.mod_lt _ (by omega)⟩
  dsimp only at this
  rw [← this]
  unfold shiftAlu
  dsimp only
  split
  · rfl
  · simp only [Option.getD_some, BitVec.testBit_toNat]

theorem mdvOp_ran {s : State} {c : Core} (h : Executes s c .plain) (d a b : GReg) (hd : d.toNat % 2 = 0) (f : Byte → Byte → Mdv) :
    Ran s (s.mdvOp c d a b f) c .plain .seq id (let m := f ((s.cx c).reg a.toNat) ((s.cx c).reg b.toNat)
      [(.g d, (m.p.setWidth 8).setWidth 16), (.g (d + 1), m.p >>> 8), (.cznv m.c m.z m.n m.v, 0)] ++ (if m.d then [(.d, 0)] else [])) := by
  unfold mdvOp
  rw [if_pos hd]
  exact issue_ran s h rfl rfl

theorem lo16 (p : Half) : (p.setWidth 8).setWidth 16 = BitVec.ofNat 16 (p.toNat % 256) := by
  apply BitVec.eq_of_toNat_eq; simp [BitVec.toNat_setWidth]

theorem hi16 (p : Half) : p >>> 8 = BitVec.ofNat 16 (p.toNat / 256) := by
  apply BitVec.eq_of_toNat_eq; simp [BitVec.toNat_ushiftRight, Nat.shiftRight_eq_div_pow]; omega

theorem append_toNat (r q : Byte) : (r ++ q : Half).toNat = r.toNat * 256 + q.toNat := by
  rw [BitVec.toNat_append, Nat.shiftLeft_eq, Nat.mul_comm _ (2 ^ 8), ← Nat.two_pow_add_eq_or_of_lt q.isLt]

theorem pairlo (r q : Byte) : (r ++ q : Half).toNat % 256 = q.toNat := by rw [append_toNat]; have := q.isLt; omega

theorem pairhi (r q : Byte) : (r ++ q : Half).toNat / 256 = r.toNat := by rw [append_toNat]; have := q.isLt; omega

theorem pair_eq (x : Ctx) (r : Nat) : x.pair r = BitVec.ofNat 16 ((x.reg r).toNat + 256 * (x.reg (r + 1)).toNat) := by
  apply BitVec.eq_of_toNat_eq
  unfold Ctx.pair
  rw [append_toNat, BitVec.toNat_ofNat]
  have := (x.reg r).isLt; have := (x.reg (r + 1)).isLt
  omega

theorem setPair_eq (d : GReg) (v : Half) (z : Ctx) : z.setPair d.toNat v = pairSet d v.toNat z := by
  unfold Ctx.setPair pairSet
  have h1 : v.setWidth 8 = BitVec.ofNat 8 v.toNat := by apply BitVec.eq_of_toNat_eq; simp
  have h2 : (v >>> 8).setWidth 8 = BitVec.ofNat 8 (v.toNat / 256) := by
    apply BitVec.eq_of_toNat_eq; simp [BitVec.toNat_ushiftRight, Nat.shiftRight_eq_div_pow]
  rw [h1, h2]

theorem imm16 (i : Byte) : i.setWidth 16 = BitVec.ofNat 16 i.toNat := by apply BitVec.eq_of_toNat_eq; simp

theorem wordOp_ran {s : State} {c : Core} (h : Executes s c .plain) (rs : List GReg) (hr : evenRegs rs = true) (f : Ctx → Ctx → Ctx) :
    Ran s (s.wordOp c rs f) c .plain .seq (f (unexpired (s.cx c))) [] := by
  unfold wordOp
  rw [if_pos hr]
  exact aluOp_ran h f

theorem withWord_add (d : GReg) (u v u' v' : Half) (hu : u = u') (hv : v = v') : (fun z => withWord z d (addAlu u v false)) = fun z =>
    flagsOf (u' + v') (decide (65536 ≤ u'.toNat + v'.toNat)) (u'.toInt + v'.toInt) (pairSet d (u' + v').toNat z) := by
  subst hu hv; funext z; unfold withWord
  have h := addAlu_flags (by omega) u v 0 (by omega) (z.setPair d.toNat (addAlu u v false).r)
  have hr : (addAlu u v false).r = u + v := by simpa using addAlu_r u v 0 (by omega)
  rw [hr, setPair_eq] at h ⊢
  simpa using h

theorem withWord_sub (d : GReg) (u v u' v' : Half) (hu : u = u') (hv : v = v') : (fun z => withWord z d (subAlu u v true)) = fun z =>
    flagsOf (u' - v') (decide (v'.toNat ≤ u'.toNat)) (u'.toInt - v'.toInt) (pairSet d (u' - v').toNat z) := by
  subst hu hv; funext z; unfold withWord
  have h := subAlu_flags (by omega) u v 0 (by omega) (z.setPair d.toNat (subAlu u v true).r)
  have hr : (subAlu u v true).r = u - v := by simpa using subAlu_r u v 0 (by omega)
  rw [hr, setPair_eq] at h ⊢
  simpa using h

theorem freeBytes_eq (s : State) (l : List Byte) : (s.freeBytes l).2 = { s with freeCtr := (s.freeBytes l).2.freeCtr } := by
  induction l generalizing s with
  | nil => rfl
  | cons b t ih => 
    have := ih s.free.2
    unfold freeBytes
    dsimp only at this ⊢
    rw [this]
    rfl

theorem setCx_freed {s t : State} {n : Nat} (h : t = { s with freeCtr := n }) (c : Nat) (v : Ctx) : t.setCx c v = { s.setCx c v with freeCtr := n } := by
  subst h; rfl

/-- Free registers are the core's own context, and no more. -/
theorem freeRegs_eq (s : State) (c : Nat) : ∃ v n, s.freeRegs c = { s.setCx c v with freeCtr := n } :=
  ⟨_, _, setCx_freed (freeBytes_eq s _) c _⟩

/-- So is a free control flow. -/
theorem freeFlow_eq (s : State) (c : Nat) : ∃ v n, s.freeFlow c = { s.setCx c v with freeCtr := n } := ⟨_, _, rfl⟩

theorem free_frame {s t : State} {c : Nat} (v : Ctx) (n : Nat) (h : t = { s.setCx c v with freeCtr := n }) :
    { t with ctxs := s.ctxs, freeCtr := s.freeCtr } = s ∧ ∀ e y, e * 8 + y ≠ c * 8 + (s.core c).cur → t.ctx e y = s.ctx e y := by
  subst h
  exact ⟨rfl, fun e y hn => setCx_ctx s c e y v hn⟩

theorem push_ks : ∀ (b : Byte) (k : Bool), (b <<< 1) ||| (if k then 1 else 0) = BitVec.ofNat 8 (2 * b.toNat + bn k) := by decide

theorem pop_ks : ∀ (b : Byte), b >>> 1 = BitVec.ofNat 8 (b.toNat / 2) ∧ b.getLsbD 0 = decide (b.toNat % 2 = 1) := by decide

theorem pop_eq (f : Bool → Bool) (z : Ctx) : ({ z.pop.2 with fk := f z.pop.1 } : Ctx) = if z.depth = 0 then { z with unf := true, fk := f false }
      else { z with ks0 := BitVec.ofNat 8 (z.ks0.toNat / 2), depth := z.depth - 1, fk := f (decide (z.ks0.toNat % 2 = 1)) } := by
  unfold Ctx.pop
  by_cases h : z.depth = 0
  · simp [h]
  · simp only [h, if_false]
    rw [(pop_ks _).1, (pop_ks _).2]

theorem foldl_put {α : Type} (p : Ctx → α) (hp : ∀ y d v, p (y.put d v) = p y) (l : List Flight) (y : Ctx) :
    p (l.foldl (fun (y : Ctx) f => y.put f.dest f.val) y) = p y := by
  induction l generalizing y with
  | nil => rfl
  | cons f l ih => rw [List.foldl_cons, ih, hp]

theorem put_reg (y : Ctx) (d : Dest) (v : Half) (r : GReg) : (y.put d v).reg r.toNat = if d = .g r then v.setWidth 8 else y.reg r.toNat := by
  cases d with
  | g q =>
    simp only [Ctx.put, Ctx.reg, Ctx.setReg, Sparse.get_set, Dest.g.injEq]
    by_cases h : q = r
    · simp [h]
    · have h2 : ¬ r.toNat = q.toNat := fun e => h (BitVec.eq_of_toNat_eq e.symm)
      simp only [h, h2, if_false]
  | _ => simp [Ctx.put, Ctx.reg, Ctx.setCznv]

theorem foldl_put_reg (l : List Flight) (y : Ctx) (r : GReg) (h : ∀ f ∈ l, f.dest ≠ .g r) :
    (l.foldl (fun (y : Ctx) f => y.put f.dest f.val) y).reg r.toNat = y.reg r.toNat := by
  induction l generalizing y with
  | nil => rfl
  | cons f l ih =>
    rw [List.foldl_cons, ih _ fun g hg => h g (List.mem_cons_of_mem _ hg), put_reg, if_neg (h f List.mem_cons_self)]

theorem land_pc (x : Ctx) : x.land.pc = x.pc := by
  unfold Ctx.land
  exact foldl_put (·.pc) (fun y d v => by cases d <;> rfl) _ _

theorem land_flights (x : Ctx) : x.land.flights = (x.flights.filter fun f => decide (1 < f.left)).map (fun f => { f with left := f.left - 1 }) := by
  unfold Ctx.land
  dsimp only
  rw [foldl_put (·.flights) (fun y d v => by cases d <;> rfl)]

theorem land_reg (x : Ctx) (r : Nat) : x.land.reg r = ((x.flights.filter (·.left ≤ 1)).foldl (fun (y : Ctx) f => y.put f.dest f.val) x).reg r := rfl

end Sys2Proof.Machine
end

