-- ==== Sys2Proof/Laws/LaneMem.lean ====
section
/-! SUPPORT. What the loads and stores of a core do: one lemma per access and per class of instruction, for statements about `seen` and `stored`. -/

-- one declaration at a time: many at once take a thread and its stack each
set_option Elab.async false

set_option linter.all false

namespace Sys2Proof.Machine
open State

theorem lockExpire_none {s : State} {c : Nat} (h : (s.cx c).lock = none) : s.lockExpire c = s := by
  unfold lockExpire; simp [h]

theorem rd_same {s v : State} {c : Nat} (h : SameButLock s v c) (k : Nat) : v.rd k = s.rd k := rd_of_mem (by rw [← h.rest]) k
theorem ecc_same {s v : State} {c : Nat} (h : SameButLock s v c) (k : Nat) : v.eccMark k = s.eccMark k := by unfold eccMark; rw [← h.rest]
theorem overlay_same {s v : State} {c : Nat} (h : SameButLock s v c) (w : Staged) (b : Byte) : v.overlay c w b = s.overlay c w b := by
  unfold overlay; rw [h.core]
theorem half_same {s v : State} {c : Nat} (h : SameButLock s v c) : v.activeHalf = s.activeHalf := by unfold activeHalf; rw [← h.rest]

theorem touch_none {s : State} {k : Nat} (h : s.eccMark k = 0) : s.touch k = s := by unfold touch; split <;> simp_all
theorem rdT_none {s : State} {k : Nat} (h : s.eccMark k = 0) : s.rdT k = (s.rd k, s) := by unfold rdT; rw [touch_none h]

theorem placeOf_unexpired (c h : Nat) (x : Ctx) (a : Nat) : placeOf c h (unexpired x) a = placeOf c h x a := rfl

theorem putBits_all (a b : Byte) : putBits a 0xFF b = b := by
  unfold putBits
  rw [show (~~~(0xFF : Byte)) = 0#8 by decide, BitVec.and_zero, BitVec.zero_or]
  exact BitVec.and_allOnes

theorem same_arbs {s v u : State} {c : Nat} (h : SameButLock s v c) (k : ArbsOf c v u) : SameButLock s u c := by
  have hv := h.eq
  have hu := k.eq
  refine ⟨?_, fun j e => k.own j (h.own j e), fun a n w => ?_, fun d x e => (k.ctx d x).trans (h.ctx d x e), ?_⟩
  · clear h k
    generalize u.arbs = A at hu
    generalize v.ctxs = B, v.arbs = C, v.img.acc = D at hv
    subst hu hv
    rfl
  · rw [show u.img = v.img by rw [hu]]; exact h.notes a n w
  · rw [cx_def, k.core, k.ctx, ← cx_def]; exact h.cx

/-- A bank that the lane gets at once is granted, and only arbiters change. -/
theorem grant_same {s v : State} {c id : Nat} (h : SameButLock s v c) (hg : grants s c id = true) (hl : 0x20 ≤ id → id < 0x30 → (v.cx c).lock = none) :
    ∃ u, v.grant c id = (true, u) ∧ ArbsOf c v u := by
  have h1 : v.leaveGroup c id = v := by
    unfold leaveGroup
    cases hk : (v.cx c).lock.bind (·.group) with
    | none => rfl
    | some g =>
      dsimp only
      rw [if_neg]
      intro e
      simp only [Bool.and_eq_true, decide_eq_true_eq] at e
      rw [hl e.1.1 e.1.2] at hk
      cases hk
  have h2 : ∀ u, ArbsOf c v u → u.takeGroup c id = u := by
    intro u k
    unfold takeGroup
    have hx : (u.cx c).lock = (v.cx c).lock := by rw [cx_def, k.core, k.ctx, ← cx_def]
    rw [hx]
    split
    · rename_i l hk
      rw [if_neg]
      intro e
      simp only [Bool.and_eq_true, decide_eq_true_eq] at e
      rw [hl e.1.2 e.2] at hk
      cases hk
    · rfl
  unfold grant
  dsimp only
  rw [h1]
  generalize hu : v.ownOnly c _ = u
  have k : ArbsOf c v u := hu ▸ ownOnly_arbs v c _
  have ks := same_arbs h k
  unfold grants at hg
  simp only [Bool.and_eq_true, Bool.not_eq_true'] at hg
  have hb : u.bankBusy id = false := by
    rw [← hg.1.1]
    unfold bankBusy rb rf
    rw [reg_of_regs (show u.regs = s.regs by rw [ks.eq]), show u.tmc = s.tmc by rw [ks.eq]]
  rw [if_neg (by simp [hb, ks.own _ hg.1.2, ks.own _ hg.2]), h2 u k]
  exact ⟨u, rfl, k⟩

theorem note_same {s v : State} {c : Nat} (h : SameButLock s v c) (k : Nat) (w : Bool) : SameButLock s (v.panNote c k w) c := by
  unfold panNote
  split
  · unfold noteAcc
    split
    · exact h
    · have hv := h.eq
      refine ⟨?_, h.own, fun a n x => ?_, h.ctx, h.cx⟩
      · clear h
        generalize v.ctxs = A, v.arbs = B, v.img.acc = C at hv
        subst hv
        rfl
      · rw [← h.notes]
        unfold meets
        simp
  · exact h

theorem clash_same {s v : State} {c : Nat} (h : SameButLock s v c) (k : Nat) (w : Bool) : v.panClash c k w = s.panClash c k w := by
  have ht : (v.cx c).task = (s.cx c).task := by rw [h.cx]; rfl
  have hs : v.solves c = s.solves c := by
    unfold solves scanOf laneRole rf
    rw [ht]
    simp only [reg_of_regs (show v.regs = s.regs by rw [h.eq])]
  rw [panClash_eq, panClash_eq, hs, h.notes, h.core]

theorem lock_same {s v : State} {c : Nat} (h : SameButLock s v c) (hl : (s.cx c).lock = none) : (v.cx c).lock = none := by
  rw [h.cx]; unfold unexpired; rw [hl]; rfl

theorem pantryLoad {v u : State} {c k : Nat} (x : Ctx) (e : v.grant c (32 + groupOf k) = (true, u)) (hm : u.eccMark k = 0) (hc : u.panClash c k false = false) :
    v.placeLoad c x (.pantry k) = .ok (u.rd k) (u.panNote c k false) := by
  unfold placeLoad granted
  simp only [e, if_true, rdT_none hm, hc, Bool.false_eq_true, if_false]

/-- A load that sees a byte changes arbiters and notes alone. -/
theorem loadByte_seen {s v : State} {c : Nat} (hs : SameButLock s v c) {x : Ctx} {a : Nat} {b : Byte} (h : seen s c x a = some b) :
    ∃ t, v.loadByte c (unexpired x) a = .ok b t ∧ SameButLock s t c := by
  have bank : ∀ {k id : Nat} {f : State → Byte → Byte}, s.eccMark k = 0 → grants s c id = true → ¬ (0x20 ≤ id ∧ id < 0x30) →
      ∃ t, v.bankLoad c k id f = .ok (f t (s.rd k)) t ∧ SameButLock s t c := by
    intro k id f he hg hi
    obtain ⟨u, e, hu⟩ := grant_same hs hg fun p q => absurd ⟨p, q⟩ hi
    have hsu := same_arbs hs hu
    rw [← ecc_same hsu] at he
    refine ⟨u, ?_, hsu⟩
    unfold bankLoad granted
    simp only [e, if_true, rdT_none he, rd_same hsu]
  unfold seen at h
  unfold loadByte
  rw [half_same hs, placeOf_unexpired]
  cases hp : placeOf c s.activeHalf x (a % 65536) with
  | scratch k =>
    simp only [hp] at h
    split at h
    · cases h
    · rename_i he
      refine ⟨v, ?_, hs⟩
      simp only [placeLoad, ecc_same hs, if_neg he, rd_same hs, placeKey]
      rw [← Option.some.inj h]; rfl
  | sram k =>
    simp only [hp, Option.some.injEq] at h
    refine ⟨v, ?_, hs⟩
    simp only [placeLoad, rd_same hs, placeKey]
    rw [← h]; rfl
  | const k =>
    simp only [hp, Option.some.injEq] at h
    refine ⟨v, ?_, hs⟩
    simp only [placeLoad, rd_same hs, placeKey]
    rw [← h]
  | zero =>
    simp only [hp, Option.some.injEq] at h
    refine ⟨v, ?_, hs⟩
    simp only [placeLoad, placeKey]
    rw [← h]
  | input o =>
    simp only [hp] at h
    split at h
    · rename_i he
      obtain ⟨t, e, ht⟩ := bank (f := fun _ b => b) he.1 he.2 (by omega)
      refine ⟨t, ?_, ht⟩
      simp only [placeLoad, e, placeKey]
      rw [← Option.some.inj h]
    · cases h
  | status o =>
    simp only [hp] at h
    split at h
    · rename_i he
      obtain ⟨t, e, ht⟩ := bank (f := fun _ b => b) he.1 he.2 (by omega)
      refine ⟨t, ?_, ht⟩
      simp only [placeLoad, e, placeKey]
      rw [← Option.some.inj h]
    · cases h
  | output o =>
    simp only [hp] at h
    split at h
    · rename_i he
      obtain ⟨t, e, ht⟩ := bank (f := fun t b => t.overlay c (.img o) b) he.1 he.2 (by omega)
      refine ⟨t, ?_, ht⟩
      simp only [placeLoad, e, placeKey, overlay_same ht]
      rw [← Option.some.inj h]; rfl
    · cases h
  | exch o =>
    simp only [hp] at h
    split at h
    · rename_i he
      obtain ⟨t, e, ht⟩ := bank (f := fun t b => t.overlay c (.exch o) b) he.1 he.2 (by omega)
      refine ⟨t, ?_, ht⟩
      simp only [placeLoad, e, placeKey, overlay_same ht]
      rw [← Option.some.inj h]; rfl
    · cases h
  | pantry k =>
    simp only [hp, Option.ite_none_right_eq_some, Option.some.injEq] at h
    obtain ⟨⟨⟨hm, hg⟩, hl, hk⟩, hb⟩ := h
    obtain ⟨u, e, hu⟩ := grant_same hs hg fun _ _ => lock_same hs hl
    have hsu := same_arbs hs hu
    rw [← ecc_same hsu] at hm
    have hc : u.panClash c k false = false := by rw [clash_same hsu]; exact hk
    refine ⟨_, ?_, note_same hsu k false⟩
    have hq := pantryLoad (unexpired x) e hm hc
    rw [rd_same hsu] at hq
    simp only [hq, placeKey]
    rw [← hb]; rfl
  | cell n i => simp [hp] at h
  | control o => simp [hp] at h
  | far o => simp [hp] at h
  | bad o => simp [hp] at h

theorem zext16 (v : Byte) : v.setWidth 16 = BitVec.ofNat 16 v.toNat := by apply BitVec.eq_of_toNat_eq; simp
theorem msb8 (r : Byte) : r.msb = decide (128 ≤ r.toNat) := by
  rw [msb_eq (by omega)]; simp only [decide_eq_decide]; omega

theorem loadByte_mod (s : State) (c : Nat) (x : Ctx) (a : Nat) : s.loadByte c x (a % 65536) = s.loadByte c x a := by
  unfold loadByte; rw [Nat.mod_mod]


theorem ownBase_false {x : Ctx} {g pb : Nat} (ho : ¬ (x.rep.isSome ∧ g / 2 = pb)) : ownBase (unexpired x) g pb = false := by
  unfold ownBase
  rw [Bool.eq_false_iff]
  simpa [unexpired] using ho

theorem lastRep_of_rep {x y : Ctx} (h : x.rep = y.rep) : lastRep x = lastRep y := by unfold lastRep; rw [h]

theorem issue_over {s u : State} {c : Nat} {body : Ctx → State → Eff} (h : Executes s c .mem) {u' : State} {f : Ctx → Ctx} {fly : List (Dest × Half)}
    (hu : SameButLock u u' c) (hg : GoesOn (u.core c)) (hl : (u.cx c).rep = (s.cx c).rep ∨ lastRep (u.cx c) = lastRep (s.cx c))
    (e : body (unexpired (s.cx c)) (s.lockExpire c) = { st := u', now := f, fly := fly }) :
    Ran u (s.issue c .mem body) c .mem .seq f fly := by
  have hr := issue_ran_over s (body := body) (u := u) h (by rw [e]) (by rw [e]; exact hu) hg (hl.elim lastRep_of_rep id)
  rw [e] at hr
  exact hr

theorem repLast_eq (x : Ctx) : repLast x = lastRep x := by
  unfold repLast repOf lastRep
  cases x.rep <;> simp

theorem beats_same {s v : State} {c : Nat} (h : SameButLock s v c) (left : Bool) (id : Option Nat) : SameButLock s (v.keepBeats c left id) c :=
  same_arbs h (keepBeats_arbs v c left id)

/-- A load of one byte. -/
theorem ldOp_ran {s : State} {c g pb d : Nat} (h : Executes s c .mem) (ho : ¬ ((s.cx c).rep.isSome ∧ g / 2 = pb)) {v : Byte}
    (hv : seen s c (s.cx c) (eaByte (s.cx c) pb d 1) = some v) :
    Ran s (s.ldOp c g pb d) c .mem .seq (baseNext (s.cx c) pb (repOf (s.cx c)).2) [(.g (BitVec.ofNat 5 g), v.setWidth 16), (.zn (v == 0) v.msb, 0)] := by
  obtain ⟨t, e, ht⟩ := loadByte_seen (lockExpire_same s c) hv
  refine issue_over h (beats_same ht (!repLast (unexpired (s.cx c))) (loadArb (placeOf c (s.lockExpire c).activeHalf (unexpired (s.cx c)) (eaByte (s.cx c) pb d 1))))
    h.goesOn (.inl rfl) ?_
  unfold ldEff
  rw [if_neg (by simp [ownBase_false ho])]
  dsimp only
  have he : (s.lockExpire c).loadByte c (unexpired (s.cx c)) (eaByte (unexpired (s.cx c)) pb d 1) = _ := e
  rw [he]
  rfl

/-- The two beats of a pair that come together: the first leads to `t`, the second to `u`, and nothing of the second would fault. -/
theorem pairBeats_eq {s t u : State} {c a : Nat} {x : Ctx} {store : Bool} {beat : State → Nat → Acc} {eff : Byte → Byte → State → Eff} {b h : Byte} {id : Option Nat}
    (hid : (if store then s.storeArb x (placeOf c s.activeHalf x (a % 65536)) else loadArb (placeOf c s.activeHalf x (a % 65536))) = id)
    (hb : x.beat = none) (h1 : beat s a = .ok b t) (hf : s.pairFault c x a store = none) (h2 : beat (t.keepBeats c true id) (a + 1) = .ok h u) :
    ∃ left id', s.pairBeats c x a store false beat eff = eff b h (u.keepBeats c left id') := by
  unfold pairBeats
  subst hid
  simp only [hb, h1, hf, Bool.false_eq_true, if_false] at h2 ⊢
  rw [h2]
  exact ⟨_, _, rfl⟩

/-- A place whose stores of solving lanes and event lanes are staged. -/
def isStaged : Place → Bool | .output _ | .exch _ => true | _ => false

/-- The second byte of a pair would not fault: no marked scratch word, and room in the staged buffer. -/
theorem pairFault_none {s : State} {c a : Nat} {x : Ctx} {store : Bool} (hk : ∀ k, placeOf c s.activeHalf x ((a + 1) % 65536) = .scratch k → s.eccMark k ≠ 2)
    (hb : store = true → x.task = none → isStaged (placeOf c s.activeHalf x ((a + 1) % 65536)) = true →
      (s.core c).swb.length + bn (isStaged (placeOf c s.activeHalf x (a % 65536))) < 512) : s.pairFault c x a store = none := by
  unfold pairFault
  cases hq : placeOf c s.activeHalf x ((a + 1) % 65536) with
  | scratch k => simp only [hq]; rw [if_neg (hk k hq)]
  | output o | exch o =>
    simp only [hq]
    rw [if_neg]
    intro e
    rw [Bool.and_eq_true, decide_eq_true_eq, Bool.and_eq_true, Option.isNone_iff_eq_none] at e
    have h2 := hb e.1.1 e.1.2 (by rw [hq]; rfl)
    cases hr : placeOf c s.activeHalf x (a % 65536) <;> simp [hr, e.1.1, e.1.2, isStaged, bn] at e h2 <;> omega
  | _ => simp [hq]

/-- A load of a pair. -/
theorem ldpOp_ran {s : State} {c g pb d : Nat} (h : Executes s c .mem) (ho : ¬ ((s.cx c).rep.isSome ∧ g / 2 = pb)) {v w : Byte}
    (hv : seen s c (s.cx c) (eaByte (s.cx c) pb d 2) = some v) (hw : seen s c (s.cx c) (eaByte (s.cx c) pb d 2 + 1) = some w) :
    Ran s (s.ldpOp c g pb d false) c .mem .seq (baseNext (s.cx c) pb ((repOf (s.cx c)).2 * 2))
      [(.g (BitVec.ofNat 5 g), v.setWidth 16), (.g (BitVec.ofNat 5 (g + 1)), w.setWidth 16), (.zn ((w ++ v : Half) == 0) (w ++ v : Half).msb, 0)] := by
  have hs := lockExpire_same s c
  obtain ⟨t, e, ht⟩ := loadByte_seen hs hv
  obtain ⟨u, e2, hu⟩ := loadByte_seen (beats_same ht true (loadArb (placeOf c (s.lockExpire c).activeHalf (unexpired (s.cx c)) (eaByte (s.cx c) pb d 2 % 65536)))) hw
  have hf : (s.lockExpire c).pairFault c (unexpired (s.cx c)) (eaByte (s.cx c) pb d 2) false = none := by
    refine pairFault_none (fun k hp => ?_) (fun e => by cases e)
    rw [half_same hs, placeOf_unexpired] at hp
    rw [ecc_same hs]
    unfold seen at hw
    simp only [hp] at hw
    intro e
    rw [if_pos e] at hw
    cases hw
  obtain ⟨l, i, ep⟩ := pairBeats_eq (store := false) (id := loadArb (placeOf c (s.lockExpire c).activeHalf (unexpired (s.cx c)) (eaByte (s.cx c) pb d 2 % 65536)))
    (beat := fun t a => t.loadByte c (unexpired (s.cx c)) a) (eff := fun b h u =>
    { st := u, now := baseNext (s.cx c) pb ((repOf (s.cx c)).2 * 2)
      fly := [(.g (BitVec.ofNat 5 g), b.setWidth 16), (.g (BitVec.ofNat 5 (g + 1)), h.setWidth 16), (.zn ((h ++ b : Half) == 0) (h ++ b : Half).msb, 0)] })
    rfl (show (unexpired (s.cx c)).beat = none from h.whole) e hf e2
  refine issue_over h (beats_same hu l i) h.goesOn (.inl rfl) ?_
  unfold ldpEff
  rw [if_neg (by simp [ownBase_false ho])]
  exact ep

theorem setCx_same {s v : State} {c : Nat} (h : SameButLock s v c) (y : Ctx) : SameButLock (s.setCx c y) (v.setCx c (unexpired y)) c := by
  refine ⟨?_, h.own, h.notes, ?_, ?_⟩
  · have h1 := h.eq
    clear h
    generalize v.ctxs = A, v.arbs = B, v.img.acc = C at h1
    subst h1
    rfl
  · intro d x hd
    have hd' : d * 8 + x ≠ c * 8 + (s.core c).cur := hd
    rw [setCx_ctx _ _ _ _ _ hd', setCx_ctx _ _ _ _ _ (by rw [h.core]; exact hd'), h.ctx d x hd']
  · rw [setCx_cx, setCx_cx]

theorem bitLoad_ran {s : State} {c b pb d : Nat} {f : Bool → Bool → Bool} (h : Executes s c .mem) {v : Byte}
    (hv : seen s c (s.cx c) (eaBit (s.cx c) pb d b).1 = some v) (acc : Bool) (ha : f (repAcc (s.cx c)) (v.toNat.testBit (eaBit (s.cx c) pb d b).2) = acc) :
    Ran (s.setCx c { s.cx c with rep := (s.cx c).rep.map fun r => { r with kRead := repK (s.cx c), kAcc := acc } }) (s.bitLoad c b pb d f) c .mem .seq
      (baseNext (s.cx c) pb ((b + (repOf (s.cx c)).2) / 8)) (if lastRep (s.cx c) then [(.k, if acc then 1 else 0)] else []) := by
  obtain ⟨t, hl, ht⟩ := loadByte_seen (lockExpire_same s c) hv
  have hk := beats_same ht (!repLast (unexpired (s.cx c))) (loadArb (placeOf c (s.lockExpire c).activeHalf (unexpired (s.cx c)) (eaBit (s.cx c) pb d b).1))
  have e : (s.lockExpire c).bitLoadEff c b pb d f (unexpired (s.cx c)) =
      { st := (t.keepBeats c (!repLast (unexpired (s.cx c))) (loadArb (placeOf c (s.lockExpire c).activeHalf (unexpired (s.cx c)) (eaBit (s.cx c) pb d b).1))).setRepK c (repK (s.cx c)) acc, now := baseNext (s.cx c) pb ((b + (repOf (s.cx c)).2) / 8)
        fly := if lastRep (s.cx c) then [(.k, if acc then 1 else 0)] else [] } := by
    unfold bitLoadEff
    dsimp only
    have he : (s.lockExpire c).loadByte c (unexpired (s.cx c)) (eaBit (unexpired (s.cx c)) pb d b).1 = _ := hl
    rw [he]
    dsimp only
    rw [BitVec.testBit_toNat] at ha
    have ha' : f (repAcc (unexpired (s.cx c))) (v.getLsbD (eaBit (unexpired (s.cx c)) pb d b).2) = acc := ha
    rw [ha', repLast_eq]
    rfl
  have hr := issue_ran_over s (body := fun x s => s.bitLoadEff c b pb d f x) (u := s.setCx c { s.cx c with rep := (s.cx c).rep.map fun r => { r with kRead := repK (s.cx c), kAcc := acc } }) h (by rw [e]) (by
    rw [e]
    have := setCx_same hk { s.cx c with rep := (s.cx c).rep.map fun r => { r with kRead := repK (s.cx c), kAcc := acc } }
    unfold setRepK
    rw [hk.cx]
    exact this) h.goesOn (by
    rw [setCx_cx]
    unfold lastRep
    dsimp only
    cases (s.cx c).rep <;> rfl)
  rw [e] at hr
  exact hr

theorem wr_same {s v : State} {c : Nat} (h : SameButLock s v c) (k : Nat) (b : Byte) : SameButLock (s.wr k b) (v.wr k b) c := by
  refine ⟨?_, h.own, h.notes, h.ctx, h.cx⟩
  have h1 := h.eq
  clear h
  generalize v.ctxs = A, v.arbs = B, v.img.acc = C at h1
  subst h1
  rfl

theorem dirty_same {s v : State} {c : Nat} (h : SameButLock s v c) (k : Nat) (nd : Bool) : SameButLock (s.dirty k nd) (v.dirty k nd) c := by
  refine ⟨?_, h.own, h.notes, h.ctx, h.cx⟩
  have h1 := h.eq
  clear h
  generalize v.ctxs = A, v.arbs = B, v.img.acc = C at h1
  subst h1
  rfl

/-- Both sides note the same access of the lane. -/
theorem notes_same {s v : State} {c : Nat} (h : SameButLock s v c) (k : Nat) (w : Bool) : SameButLock (s.panNote c k w) (v.panNote c k w) c := by
  have hv := note_same h k w
  have hn : ∀ (l : List PanAcc) (a : PanAcc), a.lane = c → ∀ k n w, meets (l ++ [a]) c k n w = meets l c k n w := by
    intro l a ha k n w
    unfold meets
    simp [ha]
  unfold panNote noteAcc at hv ⊢
  by_cases hs : s.solves c = true
  · rw [if_pos hs]
    split
    · exact hv
    · refine ⟨?_, hv.own, fun k n w => ?_, hv.ctx, hv.cx⟩
      · have h1 := hv.eq
        generalize (if v.solves c = true then _ else v : State) = y at h1 ⊢
        rw [h1]
      · rw [hv.notes, hn _ _ rfl]
  · rw [if_neg hs]; exact hv

theorem setCore_same {s v : State} {c : Nat} (h : SameButLock s v c) (k : CoreSt) (hk : k.cur = (s.core c).cur) : SameButLock (s.setCore c k) (v.setCore c k) c := by
  have hc1 : (s.setCore c k).core c = k := by simp
  have hc2 : (v.setCore c k).core c = k := by simp
  have hcx := h.cx
  refine ⟨?_, h.own, h.notes, ?_, ?_⟩
  · have h1 := h.eq
    clear h hcx hc2
    generalize v.ctxs = A, v.arbs = B, v.img.acc = C at h1
    subst h1
    rfl
  · intro d x hd
    rw [hc1, hk] at hd
    exact h.ctx d x hd
  · rw [cx_def, cx_def, h.core] at hcx
    rw [cx_def, cx_def, hc1, hc2, hk]
    exact hcx

theorem noted_same {s v : State} {c : Nat} (h : SameButLock s v c) (k : Nat) (o : Byte) : SameButLock (noted s c k o) (v.remember c k o) c := by
  unfold noted remember
  rw [h.cx]
  exact setCx_same h _

theorem staged_same {s v u : State} {c : Nat} (h : SameButLock s v c) (x : Ctx) (w : Staged) (k : Nat) (b m : Byte)
   (hu : (if x.task.isSome then some s
    else if (s.core c).swb.length < 512 then
      some (noted (s.setCore c { s.core c with swb := (s.core c).swb ++ [⟨w, m, b &&& m⟩], peak := max (s.core c).peak ((s.core c).swb.length + 1) })
        c k (s.overlay c w (s.rd k)))
    else none) = some u) : ∃ u', v.staged1 c (unexpired x) w k b m = .ok 0 u' ∧ SameButLock u u' c := by
  unfold staged1
  by_cases ht : x.task.isSome
  · rw [if_pos ht] at hu
    rw [if_pos (show (unexpired x).task.isSome = true from ht)]
    cases hu
    exact ⟨v, rfl, h⟩
  · rw [if_neg ht] at hu
    rw [if_neg (show ¬ (unexpired x).task.isSome = true from ht)]
    split at hu
    · rename_i hl
      unfold stagePut
      dsimp only
      rw [h.core, if_pos hl]
      rw [overlay_same h, rd_same h]
      refine ⟨_, rfl, ?_⟩
      rw [← Option.some.inj hu]
      exact noted_same (setCore_same h { s.core c with swb := (s.core c).swb ++ [⟨w, m, b &&& m⟩], peak := max (s.core c).peak ((s.core c).swb.length + 1) } rfl) _ _
    · cases hu

theorem pantryStore {v u : State} {c k : Nat} {b m : Byte} (x : Ctx) (e : v.grant c (32 + groupOf k) = (true, u)) (hm : u.eccMark k = 0)
    (hc : u.panClash c k true = false) : v.placeStore c x b m (.pantry k) = .ok 0 (((u.putPlain c k b m).dirty k x.task.isSome).panNote c k true) := by
  unfold placeStore granted
  simp only [e, if_true, touch_none hm, hc, Bool.false_eq_true, if_false]

theorem storeByte_stored {s v u : State} {c : Nat} (h : SameButLock s v c) (x : Ctx) {a : Nat} {b m : Byte} (hu : stored s c x a b m = some u) :
    ∃ u', v.storeByte c (unexpired x) a b m = .ok 0 u' ∧ SameButLock u u' c := by
  unfold stored at hu
  unfold storeByte
  rw [half_same h, placeOf_unexpired]
  cases hp : placeOf c s.activeHalf x (a % 65536) with
  | scratch k =>
    simp only [hp] at hu
    split at hu
    · cases hu
    · rename_i he
      rw [← ecc_same h] at he
      rw [placeStore, if_neg he]
      refine ⟨_, rfl, ?_⟩
      rw [← Option.some.inj hu]
      unfold putPlain
      rw [rd_same h]
      exact wr_same (noted_same h _ _) _ _
  | sram k =>
    simp only [hp] at hu
    rw [placeStore]
    refine ⟨_, rfl, ?_⟩
    rw [← Option.some.inj hu]
    unfold putPlain
    rw [rd_same h]
    exact wr_same (noted_same h _ _) _ _
  | output o =>
    simp only [hp] at hu
    exact staged_same h x _ _ _ _ hu
  | exch o =>
    simp only [hp] at hu
    exact staged_same h x _ _ _ _ hu
  | input o => simp only [hp] at hu; cases hu; exact ⟨v, rfl, h⟩
  | status o => simp only [hp] at hu; cases hu; exact ⟨v, rfl, h⟩
  | zero => simp only [hp] at hu; cases hu; exact ⟨v, rfl, h⟩
  | const o => simp only [hp] at hu; cases hu; exact ⟨v, rfl, h⟩
  | pantry k =>
    simp only [hp, Option.ite_none_right_eq_some, Option.some.injEq] at hu
    obtain ⟨⟨hm, hg, hl, hk⟩, hb⟩ := hu
    obtain ⟨w, e, hw⟩ := grant_same h hg fun _ _ => lock_same h hl
    have hs := same_arbs h hw
    have hr : s.rd k = w.rd k := (rd_same hs k).symm
    rw [← ecc_same hs] at hm
    rw [← clash_same hs] at hk
    refine ⟨_, pantryStore (unexpired x) e hm hk, ?_⟩
    rw [← hb, hr]
    exact notes_same (dirty_same (wr_same (noted_same hs _ _) _ _) _ _) _ _
  | cell n i => simp [hp] at hu
  | control o => simp [hp] at hu
  | far o => simp [hp] at hu
  | bad o => simp [hp] at hu

/-- what a store does to the rest of the context -/
theorem noted_rep (s : State) (c k : Nat) (o : Byte) : ((noted s c k o).cx c).rep = (s.cx c).rep := by
  unfold noted; rw [setCx_cx]

theorem panNote_cx (s : State) (c k : Nat) (w : Bool) (d : Nat) : (s.panNote c k w).cx d = s.cx d := by
  unfold panNote noteAcc
  split
  · split <;> rfl
  · rfl

theorem panNote_core (s : State) (c k : Nat) (w : Bool) (d : Nat) : (s.panNote c k w).core d = s.core d := by
  unfold panNote noteAcc
  split
  · split <;> rfl
  · rfl

theorem noted_core (s : State) (c k : Nat) (o : Byte) (d : Nat) : (noted s c k o).core d = s.core d := rfl

/-- A store leaves the core as it is, but for the staged entries. -/
theorem stored_core {s u : State} {c : Nat} {x : Ctx} {a : Nat} {b m : Byte} (hu : stored s c x a b m = some u) :
    (u.core c).stop = (s.core c).stop ∧ (u.core c).grace = (s.core c).grace := by
  have hw : ∀ (t : State) k (b : Byte), ((t.wr k b).core c) = t.core c := fun _ _ _ => rfl
  have hd : ∀ (t : State) k (b : Bool), ((t.dirty k b).core c) = t.core c := fun _ _ _ => rfl
  unfold stored at hu
  dsimp only at hu
  split at hu <;> (try split at hu) <;> (try split at hu) <;> (try cases hu) <;> (try exact ⟨rfl, rfl⟩)
  all_goals (try rw [panNote_core, hd]); (try rw [hw]); rw [noted_core]
  all_goals (try rw [core_setCore, if_pos rfl]); exact ⟨rfl, rfl⟩

/-- What a store leaves of the configuration and the marks. -/
theorem stored_rest {s u : State} {c : Nat} {x : Ctx} {a : Nat} {b m : Byte} (hu : stored s c x a b m = some u) :
    u.activeHalf = s.activeHalf ∧ u.ecc = s.ecc := by
  have hn : ∀ (t : State) k w, (t.panNote c k w).activeHalf = t.activeHalf ∧ (t.panNote c k w).ecc = t.ecc := by
    intro t k w; unfold panNote noteAcc
    split
    · split <;> exact ⟨rfl, rfl⟩
    · exact ⟨rfl, rfl⟩
  unfold stored at hu
  dsimp only at hu
  split at hu <;> (try split at hu) <;> (try split at hu) <;> (try cases hu) <;> (try exact ⟨rfl, rfl⟩)
  exact ⟨(hn _ _ _).1, (hn _ _ _).2⟩

theorem stored_half {s u : State} {c : Nat} {x : Ctx} {a : Nat} {b m : Byte} (hu : stored s c x a b m = some u) : u.activeHalf = s.activeHalf := (stored_rest hu).1
theorem stored_ecc {s u : State} {c : Nat} {x : Ctx} {a : Nat} {b m : Byte} (hu : stored s c x a b m = some u) (k : Nat) : u.eccMark k = s.eccMark k := by
  unfold eccMark; rw [(stored_rest hu).2]

/-- A staged store finds room. -/
theorem stored_room {s u : State} {c : Nat} {x : Ctx} {a : Nat} {b m : Byte} (ht : x.task = none)
    (hp : isStaged (placeOf c s.activeHalf x (a % 65536)) = true) (hu : stored s c x a b m = some u) : (s.core c).swb.length < 512 := by
  have ht' : ¬ x.task.isSome = true := by simp [ht]
  unfold stored at hu
  dsimp only at hu
  cases hq : placeOf c s.activeHalf x (a % 65536) <;> rw [hq] at hp hu <;> first | (simp [isStaged] at hp; done) | (dsimp only at hu; rw [if_neg ht'] at hu; split at hu <;> first | assumption | cases hu)

/-- A store outside a task adds an entry where it is staged, and none elsewhere. -/
theorem stored_len {s u : State} {c : Nat} {x : Ctx} {a : Nat} {b m : Byte} (ht : x.task = none) (hu : stored s c x a b m = some u) :
    (u.core c).swb.length = (s.core c).swb.length + bn (isStaged (placeOf c s.activeHalf x (a % 65536))) := by
  have ht' : ¬ x.task.isSome = true := by simp [ht]
  unfold stored at hu
  dsimp only at hu
  cases hq : placeOf c s.activeHalf x (a % 65536) <;> rw [hq] at hu <;> dsimp only at hu <;> (try rw [if_neg ht'] at hu) <;> (try split at hu) <;>
    (try cases hu) <;> (try rfl)
  · rw [noted_core, core_setCore, if_pos rfl]; simp [isStaged, bn]
  · rw [noted_core, core_setCore, if_pos rfl]; simp [isStaged, bn]
  · rw [panNote_core]; rfl

theorem stored_goesOn {s u : State} {c : Nat} {x : Ctx} {a : Nat} {b m : Byte} (hu : stored s c x a b m = some u) (h : GoesOn (s.core c)) : GoesOn (u.core c) := by
  unfold GoesOn at h ⊢
  rw [(stored_core hu).1, (stored_core hu).2]
  exact h

theorem stored_rep {s u : State} {c : Nat} {x : Ctx} {a : Nat} {b m : Byte} (hu : stored s c x a b m = some u) : (u.cx c).rep = (s.cx c).rep := by
  unfold stored at hu
  have hw : ∀ (t : State) k (b : Byte), ((t.wr k b).cx c) = t.cx c := fun _ _ _ => rfl
  have hd : ∀ (t : State) k (b : Bool), ((t.dirty k b).cx c) = t.cx c := fun _ _ _ => rfl
  have hk : ∀ K : CoreSt, K.cur = (s.core c).cur → (s.setCore c K).cx c = s.cx c := by
    intro K hK; rw [cx_def, cx_def, core_setCore, if_pos rfl, hK]; rfl
  dsimp only at hu
  split at hu <;> (try split at hu) <;> (try split at hu) <;> (try cases hu) <;> (try rfl)
  all_goals (try rw [panNote_cx, hd]); (try rw [hw]); rw [noted_rep]
  all_goals exact congrArg Ctx.rep (hk _ rfl)

/-- A store of one byte. -/
theorem stOp_ran {s u : State} {c g pb d : Nat} (h : Executes s c .mem) (hu : stored s c (s.cx c) (eaByte (s.cx c) pb d 1) ((s.cx c).reg g) 0xFF = some u) :
    Ran u (s.stOp c g pb d) c .mem .seq (baseNext (s.cx c) pb (repOf (s.cx c)).2) [] := by
  obtain ⟨u', e, hs⟩ := storeByte_stored (lockExpire_same s c) _ hu
  refine issue_over h (beats_same hs (!repLast (unexpired (s.cx c))) ((s.lockExpire c).storeArb (unexpired (s.cx c))
    (placeOf c (s.lockExpire c).activeHalf (unexpired (s.cx c)) (eaByte (s.cx c) pb d 1)))) (stored_goesOn hu h.goesOn) (.inl (stored_rep hu)) ?_
  unfold stEff
  dsimp only
  have e' : (s.lockExpire c).storeByte c (unexpired (s.cx c)) (eaByte (unexpired (s.cx c)) pb d 1) ((unexpired (s.cx c)).reg g) 0xFF = _ := e
  rw [e']
  rfl

/-- A store of a pair. -/
theorem stpOp_ran {s u w : State} {c g pb d : Nat} (h : Executes s c .mem) (hu : stored s c (s.cx c) (eaByte (s.cx c) pb d 2) ((s.cx c).reg g) 0xFF = some u)
    (hw : stored u c (s.cx c) (eaByte (s.cx c) pb d 2 + 1) ((s.cx c).reg (g + 1)) 0xFF = some w) :
    Ran w (s.stpOp c g pb d false) c .mem .seq (baseNext (s.cx c) pb ((repOf (s.cx c)).2 * 2)) [] := by
  have hs := lockExpire_same s c
  obtain ⟨u', e, hu'⟩ := storeByte_stored hs _ hu
  obtain ⟨w', e2, hw'⟩ := storeByte_stored (beats_same hu' true ((s.lockExpire c).storeArb (unexpired (s.cx c))
    (placeOf c (s.lockExpire c).activeHalf (unexpired (s.cx c)) (eaByte (s.cx c) pb d 2 % 65536)))) _ hw
  have hf : (s.lockExpire c).pairFault c (unexpired (s.cx c)) (eaByte (s.cx c) pb d 2) true = none := by
    have hh := stored_half hu
    refine pairFault_none (fun k hp => ?_) (fun _ ht hp => ?_)
    · rw [half_same hs, placeOf_unexpired] at hp
      rw [ecc_same hs]
      unfold stored at hw
      rw [hh] at hw
      simp only [hp] at hw
      intro e
      rw [if_pos (by rw [stored_ecc hu]; exact e)] at hw
      cases hw
    · rw [half_same hs, placeOf_unexpired] at hp ⊢
      rw [hs.core]
      have ht' : (s.cx c).task = none := ht
      rw [← hh] at hp
      have h1 := stored_room ht' hp hw
      rw [stored_len ht' hu] at h1
      exact h1
  obtain ⟨l, i, ep⟩ := pairBeats_eq (store := true)
    (id := (s.lockExpire c).storeArb (unexpired (s.cx c)) (placeOf c (s.lockExpire c).activeHalf (unexpired (s.cx c)) (eaByte (s.cx c) pb d 2 % 65536))) (beat := fun t b => t.storeByte c (unexpired (s.cx c)) b
      ((unexpired (s.cx c)).reg (if b = eaByte (s.cx c) pb d 2 then g else g + 1)) 0xFF)
    (eff := fun _ _ u => { st := u, now := baseNext (s.cx c) pb ((repOf (s.cx c)).2 * 2) })
    rfl (show (unexpired (s.cx c)).beat = none from h.whole) (by rw [if_pos rfl]; exact e) hf (by rw [if_neg (by omega)]; exact e2)
  exact issue_over h (beats_same hw' l i) (stored_goesOn hw (stored_goesOn hu h.goesOn)) (.inl ((stored_rep hw).trans (stored_rep hu))) ep

theorem setRep_same {u u' : State} {c : Nat} (h : SameButLock u u' c) (k a : Bool) :
    SameButLock (u.setCx c { u.cx c with rep := (u.cx c).rep.map fun r => { r with kRead := k, kAcc := a } }) (u'.setRepK c k a) c := by
  unfold setRepK
  rw [h.cx]
  exact setCx_same h _

theorem lastRep_map (y : Ctx) (x : Ctx) (h : y.rep = x.rep) (k a : Bool) : lastRep { y with rep := y.rep.map fun r => { r with kRead := k, kAcc := a } } = lastRep x := by
  unfold lastRep; dsimp only; rw [h]; cases x.rep <;> rfl

theorem bitStore_ran {s u : State} {c b pb d : Nat} {f : Bool → Option Bool} (h : Executes s c .mem)
    (hu : (f (repK (s.cx c))).elim (some s) (fun v => stored s c (s.cx c) (eaBit (s.cx c) pb d b).1 (if v then 0xFF else 0)
      (BitVec.ofNat 8 (2 ^ (eaBit (s.cx c) pb d b).2))) = some u) :
    Ran (u.setCx c { u.cx c with rep := (u.cx c).rep.map fun r => { r with kRead := repK (s.cx c), kAcc := repK (s.cx c) } }) (s.bitStore c b pb d f) c .mem .seq
      (baseNext (s.cx c) pb ((b + (repOf (s.cx c)).2) / 8)) [] := by
  have goOn : ∀ u', SameButLock u u' c → (u.cx c).rep = (s.cx c).rep → GoesOn (u.core c) →
      (s.lockExpire c).bitStoreEff c b pb d f (unexpired (s.cx c)) =
        { st := u'.setRepK c (repK (s.cx c)) (repK (s.cx c)), now := baseNext (s.cx c) pb ((b + (repOf (s.cx c)).2) / 8) } →
      Ran (u.setCx c { u.cx c with rep := (u.cx c).rep.map fun r => { r with kRead := repK (s.cx c), kAcc := repK (s.cx c) } }) (s.bitStore c b pb d f) c .mem .seq
        (baseNext (s.cx c) pb ((b + (repOf (s.cx c)).2) / 8)) [] := fun u' hs hr hg e =>
    issue_over h (setRep_same hs (repK (s.cx c)) (repK (s.cx c))) hg (.inr (by rw [setCx_cx]; exact lastRep_map _ _ hr _ _)) e
  have hk : repK (unexpired (s.cx c)) = repK (s.cx c) := rfl
  cases hf : f (repK (s.cx c)) with
  | none =>
    rw [hf] at hu
    cases hu
    refine goOn _ (beats_same (lockExpire_same s c) (!repLast (unexpired (s.cx c)) && (f (repK (s.cx c))).isSome)
      ((s.lockExpire c).storeArb (unexpired (s.cx c)) (placeOf c (s.lockExpire c).activeHalf (unexpired (s.cx c)) (eaBit (s.cx c) pb d b).1))) rfl h.goesOn ?_
    unfold bitStoreEff
    simp only [hk, hf]
    rfl
  | some v =>
    rw [hf] at hu
    obtain ⟨u', e, hs⟩ := storeByte_stored (lockExpire_same s c) _ hu
    refine goOn _ (beats_same hs (!repLast (unexpired (s.cx c)) && (f (repK (s.cx c))).isSome)
      ((s.lockExpire c).storeArb (unexpired (s.cx c)) (placeOf c (s.lockExpire c).activeHalf (unexpired (s.cx c)) (eaBit (s.cx c) pb d b).1))) (stored_rep hu) (stored_goesOn hu h.goesOn) ?_
    have e' : (s.lockExpire c).storeBit c (unexpired (s.cx c)) (eaBit (unexpired (s.cx c)) pb d b).1 (eaBit (unexpired (s.cx c)) pb d b).2 v = _ := e
    unfold bitStoreEff
    simp only [hk, hf, e']
    rfl

theorem edgeOp_ran {s u : State} {c b pb d : Nat} {f : Bool → Bool → Bool} (h : Executes s c .mem) (hr : (s.cx c).rep = none) {v : Byte}
    (hv : seen s c (s.cx c) (eaBit (s.cx c) pb d b).1 = some v)
    (hu : stored s c (s.cx c) (eaBit (s.cx c) pb d b).1 (if (s.cx c).fk then 0xFF else 0) (BitVec.ofNat 8 (2 ^ (eaBit (s.cx c) pb d b).2)) = some u) :
    Ran u (s.edgeOp c b pb d f) c .mem .seq (baseNext (s.cx c) pb ((b + (repOf (s.cx c)).2) / 8))
      [(.k, if f (s.cx c).fk (v.toNat.testBit (eaBit (s.cx c) pb d b).2) then 1 else 0)] := by
  obtain ⟨t, hl, ht⟩ := loadByte_seen (lockExpire_same s c) hv
  obtain ⟨u', e, hs⟩ := storeByte_stored ht _ hu
  refine issue_over h (beats_same hs (!repLast (unexpired (s.cx c))) (loadArb (placeOf c (s.lockExpire c).activeHalf (unexpired (s.cx c)) (eaBit (s.cx c) pb d b).1))) (stored_goesOn hu h.goesOn) (.inl (stored_rep hu)) ?_
  unfold edgeEff
  have hrn : (unexpired (s.cx c)).rep.isSome = false := by unfold unexpired; simp [hr]
  have he : (s.lockExpire c).loadByte c (unexpired (s.cx c)) (eaBit (unexpired (s.cx c)) pb d b).1 = _ := hl
  have e' : t.storeBit c (unexpired (s.cx c)) (eaBit (unexpired (s.cx c)) pb d b).1 (eaBit (unexpired (s.cx c)) pb d b).2 (unexpired (s.cx c)).fk = _ := e
  simp only [he, hrn, Bool.false_eq_true, if_false, e', BitVec.testBit_toNat]
  rfl

theorem tmrOp_staged {s : State} {c b pb d n i : Nat} (h : Executes s c .mem) (hr : (s.cx c).rep = none) (hb : b < 4)
    (hp : placeOf c s.activeHalf (s.cx c) (eaBit (s.cx c) pb d 0).1 = .cell n i) (ht : (s.cx c).task = none) (hl : (s.core c).swb.length < 512) :
    Ran (noted (s.setCore c { s.core c with swb := (s.core c).swb ++ [⟨.cell n, BitVec.ofNat 8 (2 ^ b), if (s.cx c).fk then BitVec.ofNat 8 (2 ^ b) else 0⟩],
                                            peak := max (s.core c).peak ((s.core c).swb.length + 1) })
        c (Key.cells + 8 * n + 7) (s.overlay c (.cell n) (s.rd (Key.cells + 8 * n + 7)))) (s.tmrOp c b pb d) c .mem .seq
      (baseNext (s.cx c) pb ((b + (repOf (s.cx c)).2) / 8)) [] := by
  have hs := lockExpire_same s c
  have hrn : (unexpired (s.cx c)).rep.isSome = false := by unfold unexpired; simp [hr]
  have htn : (unexpired (s.cx c)).task.isSome = false := by unfold unexpired; simp [ht]
  have hp' : placeOf c (s.lockExpire c).activeHalf (unexpired (s.cx c)) (eaBit (unexpired (s.cx c)) pb d 0).1 = .cell n i := by
    rw [half_same hs]; exact hp
  have hlen : ((s.lockExpire c).core c).swb.length < 512 := by rw [hs.core]; exact hl
  have hk := setCore_same hs { s.core c with swb := (s.core c).swb ++ [⟨.cell n, BitVec.ofNat 8 (2 ^ b), if (s.cx c).fk then BitVec.ofNat 8 (2 ^ b) else 0⟩],
                                             peak := max (s.core c).peak ((s.core c).swb.length + 1) } rfl
  refine issue_over h (noted_same hk (Key.cells + 8 * n + 7) (s.overlay c (.cell n) (s.rd (Key.cells + 8 * n + 7)))) ?_ (.inl ?_) ?_
  · rw [noted_core, core_setCore, if_pos rfl]; exact h.goesOn
  · rw [noted_rep, cx_def, cx_def, core_setCore, if_pos rfl]; rfl
  · unfold tmrEff
    simp only [hrn, Bool.false_eq_true, if_false, hp', htn, Bool.or_false, decide_eq_true_eq, if_neg (Nat.not_le.mpr hb)]
    unfold stagePut
    dsimp only
    rw [if_pos hlen, hs.core, overlay_same hs, rd_same hs]
    rfl

theorem tmrOp_none {s : State} {c b pb d : Nat} (h : Executes s c .mem) (hr : (s.cx c).rep = none)
    (hp : (∀ n i, placeOf c s.activeHalf (s.cx c) (eaBit (s.cx c) pb d 0).1 ≠ .cell n i) ∨ (s.cx c).task.isSome) :
    Ran s (s.tmrOp c b pb d) c .mem .seq (baseNext (s.cx c) pb ((b + (repOf (s.cx c)).2) / 8)) [] := by
  have hs := lockExpire_same s c
  have hrn : (unexpired (s.cx c)).rep.isSome = false := by unfold unexpired; simp [hr]
  refine issue_over h hs h.goesOn (.inl rfl) ?_
  unfold tmrEff
  simp only [hrn, Bool.false_eq_true, if_false]
  have hp' : placeOf c (s.lockExpire c).activeHalf (unexpired (s.cx c)) (eaBit (unexpired (s.cx c)) pb d 0).1 =
      placeOf c s.activeHalf (s.cx c) (eaBit (s.cx c) pb d 0).1 := by rw [half_same hs]; rfl
  rw [hp']
  cases hq : placeOf c s.activeHalf (s.cx c) (eaBit (s.cx c) pb d 0).1 with
  | cell n i =>
    rcases hp with hp | hp
    · exact absurd hq (hp n i)
    · have htn : (unexpired (s.cx c)).task.isSome = true := hp
      simp only [htn, if_true]
      rfl
  | _ => rfl

end Sys2Proof.Machine
end

