-- ==== Sys2Proof/Laws/Modes.lean ====
section
/-! SUPPORT. The mode code after a mode change: what entering a mode does leaves SYS_MODE alone (03 R85, R90). -/

-- one declaration at a time: many at once take a thread and its stack each
set_option Elab.async false

set_option linter.all false

namespace Sys2Proof.Machine
namespace State

theorem rawReg_mod (e : Nat) : rawReg e % 0x1000 = 0x10 := by unfold rawReg Reg.EVT_RAW Reg.page; omega

/-- The mode register is the same. -/
def SameMode (s t : State) : Prop := t.reg Reg.SYS_MODE = s.reg Reg.SYS_MODE

namespace SameMode
theorem refl (s : State) : SameMode s s := rfl
theorem trans {s t u : State} (h : SameMode s t) (k : SameMode t u) : SameMode s u := Eq.trans k h
theorem of_regs {s t : State} (h : t.regs = s.regs) : SameMode s t := reg_of_regs h _
theorem setReg (s : State) {k : Nat} (v : Word) (hk : k ≠ Reg.SYS_MODE) : SameMode s (s.setReg k v) := reg_setReg_ne s v hk.symm
theorem setRf (s : State) {k : Nat} (h l v : Nat) (hk : k ≠ Reg.SYS_MODE) : SameMode s (s.setRf k h l v) := setReg s _ hk
theorem setRb (s : State) {k : Nat} (i : Nat) (b : Bool) (hk : k ≠ Reg.SYS_MODE) : SameMode s (s.setRb k i b) := setReg s _ hk
theorem only {s t : State} {R : List Nat} (h : Only s t R) (hR : Reg.SYS_MODE ∉ R) : SameMode s t := h.regs _ hR (by decide)
theorem raise (s : State) (e n : Nat) : SameMode s (s.raise e n) :=
  only (raise_only s e n (List.mem_singleton.mpr rfl)) (fun h => by
    have := rawReg_mod e; rw [← List.mem_singleton.mp h] at this; exact absurd this (by decide))
theorem raiseFree (s : State) (e : Nat) : SameMode s (s.raiseFree e) := (of_regs rfl : SameMode s s.free.2).trans (raise _ _ _)
theorem count (s : State) (k n : Nat) (hk : k ≠ Reg.SYS_MODE) : SameMode s (s.count k n) := by
  unfold State.count; dsimp only; split
  · exact of_regs rfl
  · exact setReg _ _ hk
theorem ite {s a b : State} {c : Prop} [Decidable c] (ha : SameMode s a) (hb : SameMode s b) : SameMode s (if c then a else b) := by
  split
  · exact ha
  · exact hb
theorem foldl {β : Type} {s a : State} {l : List β} {f : State → β → State} (ha : SameMode s a) (hf : ∀ t b, SameMode t (f t b)) : SameMode s (l.foldl f a) := by
  induction l generalizing a with
  | nil => exact ha
  | cons b l ih => exact ih (ha.trans (hf a b))
end SameMode

variable (s : State)

theorem twnSend_mode (a b c : Nat) (l : List Byte) : SameMode s (s.twnSend a b c l) := by
  unfold twnSend; exact .ite (.of_regs rfl) (.refl s)
theorem twnCmd_mode (a b c : Nat) : SameMode s (s.twnCmd a b c) := twnSend_mode s _ _ _ _
theorem divergeHere_mode (c : Nat) : SameMode s (s.divergeHere c) := by
  unfold divergeHere divergeRaise
  have h1 : SameMode s ((s.setRf Reg.TWN_STAT 15 12 c).raise 98 (c + 256 * (s.scn.cyc % 2 ^ 24))) := (SameMode.setRf s 15 12 c (by decide)).trans (.raise _ _ _)
  have h2 := h1.trans (twnCmd_mode ((s.setRf Reg.TWN_STAT 15 12 c).raise 98 (c + 256 * (s.scn.cyc % 2 ^ 24))) 5 c s.scn.cyc)
  generalize ((s.setRf Reg.TWN_STAT 15 12 c).raise 98 (c + 256 * (s.scn.cyc % 2 ^ 24))).twnCmd 5 c s.scn.cyc = w at h2 ⊢
  exact h2.trans (.of_regs rfl)
theorem fcRestart_mode (c : Nat) : SameMode s (s.fcRestart c) := by
  unfold fcRestart
  refine .ite (.refl s) ?_
  have h := (SameMode.setRf s 10 8 0 (by decide : Reg.TWN_STAT ≠ Reg.SYS_MODE)).trans (.raise _ 104 c)
  generalize (s.setRf Reg.TWN_STAT 10 8 0).raise 104 c = w at h ⊢
  exact h.trans (.of_regs rfl)
theorem modeStat_mode (a b c : Nat) : SameMode s (s.modeStat a b c) := .setReg s _ (by decide)
theorem refuseMode_mode (a b : Nat) : SameMode s (s.refuseMode a b) := (modeStat_mode s a 3 b).trans (.raiseFree _ _)
theorem settleRequests_mode (a b c : Nat) : SameMode s (s.settleRequests a b c) := by
  unfold settleRequests
  lift_lets
  intro req u0 u
  have h : SameMode s u := .of_regs rfl
  cases req with
  | none => exact h
  | some t =>
    dsimp only
    exact .ite (h.trans (modeStat_mode _ _ _ _)) (.ite (h.trans (refuseMode_mode _ _ _)) h)
theorem rndPush_mode (f : RindFrame) : SameMode s (s.rndPush f) := by unfold rndPush; exact .ite (.of_regs rfl) (.refl s)
theorem rndMode_mode (o n : Nat) : SameMode s (s.rndMode o n) := by
  unfold rndMode; exact .ite (.of_regs rfl) (.ite (rndPush_mode s _) (.ite (rndPush_mode s _) (.refl s)))
theorem tellPartner_mode (a b : Nat) : SameMode s (s.tellPartner a b) := by
  unfold tellPartner
  exact .ite (.refl s) (.ite (divergeHere_mode s _) (.ite (twnCmd_mode s _ _ _) (.ite (twnCmd_mode s _ _ _) (.refl s))))
theorem setLead_mode (b : Bool) : SameMode s (s.setLead b) := .setRb s _ _ (by decide)
theorem releaseAll_mode : SameMode s s.releaseAll := by
  unfold releaseAll
  refine .ite (.foldl (.refl s) fun t i => .ite (.setRb t _ _ ?_) (.refl t)) (.refl s)
  simp only [Reg.VUV_REL, Reg.SYS_MODE]; omega
theorem wr_mode (k : Nat) (v : Byte) : SameMode s (s.wr k v) := .of_regs rfl
theorem stnSafeBuf_mode : SameMode s s.stnSafeBuf := by
  unfold stnSafeBuf
  exact .ite (.foldl (.refl s) fun t j => wr_mode t _ _) (.refl s)
theorem stnRunState_mode : SameMode s s.stnRunState := by
  unfold stnRunState
  have h := (SameMode.setRf s 2 0 3 (by decide : Reg.VUV_STN_STATE ≠ Reg.SYS_MODE)).trans (.raise _ 83 (((s.cycleAt s.netT).getD s.scn.cyc) % 2 ^ 32))
  generalize (s.setRf Reg.VUV_STN_STATE 2 0 3).raise 83 (((s.cycleAt s.netT).getD s.scn.cyc) % 2 ^ 32) = w at h ⊢
  exact h.trans (.of_regs rfl)
theorem stnSafeState_mode (o : Nat) : SameMode s (s.stnSafeState o) := by
  unfold stnSafeState
  dsimp only
  generalize s.stn.cause.getD (if o = Mode.boot then 1 else 4) = c
  have h1 : SameMode s (s.setRf Reg.VUV_STN_LEAD 11 8 c) := .setRf s _ _ _ (by decide)
  generalize s.setRf Reg.VUV_STN_LEAD 11 8 c = u at h1 ⊢
  have h2 : SameMode s (if u.rf Reg.VUV_STN_STATE 2 0 = 3 then u.setRf Reg.VUV_STN_STATE 2 0 2 else u) :=
    .ite (h1.trans (.setRf u _ _ _ (by decide))) h1
  generalize (if u.rf Reg.VUV_STN_STATE 2 0 = 3 then u.setRf Reg.VUV_STN_STATE 2 0 2 else u) = v at h2 ⊢
  have h3 := (h2.trans (.raise v 82 c)).trans (stnSafeBuf_mode _)
  generalize (v.raise 82 c).stnSafeBuf = w at h3 ⊢
  exact h3.trans (.of_regs rfl)
theorem enterNet_mode (a b : Nat) : SameMode s (s.enterNet a b) := by
  unfold enterNet
  lift_lets
  intro u1 u2 z u3 u4 u5 z2 u6
  have h1 : SameMode s u1 := (tellPartner_mode s a b).trans (rndMode_mode _ a b)
  have h2 : SameMode s u2 := .ite (h1.trans (fcRestart_mode _ _)) h1
  have h3 : SameMode s u3 := .ite (h2.trans (.of_regs rfl)) h2
  have h4 : SameMode s u4 := .ite h3 (h3.trans (setLead_mode _ _))
  have h5 : SameMode s u5 := .ite (h4.trans (releaseAll_mode _)) h4
  have h6 : SameMode s u6 := .ite (h5.trans (.of_regs rfl)) h5
  refine .ite (h6.trans (stnRunState_mode _)) (.ite (h6.trans (stnSafeState_mode _ _)) (.ite ?_ h6))
  exact (SameMode.ite (h6.trans (.setRf _ _ _ _ (by decide))) h6).trans (stnSafeBuf_mode _)
theorem setCore_mode (c : Nat) (k : CoreSt) : SameMode s (s.setCore c k) := .of_regs rfl
theorem setCtx_mode (c x : Nat) (k : Ctx) : SameMode s (s.setCtx c x k) := .of_regs rfl
theorem ownOnly_mode (p : Nat) (l : List Nat) : SameMode s (s.ownOnly p l) := by
  have h := (ownOnly_arbs s p l).eq
  generalize s.ownOnly p l = w at h ⊢
  exact .of_regs (by rw [h])
theorem breakLock_mode (p x c : Nat) : SameMode s (s.breakLock p x c) := by
  unfold breakLock
  dsimp only
  cases (s.ctx p x).lock with
  | none => exact .refl s
  | some l =>
    dsimp only
    cases l.group with
    | none => exact setCtx_mode s _ _ _
    | some g =>
      dsimp only
      refine SameMode.trans ?_ (.raise _ _ _)
      refine SameMode.trans ?_ (.count _ _ _ (by decide))
      refine SameMode.trans ?_ (.count _ _ _ (by decide))
      refine SameMode.trans ?_ (.setReg _ _ (by decide))
      exact SameMode.trans (.of_regs rfl) (ownOnly_mode _ _ _)
theorem dropTransfer_mode (p : Nat) : SameMode s (s.dropTransfer p) := (SameMode.count s _ _ (by decide)).trans (ownOnly_mode _ _ _)
theorem endLock_mode (p x : Nat) : SameMode s (s.endLock p x) := by
  have h := endLock_rest s p x
  generalize s.endLock p x = w at h ⊢
  exact .of_regs (by rw [← h])
theorem endStop_mode (p : Nat) : SameMode s (s.endStop p) := by
  unfold endStop
  split
  · exact .refl s
  · dsimp only
    refine .ite (SameMode.trans ?_ (ownOnly_mode _ _ _)) (SameMode.trans ?_ (dropTransfer_mode _ _))
    · exact SameMode.trans (.of_regs rfl) (endLock_mode _ _ _)
    · exact SameMode.trans (.of_regs rfl) (breakLock_mode _ _ _ _)
theorem abortLane_mode (p : Nat) : SameMode s (s.abortLane p) := by
  unfold abortLane
  dsimp only
  refine .ite (.refl s) ?_
  refine SameMode.trans ?_ (.raise _ _ _)
  refine SameMode.trans ?_ (setCore_mode _ _ _)
  refine SameMode.trans ?_ (dropTransfer_mode _ _)
  refine .foldl (.refl s) fun t x => .ite ?_ (.refl t)
  exact (breakLock_mode t _ _ _).trans (setCtx_mode _ _ _ _)
theorem abortTasks_mode : SameMode s s.abortTasks := by
  unfold abortTasks
  have h : SameMode s ((s.lanesWith 2).foldl (fun t k => t.abortLane (t.physOf k)) s) := .foldl (.refl s) fun t k => abortLane_mode t _
  generalize (s.lanesWith 2).foldl (fun t k => t.abortLane (t.physOf k)) s = w at h ⊢
  exact h.trans (.of_regs rfl)
theorem setPhase_mode (n : Nat) : SameMode s (s.setPhase n) := .setRf s _ _ _ (by decide)
theorem haltAll_mode (n : Nat) : SameMode s (s.haltAll n) := by
  unfold haltAll
  refine .foldl (.refl s) fun t k => .ite (SameMode.trans ?_ (setCore_mode _ _ _)) (.refl t)
  exact .ite (.refl t) ((endLock_mode t _ _).trans (ownOnly_mode _ _ _))
theorem enterHold_mode : SameMode s s.enterHold := by
  unfold enterHold
  refine .ite (.refl s) ?_
  dsimp only
  have h := ((haltAll_mode s 68).trans (setPhase_mode _ 5)).trans (.setRf _ 1 0 (bn (!(!s.scn.applied))) (by decide : Reg.SCN_HOLDSTAT ≠ Reg.SYS_MODE))
  generalize ((s.haltAll 68).setPhase 5).setRf Reg.SCN_HOLDSTAT 1 0 (bn (!(!s.scn.applied))) = w at h ⊢
  exact h.trans (.of_regs rfl)
theorem lanesResume_mode : SameMode s s.lanesResume := by
  unfold lanesResume
  exact .foldl (.refl s) fun t k => .ite ((endStop_mode t _).trans (setCore_mode _ _ _)) (.refl t)
theorem lanesIdle_mode : SameMode s s.lanesIdle := by
  unfold lanesIdle
  exact .foldl (.refl s) fun t k => .ite (.refl t) ((((endStop_mode t _).trans (endLock_mode _ _ _)).trans (ownOnly_mode _ _ _)).trans (setCore_mode _ _ _))
theorem resumeCycle_mode : SameMode s s.resumeCycle := by
  unfold resumeCycle
  exact .ite (SameMode.trans (.of_regs rfl) (setPhase_mode _ _)) (.refl s)
theorem postpone_mode (b : Bool) : SameMode s (s.postpone b) := by
  unfold postpone
  dsimp only
  generalize s.rf Reg.GRF_STAT 23 16 + 1 = w
  have h := (SameMode.setRf s 23 16 w (by decide : Reg.GRF_STAT ≠ Reg.SYS_MODE)).trans (.raise _ 61 (w % 256 + 256 * bn b))
  generalize (s.setRf Reg.GRF_STAT 23 16 w).raise 61 (w % 256 + 256 * bn b) = v at h ⊢
  have h1 : SameMode s { v with grf := { s.grf with dispStop := false } } := h.trans (.of_regs rfl)
  generalize ({ v with grf := { s.grf with dispStop := false } } : State) = u at h1 ⊢
  exact .ite ((((h1.trans (.setRf _ _ _ _ (by decide))).trans (.setRf _ _ _ _ (by decide)))).trans (.raise _ _ _)) h1
theorem attemptCut_mode : SameMode s s.attemptCut := by
  unfold attemptCut
  exact .ite (postpone_mode s _) (.refl s)
theorem enterMode_mode (a b : Nat) : SameMode s (s.enterMode a b) := by
  unfold enterMode
  lift_lets
  intro u0 u1 u2 w z u3 u4 u5 u6
  have h0 : SameMode s u0 := enterNet_mode s a b
  have h1 : SameMode s u1 := SameMode.ite h0 (h0.trans (attemptCut_mode _))
  have h2 : SameMode s u2 := SameMode.ite h1 (h1.trans (abortTasks_mode _))
  have h3 : SameMode s u3 := by
    refine SameMode.ite ?_ h2
    have h : SameMode s w := (h2.trans (.setRf _ 1 0 0 (by decide : Reg.SCN_HOLDSTAT ≠ Reg.SYS_MODE))).trans (.setRb _ 24 false (by decide : Reg.SCN_HOLDSTAT ≠ Reg.SYS_MODE))
    exact h.trans (.of_regs rfl)
  have h4 : SameMode s u4 := SameMode.ite (h3.trans (enterHold_mode _)) h3
  have h5 : SameMode s u5 := SameMode.ite (h4.trans (lanesResume_mode _)) h4
  have h6 : SameMode s u6 := SameMode.ite (h5.trans (resumeCycle_mode _)) h5
  refine SameMode.ite h6 ?_
  have h7 := (h6.trans (lanesIdle_mode _)).trans (setPhase_mode u6.lanesIdle 0)
  generalize u6.lanesIdle.setPhase 0 = v at h7 ⊢
  exact h7.trans (.of_regs rfl)

/-- A change of mode leaves the code of its target (03 R85, R90). -/
theorem changeMode_reg (new row : Nat) : (s.changeMode new row).reg Reg.SYS_MODE = BitVec.ofNat 32 (new % 16 + 16 * bn (decide (row = 27))) := by
  unfold changeMode
  lift_lets
  intro old u0 z u1 u2 u3
  have h1 : u1.reg Reg.SYS_MODE = BitVec.ofNat 32 (new % 16 + 16 * bn (decide (row = 27))) := reg_setReg_same s _ _
  have h2 : SameMode u1 u2 := settleRequests_mode u1 _ _ _
  have h3 : SameMode u2 u3 := .raise _ _ _
  have h4 : SameMode u1 (u3.enterMode old new) := (h2.trans h3).trans (enterMode_mode u3 old new)
  exact Eq.trans h4 h1

theorem changeMode_mode (new row : Nat) : (s.changeMode new row).mode = new % 16 := by
  unfold mode rf
  rw [changeMode_reg]
  unfold fld
  rw [BitVec.toNat_ofNat]
  by_cases h : row = 27 <;> simp [h, bn] <;> omega

end State
end Sys2Proof.Machine
end

