-- ==== Sys2Proof/WellFormed.lean ====
section
/-! DEFINITION. Which commands are well formed: the limits that the spec puts on what a command of the table can carry. The meanings answer
ill-formed commands too; nothing but statements uses this. -/

-- one declaration at a time: many at once take a thread and its stack each
set_option Elab.async false

namespace Sys2Proof

/-- Numbers of switched functions (00 R15): domains 0–14, the block of page p 100 + p, Rind channel c 200 + c. -/
def isFn (n : Nat) : Bool := decide (n < 15) || (decide (100 ≤ n) && decide (n < 137)) || (decide (200 ≤ n) && decide (n < 232))

/-- Numbers of arbiters (07 R259, R271). -/
def isArb (n : Nat) : Bool := decide (n < 4) || (decide (0x10 ≤ n) && decide (n ≤ 0x30)) || (decide (0x40 ≤ n) && decide (n ≤ 0x42))

/-- A CAN frame has the data bytes of its DLC, none where it is remote (13 R435). -/
def CanFrame.wf (f : CanFrame) : Bool :=
  f.data.length == (if f.rtr then 0
    else if !f.fdf then min f.dlc.toNat 8
    else [0, 1, 2, 3, 4, 5, 6, 7, 8, 12, 16, 20, 24, 32, 48, 64].getD f.dlc.toNat 64) && !(f.rtr && f.fdf)

/-- A command is well formed. -/
def Instr.wf : Instr → Bool
  | .lowPartLatch ag _ n => decide (1 ≤ n.bytes) && decide (n.bytes ≤ 8) && (!n.gap || ag == .host || ag == .debug)
  | .registerWrite ag _ n _ => decide (1 ≤ n.bytes) && decide (n.bytes ≤ 8) && (!n.gap || ag == .host || ag == .debug)
  | .heldRequestStart fn => isFn fn
  | .rstNLow ns => decide (0 < ns)
  | .repImm _ n => decide (n.toNat ≤ 32)
  | .arbiterDecision id reqs _ => isArb id && decide reqs.Nodup
  | .updateDone clk => decide (clk.toNat ≤ 1600)
  | .laneFault _ cause => decide (1 ≤ cause.toNat) && decide (cause.toNat ≤ 6)
  | .inFrameRx _ f _ => decide (f.length ≤ 1500)
  | .helloRx _ f => decide (f.length ≤ 1500)
  | .diagRx _ f => decide (f.length ≤ 1500)
  | .partnerOutRx _ f => decide (f.length ≤ 1500)
  | .outFrameRx _ f => decide (f.length ≤ 1500)
  | .schedRx _ f => decide (f.length ≤ 1500)
  | .safeFrameRx _ f => decide (f.length ≤ 1500)
  | .releaseRx _ f => decide (f.length ≤ 1500)
  | .confRx _ f => decide (f.length ≤ 1500)
  | .takeRx _ f => decide (f.length ≤ 1500)
  | .takeInPulse ns => decide (0 < ns)
  | .ethRxFrame _ f _ => decide (f.length ≤ 2048)
  | .linkChange _ up speed => !up || speed != 3
  | .canRxFrame _ f _ => f.wf
  | .canTxEnd _ r _ => match r with | .error lec _ => decide (1 ≤ lec.toNat) && decide (lec.toNat ≤ 6) | .sent => true | .arbLost => true
  | .enableDone fn => isFn fn
  | .pcieLinkUp speed width => speed != 0 && (width == 1 || width == 2)
  | .updOpen _ f _ => decide (f.length ≤ 4160)
  | .updPiece _ f _ => decide (f.length ≤ 4160)
  | .diagDump _ f => decide (f.length ≤ 4160)
  | .modeReq _ f => decide (f.length ≤ 4160)
  | .unknownCmd _ cmd => cmd == 0 || decide (8 ≤ cmd.toNat)
  | .qspDone _ err => [0, 3, 4].contains err.toNat
  | .scrubRead _ _ ue ce => !(ue && ce)
  | .telemetrySample temps volts => decide (temps.length = 4) && decide (volts.length = 6)
  | .canRxError _ lec _ => decide (1 ≤ lec.toNat) && decide (lec.toNat ≤ 6)
  | .rclRead .. | .bar0winWrite .. | .softRst .. | .softRstEnd .. | .pageEnable .. | .freezeSet .. | .freezeClear .. | .ownerWrite .. | .ownerLock ..
  | .cfgswapGo .. | .configSwap .. | .cfgswapCopy .. | .copyDone .. | .mapCheck .. | .evtPendClear .. | .evtSwraise .. | .msixMessage ..
  | .logWrite .. | .logRidxWrite .. | .sysModereq .. | .modeChange .. | .mainSupplyFail .. | .supplyWarn .. | .vbatLow .. | .powerOn .. | .sysReset ..
  | .romStart .. | .hostbootGo .. | .bootDone .. | .domainRequest .. | .domDone .. | .pllUnlock .. | .ref25Measurement .. | .halt .. | .stewardWake ..
  | .nop .. | .repReg .. | .repRc .. | .seal .. | .lck .. | .lockTimeout .. | .step .. | .movs .. | .movt .. | .evret .. | .brk .. | .jmpr ..
  | .pshk .. | .popk .. | .andpk .. | .orpk .. | .xorpk .. | .notk .. | .onek .. | .zerok .. | .ld .. | .st .. | .ldp .. | .stp .. | .ldk ..
  | .ldkn .. | .andk .. | .andkn .. | .ork .. | .orkn .. | .xork .. | .stk .. | .stkn .. | .setk .. | .clrk .. | .rise .. | .fall .. | .tmr ..
  | .add .. | .adc .. | .sub .. | .sbc .. | .and .. | .or .. | .xor .. | .cmp .. | .shl .. | .shr .. | .asr .. | .rol .. | .ror .. | .mov .. | .not ..
  | .neg .. | .mulu .. | .muls .. | .divu .. | .divs .. | .addw .. | .subw .. | .cmpw .. | .movw .. | .ldi .. | .addi .. | .adci .. | .subi ..
  | .sbci .. | .andi .. | .ori .. | .xori .. | .cmpi .. | .tsti .. | .shli .. | .shri .. | .asri .. | .roli .. | .rori .. | .addwi .. | .subwi ..
  | .kfr .. | .kto .. | .br .. | .brf .. | .jmp .. | .call .. | .lcSwevt .. | .lcStwqRead .. | .lcRindStore .. | .lcTpoCommit .. | .arbCommit ..
  | .inputFreeze .. | .mergeDone .. | .publishCopyDone .. | .overrun .. | .apply .. | .rindRefreshSkip .. | .eventDispatch .. | .preemption ..
  | .spareReady .. | .copyErr .. | .forceflt .. | .breakpointHit .. | .holdKeepalive .. | .holdStep .. | .holdCycle .. | .dbgCoreHalt ..
  | .dbgCoreRun .. | .serviceLaneFault .. | .psnclr .. | .tmcModeWrite .. | .cellCountCommit .. | .grfArm .. | .graftDigestDone .. | .grfDisarm ..
  | .mapidxWrite .. | .mapdataHiWrite .. | .mapdataHiRead .. | .graftTestPoint .. | .graftAttemptFail .. | .grfApplied .. | .graftLate ..
  | .nonVuvasFrame .. | .schedTx .. | .safeTx .. | .releaseTx .. | .confTx .. | .releaseRequest .. | .safeRequest .. | .stationApply ..
  | .stationSample .. | .helloTx .. | .diagTx .. | .stationTimeout .. | .stnLeadLost .. | .hbTx .. | .hbRx .. | .twinLinkLost .. | .dtimeRx ..
  | .dlineRx .. | .cfgwRx .. | .commitRx .. | .deltaLate .. | .digestRx .. | .pubwaitExpiry .. | .switchReq .. | .switchAck .. | .cmdReset ..
  | .cmdHandover .. | .cmdDiverge .. | .cmdHold .. | .cmdResume .. | .cmdGrfDigest .. | .cmdGrfGo .. | .twnPreset .. | .twnSwitch .. | .twnResync ..
  | .flineRx .. | .fmarkRx .. | .timSet .. | .timStep .. | .loadrtc .. | .rtcLoad .. | .offsetMeasurement .. | .holdoverExpiry .. | .tciEdge ..
  | .tciTsRead .. | .tpoArm .. | .tpoUnarm .. | .tpoEdge .. | .tpoDone .. | .ethEnable .. | .ethTransitionDone .. | .mdioGo .. | .mdioDone ..
  | .ethTxFrame .. | .txtsRead .. | .canEnable .. | .canTransitionDone .. | .rxfullAck .. | .txrdy .. | .txcan .. | .canTxSelect .. | .canRecover ..
  | .canRecovered .. | .rndEnable .. | .rndChen .. | .rindRefresh .. | .rindApply .. | .rindSafeFrame .. | .rindReleaseFrame .. | .rindDirectFrame ..
  | .rindConfigFrame .. | .rindSample .. | .rindReport .. | .rindTimeout .. | .demagEnd .. | .thermalShutdown .. | .rndCmdSafe .. | .rndCmdRelease ..
  | .rindLinkLost .. | .rindFaultClear .. | .vfldLost .. | .vfldBack .. | .wdtPeriodCommit .. | .wdtConfigCommit .. | .wdtService .. | .wdtCheckin ..
  | .wdtWindowOpen .. | .warn .. | .wdtExpiry .. | .wdpulseEnd .. | .keepLoad .. | .keepCommit .. | .pipinc .. | .pipread .. | .pipinit ..
  | .unlockRd .. | .unlockWr .. | .keepLock .. | .setpwRd .. | .setpwWr .. | .setbp .. | .keepCmdExecute .. | .commitDone .. | .keepBackgroundWrite ..
  | .rtcSecondTick .. | .compWindow .. | .oscStop .. | .pd0PowerUp .. | .vbatChangeover .. | .rtcSet .. | .addh .. | .subh .. | .fromnet ..
  | .rtcXfer .. | .flr .. | .perst .. | .flrDone .. | .pcieLinkDown .. | .aerUe .. | .aerCe .. | .mbxH2dSet .. | .mbxH2dClear .. | .mbxD2hSet ..
  | .mbxD2hClear .. | .svcBadFrame .. | .svcGapTimeout .. | .identify .. | .updStatus .. | .updAbort .. | .qspRead .. | .qspProgram ..
  | .qspErase4k .. | .qspErase64k .. | .hcmdOpen .. | .hcmdPiece .. | .hcmdAbort .. | .arbAdvance .. | .secureBoot .. | .dbgLock .. | .keyrev ..
  | .hcmdDone .. | .keyUnwrap .. | .keyClear .. | .xcmdGo .. | .evtset .. | .fusArbBit .. | .fusSecureBoot .. | .fusDbgLock .. | .fusKeyrev ..
  | .fusProgramDone .. | .scrubWriteback .. | .rcalRequest .. | .rtcTrimWindow .. | .rateAverage .. | .lclr .. | .hbMiss .. | .pllLock ..
  | .currentLimit .. => true

end Sys2Proof
end

