-- ==== Sys2Proof/Tests/Slice0.lean ====
section
/-! SUPPORT. Tests: what `Instr.wf` refuses, a state for each hypothesis of the statements, and single steps. -/

-- one declaration at a time: many at once take a thread and its stack each
set_option Elab.async false

open Sys2Proof Sys2Proof.Machine

namespace Sys2Proof.Tests

/-! ## Small states -/

/-- The device out of reset, its core clock running, with the registers `regs`. -/
def dev (regs : List (Nat × Word)) : State :=
  { State.reset with sys := { State.reset.sys with inReset := false }, pwr := { State.reset.pwr with coreRun := true }, regs := regs }

/-- PWR_STATd with domain `d` ON. -/
def on (d : Nat) : Nat × Word := (Reg.PWR_STAT d, 2)

/-- OWNER of page `p` with every right. -/
def own (p : Nat) : Nat × Word := (Reg.OWNER p, 0x3F)

/-- SYS_MODE with mode `m`. -/
def inMode (m : Nat) : Nat × Word := (Reg.SYS_MODE, BitVec.ofNat 32 m)

/-- PAGE_CTRL and PAGE_STAT of page `p` with the block enabled and ready. -/
def en (p : Nat) : List (Nat × Word) := [(Reg.PAGE_CTRL p, 1), (Reg.PAGE_STAT p, 1)]

/-- Core `c` at address 100 in a context and record of its own, on a device with the registers `regs`. -/
def running (c : Nat) (regs : List (Nat × Word)) (f : Ctx → Ctx) (g : CoreSt → CoreSt) : State :=
  let s := dev regs
  (s.setCore c (g { run := .exec })).setCtx c (g { run := .exec }).cur (f { pc := 100 })

/-- Lane 0, its domain and the image's ON, in RUN. -/
def lane0 (f : Ctx → Ctx) : State := running 0 [inMode Mode.run, on 2, on 6] f id

/-- Lane 0, which solves a segment. -/
def solver (f : Ctx → Ctx) (g : CoreSt → CoreSt) : State := running 0 [inMode Mode.run, on 2, on 6, (Reg.SCN_SEGMAP 0, 0x4000)] f g

/-- An event task's context. -/
def tasked (x : Ctx) : Ctx := { x with task := some ⟨3, 17, 2, 0x12345678, 0x9ABC⟩ }

/-- `Executes` as a check. -/
def exe (s : State) (c : Nat) (k : Kind) : Bool := decide (
  (s.canIssue c = true ∧ ((s.core c).stop = none ∨ 1 < (s.core c).grace)) ∧ ((s.cx c).beat = none ∧ (s.cx c).atBrk = false) ∧ (s.core c).forced = false ∧
  ((s.cx c).skipBp = true ∨ 68 ≤ c ∨ s.bpMatch ((s.scanOf c).getD 0) (s.cx c).pc = false) ∧ s.eccMark (s.instrKey c (s.cx c).pc) ≠ 2 ∧
  State.misplaced (s.cx c) k = false)

theorem executes_iff (s : State) (c : Nat) (k : Kind) : Executes s c k ↔ exe s c k = true :=
  ⟨fun ⟨a, b, d, e, f, g, h, i⟩ => decide_eq_true ⟨⟨a, b⟩, ⟨d, e⟩, f, g, h, i⟩, fun h => by
    obtain ⟨⟨a, b⟩, ⟨d, e⟩, f, g, h, i⟩ := of_decide_eq_true h
    exact ⟨a, b, d, e, f, g, h, i⟩⟩

/-- `Writes` as a check. -/
def wr (s : State) (ag : Agent) (a : Nat) : Bool := decide (
  (0x01000000 ≤ a ∧ a < 0x01025000 ∧ a % 4 = 0) ∧ (s.pwr.coreRun = true ∧ s.domOn (pageInfo ((a - 0x01000000) / 0x1000)).dom = true) ∧
  (ag = .debug → s.rb Reg.FUS_CTRL 1 = false) ∧
  (s.bootGrant ag a true = true ∨ (s.bootWindow ag = false ∧ s.rb (Reg.OWNER ((a - 0x01000000) / 0x1000)) (State.rightBits ag).2 = true)) ∧
  (s.mode ≠ Mode.service ∨ ag = .steward ∨ (a - 0x01000000) / 0x1000 ∈ [0x00, 0x19, 0x1A, 0x1B, 0x17, 0x18]) ∧
  ((target ((a - 0x01000000) / 0x1000) (a % 0x1000)).any fun t => !t.row.stone || ag == .steward) = true ∧ (s.shut = false ∨ s.inCfgSet a = false))

theorem writes_iff (s : State) (ag : Agent) (a : Nat) : Writes s ag a ↔ wr s ag a = true :=
  ⟨fun ⟨a, b, c, d, e, f, g, h⟩ => decide_eq_true ⟨a, ⟨b, c⟩, d, e, f, g, h⟩, fun h => by
    obtain ⟨a, ⟨b, c⟩, d, e, f, g, h⟩ := of_decide_eq_true h
    exact ⟨a, b, c, d, e, f, g, h⟩⟩

/-- `Reads` as a check. -/
def rd (s : State) (ag : Agent) (a : Nat) : Bool := decide (
  (0x01000000 ≤ a ∧ a < 0x01025000) ∧ (s.pwr.coreRun = true ∧ s.domOn (pageInfo ((a - 0x01000000) / 0x1000)).dom = true) ∧
  (ag = .debug → s.rb Reg.FUS_CTRL 1 = false) ∧
  (s.bootGrant ag a false = true ∨ (s.bootWindow ag = false ∧ s.rb (Reg.OWNER ((a - 0x01000000) / 0x1000)) (State.rightBits ag).1 = true)) ∧
  (target ((a - 0x01000000) / 0x1000) (a % 0x1000 / 4 * 4)).isSome = true)

theorem reads_iff (s : State) (ag : Agent) (a : Nat) : Reads s ag a ↔ rd s ag a = true :=
  ⟨fun ⟨a, b, c, d, e, f⟩ => decide_eq_true ⟨a, ⟨b, c⟩, d, e, f⟩, fun h => by
    obtain ⟨a, ⟨b, c⟩, d, e, f⟩ := of_decide_eq_true h
    exact ⟨a, b, c, d, e, f⟩⟩

/-! ## States that meet the hypotheses of the statements -/

/-- A device in CONFIG, every domain ON and every right granted, with `regs` over that. -/
def up (regs : List (Nat × Word)) : State := dev (regs ++ [inMode Mode.config] ++ (List.range 15).map on ++ (List.range 37).map own)

/-- The fold of a CRC with each intermediate value evaluated before the next byte, so that long frames can be checked. -/
def strictFold {w : Nat} (f : BitVec w → Byte → BitVec w) : List Byte → BitVec w → BitVec w
  | [], c => c
  | b :: t, c => if c = c then strictFold f t (f c b) else c

theorem foldl_strict {w : Nat} (f : BitVec w → Byte → BitVec w) (l : List Byte) (c : BitVec w) : l.foldl f c = strictFold f l c := by
  induction l generalizing c with
  | nil => rfl
  | cons b t ih => simp [strictFold, ih]

theorem crc32c_strict (l : List Byte) : crc32c l = strictFold crc32cByte l 0xFFFFFFFF ^^^ 0xFFFFFFFF := by rw [crc32c, foldl_strict]
theorem crc64_strict (l : List Byte) : crc64 l = strictFold crc64Byte l 0 := by rw [crc64, foldl_strict]

/-- A Vuvas frame with a right CRC. -/
def frame (type flags src epoch seq time : Nat) (segs : List VSeg) : List Byte :=
  let body := leBytes 1 1 ++ leBytes 1 type ++ leBytes 1 flags ++ leBytes 1 src ++ beBytes 2 epoch ++ beBytes 2 seq ++ beBytes 8 time ++
    leBytes 1 segs.length ++ List.replicate 7 0 ++ segs.flatMap fun g => State.segBytes g.addr g.sflags g.data
  let f := body ++ beBytes 4 (strictFold crc32cByte body 0xFFFFFFFF ^^^ 0xFFFFFFFF).toNat
  f ++ List.replicate (46 - f.length) 0

/-- The frame `f` behind a group address, a source address and the EtherType of Vuvas. -/
def onWire (f : List Byte) : List Byte := [1, 0, 0, 0, 0, 1] ++ List.replicate 6 2 ++ beBytes 2 (regReset Reg.VUV_ETYPE).toNat ++ f

/-- `n` data bytes. -/
def bytes (n : Nat) : List Byte := (List.range n).map fun i => BitVec.ofNat 8 (i * 3 + 1)

/-- A record of the twin link with a right CRC. -/
def record (type flags seq addr : Nat) (data : List Byte) : List Byte :=
  let body := leBytes 1 type ++ leBytes 1 flags ++ leBytes 2 seq ++ leBytes 4 addr ++ data
  body ++ leBytes 4 (strictFold crc32cByte body 0xFFFFFFFF ^^^ 0xFFFFFFFF).toNat

/-- A CMD record. -/
def cmd (code a b : Nat) : List Byte := leBytes 1 code ++ leBytes 1 a ++ leBytes 2 0 ++ leBytes 8 b ++ leBytes 4 0

/-- A device in mode `m`, five boundaries after the origin, with the lead, the cycle so far handled. -/
def cycling (m : Nat) (regs : List (Nat × Word)) : State :=
  let s := up (regs ++ [inMode m, (Reg.SCN_PERIOD, 1000), (Reg.TWN_STAT, 2), (Reg.PAGE_CTRL 0x0E, 0), (Reg.SCN_SEGMAP 0, 0x4000)])
  { s with tim := { s.tim with ns := 5000000 }, scn := { s.scn with lastB := some 4, applied := true } }

theorem test_meets_ByteOperations : Executes (running 72 [] id id) 72 .plain ∧ Executes (lane0 id) 0 .plain := by
  simp only [executes_iff]; decide +kernel

theorem test_meets_MultiplyAndDivide : Executes (lane0 id) 0 .plain ∧ (30 : GReg).toNat % 2 = 0 := by
  simp only [executes_iff]; decide +kernel

theorem test_meets_WordArithmetic : Executes (lane0 id) 0 .plain ∧ (0 : GReg).toNat % 2 = 0 ∧ (30 : GReg).toNat % 2 = 0 ∧ (31 : GReg).toNat % 2 = 1 := by
  simp only [executes_iff]; decide +kernel

theorem test_meets_BitStack : Executes (lane0 fun x => { x with depth := 8, ovf := true }) 0 .plain ∧ Executes (lane0 id) 0 .plain := by
  simp only [executes_iff]; decide +kernel

theorem test_meets_ResultsLand :
    let f : Flight := ⟨1, .g 6, 0x55⟩
    let s := lane0 fun x => { x with flights := [f, ⟨2, .k, 1⟩] }
    Executes s 0 .plain ∧ (s.cx 0).rep = none ∧ (s.cx 0).slot = .none ∧ (s.cx 0).flights = [] ++ f :: [⟨2, .k, 1⟩] ∧ f.left ≤ 1 ∧ f.dest = .g 6 := by
  simp only [executes_iff]; decide +kernel

theorem test_meets_Loads :
    let s := lane0 fun x => x.setReg 1 0x40
    let r := lane0 fun x => { x with rep := some ⟨32, 31, false, false⟩ }
    (Executes s 0 .mem ∧ seen s 0 (s.cx 0) (eaByte (s.cx 0) 0 0 1) = some 0 ∧ seen s 0 (s.cx 0) (eaByte (s.cx 0) 0 0 2) = some 0 ∧
      seen s 0 (s.cx 0) (eaByte (s.cx 0) 0 0 2 + 1) = some 0) ∧
    (Executes r 0 .mem ∧ lastRep (r.cx 0) = true ∧ (seen r 0 (r.cx 0) (eaBit (r.cx 0) 0 0 0).1).isSome) := by
  simp only [executes_iff]; decide +kernel

theorem test_meets_Stores :
    let s := lane0 fun x => { x with fk := true, g := [(1, 0x40), (2, 0xFF), (3, 0xDF), (4, 0xFF), (5, 0xBF), (6, 0x00), (7, 0x60)] }
    let x := s.cx 0
    Executes s 0 .mem ∧ (stored s 0 x (eaByte x 0 0 1) (x.reg 6) 0xFF).isSome ∧
    placeOf 0 s.activeHalf x (eaByte x 4 0 1) = .scratch (Key.scratch 0) ∧ s.eccMark (Key.scratch 0) ≠ 2 ∧
    ((stored s 0 x (eaByte x 3 0 2) (x.reg 6) 0xFF).bind fun u => stored u 0 x (eaByte x 3 0 2 + 1) (x.reg 7) 0xFF).isSome ∧
    (stored s 0 x (eaBit x 3 0 7).1 0xFF 0x80).isSome ∧ x.rep = none ∧ seen s 0 x (eaBit x 0 0 7).1 = some 0 ∧ (stored s 0 x (eaBit x 0 0 7).1 0xFF 0x80).isSome ∧
    placeOf 0 s.activeHalf x (eaBit x 1 0 0).1 = .cell 1023 7 ∧ x.task = none ∧ (s.core 0).swb.length < 512 ∧
    placeOf 0 s.activeHalf x (eaBit x 4 0 0).1 = .scratch (Key.scratch 0) := by
  simp only [executes_iff]; decide +kernel

theorem test_meets_StoresInATask : let s := lane0 tasked
    Executes s 0 .mem ∧ (s.cx 0).rep = none ∧ (s.cx 0).task.isSome := by
  simp only [executes_iff]; decide +kernel

theorem test_meets_BranchesAndRepetition :
    (Executes (lane0 id) 0 .branch ∧ Executes (running 72 [] (fun x => { x with cpg := true }) id) 72 .branch) ∧
    (let s := lane0 fun x => { x with slot := .taken 777 }
     Executes s 0 .plain ∧ (s.cx 0).rep = none ∧ (s.cx 0).slot = .taken 777) ∧
    (Executes (lane0 fun x => { x with rc := 33 }) 0 .repPrefix ∧ (32 : BitVec 6).toNat ≤ 32) ∧
    (let r : Rep := ⟨32, 31, false, false⟩
     let s := lane0 fun x => { x with rep := some r }
     Executes s 0 .plain ∧ (s.cx 0).slot = .none ∧ (s.cx 0).rep = some r ∧ ¬ r.done + 1 < r.count) ∧
    (let r : Rep := ⟨2, 0, false, false⟩
     let s := lane0 fun x => { x with rep := some r }
     Executes s 0 .plain ∧ (s.cx 0).slot = .none ∧ (s.cx 0).rep = some r ∧ r.done + 1 < r.count) := by
  simp only [executes_iff]; decide +kernel

theorem test_meets_SealAndLock :
    (Executes (lane0 id) 0 .mark ∧ 1 ≤ (8 : BitVec 4).toNat ∧ (8 : BitVec 4).toNat ≤ 8 ∧ 1 ≤ (4 : BitVec 3).toNat ∧ (4 : BitVec 3).toNat ≤ 4) ∧
    (let s := lane0 fun x => { x with sealed := 1, lock := some ⟨1, 1, some 0⟩ }
     Executes s 0 .plain ∧ (s.cx 0).rep = none) ∧
    ((lane0 fun x => { x with lock := some ⟨1, 0, some 15⟩ }).cx 0).lock.map (fun l => (l.limit, l.group)) = some (0, some 15) := by
  simp only [executes_iff]; decide +kernel

theorem test_meets_SpecialRegisters :
    Executes (lane0 id) 0 .plain ∧ Executes (running 71 [] id id) 71 .plain ∧ Executes (running 72 [] id id) 72 .plain ∧
    (let s := { running 72 [] (fun x => x.setReg 3 5) id with svrel := 6 }
     Executes s 72 .plain ∧ ((s.cx 72).reg 3).toNat.testBit 0 ∧ s.svrel.getLsbD 0 = false ∧ ((s.cx 72).reg 3).toNat.testBit 1 = false ∧ s.svrel.getLsbD 1 = true ∧
       ((s.cx 72).reg 3).toNat.testBit 2 = s.svrel.getLsbD 2) := by
  simp only [executes_iff]; decide +kernel

theorem test_meets_EndOfWorkAndBrk :
    (Executes (lane0 id) 0 .ending ∧ ((lane0 id).cx 0).task = none) ∧
    (let s := running 0 [inMode Mode.run, on 2, on 6] tasked fun k => { k with cur := 7 }
     Executes s 0 .ending ∧ (s.core 0).cur < 8 ∧ (s.cx 0).task.isSome) ∧
    (Executes (running 71 [] id id) 71 .ending ∧ Executes (running 72 [] id id) 72 .ending) ∧
    (Executes (lane0 id) 0 .mark ∧ (lane0 id).laneRole 0 ≠ 1) ∧
    (let s := solver id fun k => { k with stepNo := 15 }
     Executes s 0 .mark ∧ (s.cx 0).task = none ∧ s.scanOf 0 = some 0 ∧ s.laneRole 0 = 1 ∧ s.rb Reg.DBG_CTRL 0 = false) ∧
    (let s := running 0 [on 2, on 6, (Reg.DBG_CTRL, 1), inMode Mode.run] id id
     Executes s 0 .mark ∧ s.rb Reg.DBG_CTRL 1 = false) ∧
    (let s := running 0 [on 2, on 6, (Reg.DBG_CTRL, 3), inMode Mode.config] id id
     Executes s 0 .mark ∧ s.mode ≠ Mode.run ∧ s.mode ≠ Mode.hold) := by
  simp only [executes_iff]; decide +kernel

theorem test_meets_LaneControl :
    let s := lane0 tasked
    let t := running 0 [on 9] tasked fun k => { k with cur := 7 }
    (15 : Byte).toNat < 16 ∧ (s.cx 0).task.isSome ∧ ¬ ((lane0 id).cx 0).task.isSome ∧ (31 : Byte).toNat < 32 ∧ (0x23 : Byte).toNat = 0x23 ∧
    (t.cx 0).task.isSome ∧ t.domOn 9 ∧ (t.lcStaged (t.ctxAgent 0) (0x200 + 16 * 7)).toNat < 10 ^ 9 ∧ (t.tpoOf 7).writers.length ≤ 1 := by
  decide +kernel

theorem test_meets_RegisterAccess :
    let s := up []
    Reads s .host Reg.TIM_NOW_NS ∧ ((0x00FFFFFF : Word).toNat < 0x01000000 ∧ s.pwr.coreRun = true) ∧ Reads s .host Reg.ARB_MAXWAIT ∧ (Writes s .host (Reg.EVT_MASK 36) ∧ s.sys.hostWait = false) ∧
    Writes s .host (Reg.PAGE_STAT 0) ∧ Writes s .host Reg.HST_BAR0WIN ∧ Writes s (.svc 0) Reg.HST_BAR0WIN := by
  simp only [writes_iff, reads_iff]; decide +kernel

theorem test_meets_PageHeaders :
    let s := up []
    let r := { s with softRst := [26] }
    (Writes s .host (Reg.PAGE_CTRL 36) ∧ 36 ∉ [0x11, 0x12, 0x13, 0x14, 0x15, 0x16, 0x1E, 0x1F, 0x20, 0x21, 0x23]) ∧
    (Writes s .steward (Reg.PAGE_CTRL 0x16) ∧ Writes s .steward (Reg.PAGE_CTRL 0x23)) ∧
    (Writes s .host (Reg.PAGE_CTRL 26) ∧ (pageInfo 26).softrst = true ∧ 26 ∉ s.softRst ∧ Sparse.wf (fun _ => 0) s.hidden = true) ∧
    (Writes s .host (Reg.PAGE_CTRL 0) ∧ (pageInfo 0).softrst = false) ∧ (Writes r .host (Reg.PAGE_CTRL 26) ∧ 26 ∈ r.softRst) ∧
    (Writes s .steward (Reg.OWNER 36) ∧ Writes s .host (Reg.OWNER 0)) := by
  simp only [writes_iff]; decide +kernel

theorem test_meets_ConfigurationSwap :
    let s := up []
    let busy := up [(Reg.SYS_CFGSWAP, 2)]
    let copying := up [(Reg.SYS_CFGSWAP, 8)]
    let running := up [inMode Mode.run]
    let mapped := up ([inMode Mode.run] ++ [0, 0x400].flatMap fun o => [(Reg.SCN_PERIOD + o, 1000), (Reg.SCN_APPLY_OFS + o, 800), (Reg.SCN_SEGMAP 0 + o, 0x4000)])
    (Writes busy .host Reg.SYS_CFGSWAP ∧ busy.rb Reg.SYS_CFGSWAP 1) ∧ (let t := up [inMode Mode.tracking]; Writes t .host Reg.SYS_CFGSWAP ∧ t.mode = Mode.tracking) ∧
    (Writes s .host Reg.SYS_CFGSWAP ∧ ¬ (s.rb Reg.SYS_CFGSWAP 1 ∨ s.rb Reg.SYS_CFGSWAP 3 ∨ s.rf Reg.GRF_STAT 2 0 ≠ 0) ∧
      ¬ (s.mode = Mode.syncing ∨ s.mode = Mode.tracking) ∧ s.mode ∉ [Mode.run, Mode.hold, Mode.stnRun, Mode.stnSafe]) ∧
    (Writes running .host Reg.SYS_CFGSWAP ∧ running.mode ∈ [Mode.run, Mode.hold, Mode.stnRun, Mode.stnSafe] ∧ running.mapErr true ≠ 0) ∧
    (Writes mapped .host Reg.SYS_CFGSWAP ∧ mapped.mode ∈ [Mode.run, Mode.hold, Mode.stnRun, Mode.stnSafe] ∧ mapped.mapErr true = 0) ∧
    (s.rb Reg.SYS_CFGSWAP 1 = false ∧ s.rb Reg.SYS_CFGSWAP 3 = false) ∧
    (let t := dev [(Reg.SYS_CFGSWAP, 2), inMode Mode.config]
     t.rb Reg.SYS_CFGSWAP 1 = true ∧ (Memory.wf t.mem = true ∧ Sparse.wf regReset t.regs = true) ∧ t.mode ∈ [Mode.config, Mode.service, Mode.stop, Mode.safeHalt] ∧
       t.grf.goHold = none ∧ t.pwr.coreRun = true ∧ 0x0D ∈ [0x03, 0x04, 0x0A, 0x0B, 0x0D] ∧ t.rb (Reg.PAGE_CTRL 0x0D) 2) ∧
    (copying.rb Reg.SYS_CFGSWAP 3 = true ∧ copying.pwr.coreRun = true) ∧ (up [(Reg.SCN_PERIOD, 49)]).rf Reg.SCN_PERIOD 19 0 < 50 ∧
    1000000 < (up [(Reg.SCN_PERIOD, 1000001)]).rf Reg.SCN_PERIOD 19 0 := by
  simp only [writes_iff]; decide +kernel

theorem test_meets_EventRegisters :
    let s := up []
    let r : LogRec := ⟨3, 1, 7, 9, 5⟩
    let q := { s with evt := { s.evt with logq := [r] } }
    (Writes s .host (Reg.EVT_PEND 36) ∧ Writes s .steward (Reg.EVT_PEND 0)) ∧ (Writes s .host Reg.EVT_SWRAISE ∧ (0xFFFF : Word).toNat < 2 ^ 16) ∧ s.evt.logq = [] ∧
    (q.evt.logq = r :: [] ∧ q.rf Reg.EVT_LOG_WIDX 26 16 < 1024) ∧
    (let f := { up [(Reg.EVT_LOG_WIDX, 0x040003FF)] with evt := q.evt }
     f.evt.logq = r :: [] ∧ 1024 ≤ f.rf Reg.EVT_LOG_WIDX 26 16) ∧
    Writes s .host Reg.EVT_LOG_RIDX ∧ s.evt.msix.getLsbD 31 = false ∧
    (let m := { up [(Reg.HST_LINK, 0x30)] with evt := { s.evt with msix := 0x80000000 }, mem := [(Key.msix + 16 * 31, 4), (Key.msix + 16 * 31 + 12, 1)] }
     m.evt.msix.getLsbD 31 ∧ m.rb Reg.HST_LINK 5 ∧ m.rb Reg.HST_LINK 4 ∧ (m.rd (Key.msix + 16 * 31 + 12)).toNat % 2 = 1 ∧ m.rdLE (Key.msix + 16 * 31) 8 ≠ 0) := by
  simp only [writes_iff]; decide +kernel

theorem test_meets_ModeChanges :
    let s := up []
    let q := { s with sys := { s.sys with trans := [⟨4, 5, 3, true, 5⟩] } }
    let a := { s with sys := { s.sys with trans := [⟨14, 11, 5, false, 11⟩] } }
    (Writes q .host Reg.SYS_MODEREQ ∧ q.sys.trans.any (·.request) = true) ∧
    (Writes s .host Reg.SYS_MODEREQ ∧ s.sys.trans.any (·.request) = false ∧ (s.mode, 15) ∉ [(Mode.config, Mode.stop), (Mode.config, Mode.stnSafe)]) ∧
    (s.mode, Mode.service) = (Mode.config, Mode.service) ∧ (s.sys.trans = [] ∧ s.sys.auto = false) ∧
    (a.sys.trans = ⟨14, 11, 5, false, 11⟩ :: [] ∧ (14 : Nat) ≠ 25 ∧ (14 : Nat) ≠ 27 ∧ (11 : Nat) < 12) := by
  simp only [writes_iff]; decide +kernel

theorem test_meets_PowerDomains :
    let s := up []
    let w := fun (d g : Nat) (t : State) => { t with fns := [(d, ⟨some g, [], 0⟩)] }
    (Writes s .host (Reg.PWR_REQ 13) ∧ s.domRefused 13 1 = true) ∧
    (∀ q ∈ [(0, 2), (4, 2), (2, 1), (0, 1), (2, 0), (4, 0)], let t := up [(Reg.PWR_STAT 2, BitVec.ofNat 32 q.1)]
      Writes t .host (Reg.PWR_REQ 2) ∧ t.domRefused 2 q.2 = false ∧ t.fn 2 = {} ∧ t.domState 2 = q.1) ∧
    (s.fn 14).toward = none ∧ ((w 13 2 s).fn 13).toward = some 2 ∧ ((w 2 1 (up [(Reg.PWR_STAT 2, 3)])).fn 2).toward = some 1 ∧
      (w 2 1 (up [(Reg.PWR_STAT 2, 3)])).domState 2 = 3 := by
  simp only [writes_iff]; decide +kernel

theorem test_meets_ClocksAndSupplies : (5 : Fin 6).val ≠ 0 ∧ (up [(Reg.RTC_STAT, 0)]).rb Reg.RTC_STAT 3 = false := by decide +kernel

theorem test_meets_Resets :
    let s := up []
    let off := { s with pwr := { s.pwr with mainOk := false } }
    off.pwr.mainOk = false ∧ 479 < 480 ∧ (s.pwr.mainOk = true ∧ s.sys.inReset = false) ∧
    (Writes s .host Reg.SYS_RESET ∧ (0x1D7 : Word).toNat < 2 ^ 9 ∧ (0x1D7 : Word).toNat % 256 = 0xD7 ∧ (0x1FF : Word).toNat % 256 ≠ 0xD7) ∧
    (off.pwr.vbat = true ∨ ({ off with pwr := { off.pwr with vbat := true } } : State).pwr.vbat = true) ∧
    ({ off with pwr := { off.pwr with vbat := false } } : State).pwr.vbat = false := by
  simp only [writes_iff]; decide +kernel

theorem test_meets_Boot :
    let s := up []
    let cold := { State.reset with regs := [(Reg.SYS_RESETCAUSE, 0x80)] }
    let wait := { up [inMode Mode.boot, (Reg.SYS_BOOTSTAT, 5), (Reg.SYS_STRAPS, 8)] with sys := { s.sys with hostWait := true } }
    let last := up [inMode Mode.boot, (Reg.SYS_BOOTSTAT, 12)]
    s.sys.inReset = false ∧ (cold.sys.inReset = true ∧ cold.pwr.mainOk = true ∧ cold.rb Reg.SYS_RESETCAUSE 7 = true ∧ cold.keep.torn = none) ∧
    (Writes s .host Reg.SYS_HOSTBOOT ∧ s.sys.hostWait = false) ∧
    (Writes wait .host Reg.SYS_HOSTBOOT ∧ wait.sys.hostWait = true ∧ (0x80000000 : Word).toNat.testBit 31 = true ∧ drupeFields (wait.sramRd 0 0) = none ∧
      wait.rf Reg.SYS_BOOTSTAT 3 0 = 5 ∧ wait.rb Reg.SYS_STRAPS 3 = true ∧ wait.sess.state ≠ 2) ∧
    (last.mode = Mode.boot ∧ last.sys.inReset = false ∧ last.sys.hostWait = false ∧ last.rf Reg.SYS_BOOTSTAT 3 0 = 12) ∧ s.mode ≠ Mode.boot := by
  simp only [writes_iff]; decide +kernel

/-- A header of Stone's image with one piece, as `drupeFields` reads it. -/
def header : List Byte := [0x44, 0x52, 0x55, 0x50, 1, 0, 1, 0, 0, 0, 1, 0, 0, 0x10, 0, 0]

/-- What a good image of Stone takes beside the checks of its key, digest and signature, which are left open (log 13). -/
theorem test_meets_BootImage :
    let s := up [inMode Mode.boot, (Reg.SYS_BOOTSTAT, 5), (Reg.SYS_STRAPS, 8)]
    let w := { s with sys := { s.sys with hostWait := true }, mem := (List.range 16).filterMap fun i => if header.getD i 0 = 0 then none else some (Key.sram + i, header.getD i 0) }
    Writes w .host Reg.SYS_HOSTBOOT ∧ (0x80001100 : Word).toNat % 2 ^ 21 = 256 + 4096 * 1 ∧ (drupeFields (w.sramRd 0 4352)).map (·.npiece) = some 1 ∧
    (drupeFields (w.sramRd 0 4352)).map (·.target) = some 1 ∧ w.keyAccepted 0 = true ∧ w.fuseCount = 0 := by
  simp only [writes_iff]; decide +kernel


theorem test_meets_Arbitration :
    let s := up []
    let a := fun (x : Arb) => { s with arbs := [(0x30, x)] }
    let decides := fun (s : State) => 0 < State.arbSize 0x30 ∧ (s.arb 0x30).owner = none ∧ s.bankBusy 0x30 = false ∧ s.pwr.coreRun = true
    (let s := a { ptr := 4 }
     decides s ∧ (s.arb 0x30).ptr < State.arbSize 0x30 ∧ 4 ∈ [0, 4] ∧ 4 < State.arbSize 0x30 ∧
       ∀ i ∈ [0, 4], i < State.arbSize 0x30 → s.arbWait 0x30 i < s.arbLimit 0x30 ∧ s.arbPrio 0x30 i ≤ s.arbPrio 0x30 4 ∧
         (s.arbPrio 0x30 i = s.arbPrio 0x30 4 → 0 ≤ (i + State.arbSize 0x30 - 4) % State.arbSize 0x30)) ∧
    (let s := a { limit := [4, 0], waits := [(0, 255), (4, 255)] }
     decides s ∧ (s.arb 0x30).limit = 4 :: [0] ∧ s.arbLimit 0x30 ≤ s.arbWait 0x30 4 ∧ 4 ∈ [0, 4] ∧ 4 < State.arbSize 0x30) ∧
    ((a { owner := some 1 }).arb 0x30).owner.isSome ∧ ({ s with tmc := { s.tmc with updating := true } } : State).bankBusy 0x30 = true ∧
    (Writes s .steward Reg.ARB_COMMIT ∧ (1 : Word) = 1) ∧ Writes s .host Reg.IMG_PSNCLR := by
  simp only [writes_iff]; decide +kernel

theorem test_meets_InputFreeze : ∀ m ∈ [Mode.run, Mode.stop],
    let s := cycling m []
    s.cycleAt s.netT = some 5 ∧ s.scn.lastB = some 4 ∧ s.mode = m ∧ s.isStn = false ∧ s.rb (Reg.PAGE_CTRL 0x0E) 0 = false ∧ s.lead = true ∧ s.twn = {} ∧
    s.scn.copies = [] ∧ s.scn.applied = true ∧ s.scn.interrupted = false ∧ s.sys.trans = [] ∧ s.sys.auto = false ∧ s.rb Reg.SYS_CFGSWAP 1 = false ∧
    s.reg Reg.GRF_STAT = 0 ∧ s.grf.dispStop = false ∧ s.pwr.coreRun = true ∧ s.lanesWith 1 ≠ [] := by
  decide +kernel

theorem test_meets_InputFreezeNothing :
    (let s := { cycling Mode.run [] with scn := { State.reset.scn with lastB := some 5 } }
     s.cycleAt s.netT = some 5 ∧ s.scn.lastB = some 5) ∧
    (let s := cycling Mode.config []
     s.cycleAt s.netT = some 5 ∧ s.mode ∈ [Mode.boot, Mode.service, Mode.config, Mode.backup]) := by
  decide +kernel

theorem test_meets_CycleEvents :
    let s := cycling Mode.run []
    let m := { s with scn := { s.scn with merging := true } }
    let x := fun (f : Scn → Scn) (regs : List (Nat × Word)) => { cycling Mode.run regs with scn := f s.scn }
    s.scn.merging = false ∧
    (let t := m.setCore 0 { run := .atMerge, swb := [⟨.img 7, 0x0F, 0x35⟩] }
     t.scn.merging = true ∧ t.pwr.coreRun = true ∧ t.lanesWith 1 = [0] ∧ t.physOf 0 = 0 ∧ (t.core 0).swb = [⟨.img 7, 0x0F, 0x35⟩] ∧ t.eccMark (Key.output + 7) = 0 ∧
       (t.core 0).run ≠ .segEnd ∧ t.scn.hold ≠ .step ∧ (t.core 0).run = .atMerge) ∧
    s.scn.applied = true ∧
    (let t := x (fun c => { c with applied := false, pubDue := false, published := true, outSent := true }) [(Reg.SCN_STAT, 0x2000)]
     t.scn.applied = false ∧ t.scn.interrupted = false ∧ t.scn.pubDue = false ∧ t.pwr.coreRun = true ∧ t.rf Reg.GRF_STAT 2 0 ≠ 2 ∧ t.cyclePublished = true ∧
       t.rf Reg.SCN_STAT 14 12 ∈ [1, 2, 3, 4]) ∧
    (let t := x (fun c => { c with pubDue := false }) [(Reg.IMG_STAT, 0)]
     t.scn.pubDue = false ∧ t.rb Reg.IMG_STAT 1 = false) ∧
    (let t := x (fun c => { c with pubDue := false }) [(Reg.IMG_STAT, 2)]
     t.scn.pubDue = false ∧ t.rb Reg.IMG_STAT 1 = true ∧ t.pwr.coreRun = true) ∧
    (let t := x (fun c => { c with published := false }) []
     t.solving = true ∧ t.mode ∈ [Mode.run, Mode.hold, Mode.tracking, Mode.stnRun]) ∧
    (x (fun c => { c with published := true }) []).solving = false ∧ s.tmc.updating = false ∧
    ({ s with tmc := { s.tmc with updating := true } } : State).tmc.updating = true ∧ s.pwr.coreRun = true := by
  decide +kernel

theorem test_meets_EventTasks :
    let s := cycling Mode.run [(Reg.SCN_SLOT_CFG 31, 0x80070123), (Reg.SCN_SLOT_LSET0 31, 0x20), (Reg.SCN_SEGMAP 5, 0x8000)]
    let q := { s with evt := { s.evt with slots := [(31, 17, 0x1234, 9)] } }
    s.slotNext = none ∧ (up []).mode ∉ [Mode.run, Mode.stnRun] ∧ ({ s with grf := { s.grf with dispStop := true } } : State).grf.dispStop = true ∧
    ({ s with pwr := { s.pwr with coreRun := false } } : State).pwr.coreRun = false ∧ s.pwr.coreRun = true ∧
    (q.mode ∈ [Mode.run, Mode.stnRun] ∧ q.grf.dispStop = false ∧ q.slotNext = some (31, 5) ∧ q.evt.slots.find? (·.1 == 31) = some (31, 17, 0x1234, 9) ∧
      (q.lanePrio (q.physOf 5)).isNone = true) ∧
    (let t := q.setCtx 5 6 (tasked {})
     t.slotNext = some (31, 5) ∧ (t.lanePrio (t.physOf 5)).isSome = true) ∧
    (let t := ((s.setCore 5 { run := .exec, cur := 1 }).setCtx 5 1 (tasked {})).setCtx 5 7 (tasked {})
     t.lanePrio 5 = some 7 ∧ (t.core 5).run = .exec ∧ (t.core 5).cur < 7 ∧ (t.cx 5).sealed = 0 ∧ (t.cx 5).lock = none ∧ (t.cx 5).slot = .none ∧ (t.cx 5).beat = none) ∧
    (let t := ((s.setCore 5 { run := .exec, cur := 1 }).setCtx 5 1 { tasked {} with sealed := 1 }).setCtx 5 7 (tasked {})
     t.lanePrio 5 = some 7 ∧ (t.cx 5).sealed ≠ 0) := by
  decide +kernel

theorem test_meets_LaneHostErrors :
    let s := lane0 fun x => { x with slot := .taken 5 }
    let r := lane0 fun x => { x with rep := some ⟨3, 0, false, false⟩ }
    (decodeLimlis 0 0x108205 = some (.ld 0 4 1 5) ∧ encodeLimlis (.ld 0 4 1 5) = some 0x108205 ∧ decodeLimlis 0 0xFC0000 = none) ∧
    (Executes (lane0 id) 0 .plain ∧ ((lane0 id).cx 0).slot = .none ∧ ((lane0 id).cx 0).rep = none ∧ (31 : GReg).toNat % 2 = 1 ∧ 32 < (33 : BitVec 6).toNat ∧
      (15 : BitVec 4).toNat = 15 ∧ 3 < (4 : BitVec 4).toNat) ∧
    (Executes s 0 .plain ∧ (s.cx 0).slot ≠ .none) ∧ (Executes r 0 .plain ∧ (r.cx 0).rep.isSome) ∧ (up []).canIssue 0 = false := by
  simp only [executes_iff]; decide +kernel

theorem test_meets_LaneFaultsAndSpares :
    let s := cycling Mode.run [(Reg.SCN_SEGMAP 5, 0x8000), (Reg.BUN_SPARE 0, 0x200)]
    let n := cycling Mode.run [(Reg.SCN_SEGMAP 5, 0x8000), (Reg.BUN_SPARE 0, 0)]
    let y : Copy := ⟨3, 3, true, false⟩
    let c := { up [] with scn := { s.scn with copies := [(0, y)] } }
    (6 < (7 : BitVec 4).toNat ∧ (6 : BitVec 4).toNat ≤ 6 ∧ (3 : Fin 4).val = (67 : Fin 68).val / 17) ∧ s.rb (Reg.BUN_FLT0 3) 7 = false ∧
    (s.scanOf 0 = some 0 ∧ s.mode = Mode.run ∧ s.laneRole 0 = 1) ∧ (s.scanOf 5 = some 5 ∧ s.laneRole 5 ≠ 1 ∧ s.spareFree 0 = true) ∧
    (n.scanOf 5 = some 5 ∧ n.laneRole 5 ≠ 1 ∧ n.spareFree 0 = false ∧ n.mode = Mode.run) ∧ s.scanOf 16 = none ∧
    (∀ e ∈ s.scn.copies, e.1 = 3 → e.2.running = false) ∧
    (c.scn.copies.find? (·.1 == 0) = some (0, y) ∧ y.running = true ∧ c.ecc = [] ∧ y.lane ≠ c.spareOf 0) ∧
    (Writes s .host (Reg.BUN_FORCEFLT 3) ∧ (0x90 : Word).toNat.testBit 7 = true ∧ (0x90 : Word).toNat % 32 < 17 ∧ (0x10 : Word).toNat.testBit 7 = false) := by
  simp only [writes_iff]; decide +kernel

theorem test_meets_SpareReady :
    let y : Copy := ⟨3, 3, true, false⟩
    let c := { dev [(Reg.GRF_STAT, 2)] with scn := { State.reset.scn with copies := [(0, y)] } }
    c.scn.copies.find? (·.1 == 0) = some (0, y) ∧ c.ecc = [] ∧ (Memory.wf c.mem = true ∧ Sparse.wf regReset c.regs = true) ∧ y.lane ≠ c.spareOf 0 ∧
    c.rf Reg.GRF_STAT 2 0 = 2 := by
  decide +kernel

theorem test_meets_HoldAndDebug :
    let bp := running 0 [inMode Mode.run, on 2, on 6, (Reg.DBG_CTRL, 3), (Reg.DBG_BPA 0, 0x8064)] id id
    let h := up [inMode Mode.hold]
    let held := h.setCore 0 { run := .exec, held := true }
    (bp.scanOf 0 = some 0 ∧ bp.mode ∈ [Mode.run, Mode.hold] ∧ bp.scn.hold = .none ∧ (bp.core 0).run = .exec ∧ (bp.cx 0).skipBp = false ∧
      (bp.cx 0).atBrk = false ∧ (bp.core 0).held = false ∧ bp.bpMatch 0 (bp.cx 0).pc = true) ∧
    ((lane0 id).scanOf 0 = some 0 ∧ ((lane0 id).core 0).run = .exec ∧ (lane0 id).scn.hold = .none ∧ (lane0 id).mode = Mode.run ∧ ((lane0 id).cx 0).skipBp = false ∧
      ((lane0 id).cx 0).atBrk = false ∧ ((lane0 id).core 0).held = false ∧ (lane0 id).bpMatch 0 ((lane0 id).cx 0).pc = false) ∧
    (let b := running 0 [inMode Mode.run, on 2, on 6, (Reg.DBG_CTRL, 3)] id id
     Executes b 0 .mark ∧ b.rb Reg.DBG_CTRL 0 = true ∧ b.rb Reg.DBG_CTRL 1 = true ∧ b.mode ∈ [Mode.run, Mode.hold] ∧ b.scn.hold = .none) ∧
    (lane0 id).mode ≠ Mode.hold ∧
    (let c := cycling Mode.hold []
     c.cycleAt c.netT = some 5 ∧ c.scn.lastB = some 4 ∧ c.mode = Mode.hold ∧ c.scn.hold = .none ∧ c.isStn = false ∧ c.rb (Reg.PAGE_CTRL 0x0E) 0 = false ∧
       c.lead = true ∧ c.twn = {} ∧ c.scn.copies = [] ∧ c.scn.applied = true ∧ c.scn.interrupted = false ∧ c.sys.trans = [] ∧ c.sys.auto = false ∧
       c.reg Reg.GRF_STAT = 0 ∧ c.grf.dispStop = false ∧ c.pwr.coreRun = true) ∧
    (Writes (up []) .host Reg.SCN_HOLDCMD ∧ (up []).mode ≠ Mode.hold) ∧
    (Writes held .host Reg.SCN_HOLDCMD ∧ held.mode = Mode.hold ∧ held.rb Reg.SCN_HOLDSTAT 24 = false ∧ (∀ k < 64, (held.core (held.physOf k)).credit = false) ∧
      held.scn.merging = false ∧ (held.core (held.physOf 0)).held = true ∧ (held.core (held.physOf 0)).run = .exec ∧ held.scn.interrupted = false) ∧
    (Writes h .host Reg.SCN_HOLDCMD ∧ ∀ k < 64, (h.core (h.physOf k)).held = false) ∧
    ({ h with scn := { h.scn with interrupted := true } } : State).scn.interrupted = true ∧
    (Writes h .debug Reg.DBG_CORE_HALT ∧ Writes h .debug Reg.DBG_CORE_RUN ∧ Writes h .host Reg.DBG_CORE_HALT ∧ Writes h .host Reg.DBG_CORE_RUN) := by
  simp only [executes_iff, writes_iff]; decide +kernel

theorem test_meets_TimerCells : ∀ q ∈ [(Mode.run, 0), (Mode.stop, 1), (Mode.stop, 4), (Mode.stop, 7), (Mode.stop, 8)],
    let k := Key.cells + 8 * 4095
    let s := { dev [(Reg.SYS_MODE, BitVec.ofNat 32 q.1), (Reg.PWR_STAT 8, 2), (Reg.OWNER 0x0B, 0x3F)] with mem := if q.2 = 0 then [] else [(k + 6, BitVec.ofNat 8 q.2)] }
    s.domOn 8 = true ∧ s.rb (Reg.OWNER 0x0B) (State.rightBits .host).2 = true ∧ s.mode ≠ Mode.service ∧ s.pwr.coreRun = true ∧ s.bootWindow .host = false ∧ (Memory.wf s.mem = true ∧ Sparse.wf regReset s.regs = true) ∧
    (s.mode ∈ [Mode.config, Mode.stop, Mode.safeHalt, Mode.hold] ∧ s.stby = false ↔ q.1 = Mode.stop) ∧ (s.rd (k + 6)).toNat % 16 = q.2 := by
  decide +kernel

theorem test_meets_GraftArming :
    let map := [0, 0x400].flatMap fun o => [(Reg.SCN_PERIOD + o, (1000 : Word)), (Reg.SCN_SEGMAP 0 + o, 0x4000)]
    let s := fun (m : Nat) (regs : List (Nat × Word)) => up (regs ++ [inMode m, (Reg.PAGE_CTRL 0x04, 5)] ++ map)
    let may := fun (s : State) => s.mode ∈ [Mode.run, Mode.stop, Mode.tracking, Mode.stnRun]
    let t := up [(Reg.PAGE_CTRL 0x0E, 1), (Reg.PAGE_STAT 0x0E, 1), on 12]
    (Writes (up []) .host Reg.GRF_CTRL ∧ ¬ may (up [])) ∧ (Writes (up [inMode Mode.run]) .host Reg.GRF_CTRL ∧ may (up [inMode Mode.run]) ∧ (up [inMode Mode.run]).mapErr true ≠ 0) ∧
    (let s := s Mode.run [(Reg.GRF_MAPLEN, 65537)]
     Writes s .host Reg.GRF_CTRL ∧ may s ∧ s.mapErr true = 0 ∧ 65536 < s.rf Reg.GRF_MAPLEN 16 0) ∧
    (let s := s Mode.run [(Reg.GRF_STAT, 1)]
     Writes s .host Reg.GRF_CTRL ∧ may s ∧ s.mapErr true = 0 ∧ s.rf Reg.GRF_MAPLEN 16 0 ≤ 65536 ∧ s.rf Reg.GRF_STAT 2 0 ≠ 0) ∧
    (let s := s Mode.run [(Reg.PAGE_CTRL 0x04, 1)]
     Writes s .host Reg.GRF_CTRL ∧ may s ∧ s.mapErr true = 0 ∧ s.rf Reg.GRF_STAT 2 0 = 0 ∧ s.rb Reg.SYS_CFGSWAP 1 = false ∧ s.rb (Reg.PAGE_CTRL 0x04) 2 = false) ∧
    (let s := s Mode.run []
     Writes s .host Reg.GRF_CTRL ∧ may s ∧ s.mapErr true = 0 ∧ s.rf Reg.GRF_MAPLEN 16 0 ≤ 65536 ∧ s.rf Reg.GRF_STAT 2 0 = 0 ∧ s.rb Reg.SYS_CFGSWAP 1 = false ∧
       s.rb Reg.SYS_CFGSWAP 3 = false ∧ s.rb (Reg.PAGE_CTRL 0x04) 2 = true ∧ s.domOn (7 - s.activeHalf) = true) ∧
    (let s := up [(Reg.GRF_STAT, 2)]
     Writes s .host Reg.GRF_CTRL ∧ Writes s .host Reg.GRF_MAPIDX ∧ Writes s .host Reg.GRF_MAPDATA_HI ∧ s.rf Reg.GRF_STAT 2 0 = 2) ∧
    (Writes (up []) .host Reg.GRF_MAPIDX ∧ Writes (up []) .host Reg.GRF_MAPDATA_HI ∧ Reads (up []) .host Reg.GRF_MAPDATA_HI ∧ (up []).rf Reg.GRF_STAT 2 0 = 0) ∧
    (t.twnOn = true ∧ twnParse (record 9 0 0 0 (cmd 8 0 0)) = some ⟨9, 0, 0, 0, cmd 8 0 0⟩ ∧ byteAt (cmd 8 0 0) 0 = 8) := by
  simp only [writes_iff, reads_iff]; decide +kernel

/-- A device in mode `m` about to apply a Graft of `n` entries, the only one in map memory being `e`. -/
def grafting (m : Nat) (regs : List (Nat × Word)) (e : List (Nat × Byte)) : State :=
  let s := dev ((Reg.SYS_MODE, BitVec.ofNat 32 m) :: regs)
  { s with grf := { s.grf with dispStop := true }, scn := { s.scn with lastB := some 5, tn := 5000000 }, tim := { s.tim with ns := 5000000 }, mem := e }

theorem test_meets_GraftAttempts :
    let s := grafting Mode.run [(Reg.GRF_MAPLEN, 1), (Reg.GRF_STAT, 2)]
    let ready := fun (s : State) => s.attempting = true ∧ s.mapFits = true ∧ s.slotsRunning = [] ∧ s.ecc = [] ∧ (Memory.wf s.mem = true ∧ Sparse.wf regReset s.regs = true)
    let t := fun (m : Nat) => up [inMode m, (Reg.GRF_STAT, 2), (Reg.GRF_MAPLEN, 0), (Reg.PAGE_CTRL 0x0E, 1), (Reg.PAGE_STAT 0x0E, 1)]
    (up []).attempting = false ∧ (up []).slotsRunning = [] ∧
    (let s := (grafting Mode.run [(Reg.GRF_STAT, 2), (Reg.SCN_SEGMAP 0, 0x8000)] []).setCtx 0 3 (tasked {})
     s.slotsRunning ≠ []) ∧
    (let s := { grafting Mode.run [(Reg.GRF_STAT, 2)] [] with tim := { State.reset.tim with ns := 9000000 } }
     s.attempting = true ∧ s.mapFits = false ∧ s.slotsRunning = []) ∧
    (let s := grafting Mode.run [(Reg.GRF_STAT, 2)] []
     ready s ∧ s.mode ≠ Mode.stop ∧ s.scn.lastB = some 5 ∧ s.rf Reg.GRF_MAPLEN 16 0 = 0) ∧
    (ready (s []) ∧ (s []).rf Reg.GRF_MAPLEN 16 0 = 1 ∧ State.entryOk ((s []).mapEntry 0) = true ∧ State.opOf ((s []).mapEntry 0) = 0) ∧
    (let s := s [(Key.map, 1), (Key.map + 1, 0xFF)]
     ready s ∧ State.entryOk (s.mapEntry 0) = true ∧ State.opOf (s.mapEntry 0) = 1) ∧
    (let s := s [(Key.map, 2), (Key.map + 1, 0xFF), (Key.map + 5, 0xFF), (Key.map + 6, 0xFF), (Key.map + 7, 0x0F)]
     ready s ∧ State.entryOk (s.mapEntry 0) = true ∧ State.opOf (s.mapEntry 0) = 2 ∧ State.dstOf (s.mapEntry 0) < 2 ^ 22) ∧
    ((up [(Reg.GRF_STAT, 2)]).rf Reg.GRF_STAT 2 0 ≠ 3 ∧ (up [(Reg.GRF_STAT, 3), inMode Mode.tracking]).rf Reg.GRF_STAT 2 0 = 3 ∧
      (up [(Reg.GRF_STAT, 3), inMode Mode.tracking]).mode = Mode.tracking ∧ (up [(Reg.GRF_STAT, 3)]).rb (Reg.PAGE_CTRL 0x0C) 3 = false) ∧
    ((t Mode.tracking).twnOn = true ∧ twnParse (record 9 0 0 0 (cmd 9 0 0)) = some ⟨9, 0, 0, 0, cmd 9 0 0⟩ ∧ (t Mode.tracking).mode = Mode.tracking ∧
      (t Mode.tracking).rf Reg.GRF_STAT 2 0 = 2 ∧ (t Mode.tracking).rf Reg.GRF_MAPLEN 16 0 = 0 ∧ (t Mode.tracking).grf.told = false ∧
      ({ t Mode.tracking with grf := { (t Mode.tracking).grf with told := true } } : State).grf.told = true ∧ (t Mode.run).twnOn = true ∧ (t Mode.run).mode ≠ Mode.tracking ∧
      (t Mode.run).mode ≠ Mode.hold) := by
  decide +kernel

theorem test_meets_SwitchedFunctions :
    let s := up []
    let fn := fun (i : Nat) (f : Fn) => { s with fns := [(i, f)] }
    (∀ p ∈ [0x11, 0x12, 0x13, 0x14, 0x15, 0x1E, 0x1F, 0x20, 0x21], Writes s .host (Reg.PAGE_CTRL p) ∧ s.fn (100 + p) = {} ∧ s.rb (Reg.PAGE_CTRL p) 0 = false) ∧
    (let t := fn 121 ⟨some 1, [0, 1, 0], 0⟩
     Writes t .host (Reg.PAGE_CTRL 0x15) ∧ (t.fn (100 + 0x15)).toward.isSome = true ∧ (t.fn (100 + 0x15)).held.length < 4) ∧
    (Writes s .host Reg.RND_CHEN ∧ (0xFFFFFFFF : Word).toNat.testBit 31 = true ∧ s.rb Reg.RND_CHEN 31 = false ∧ s.fn 231 = {} ∧ s.rind.chOn.getLsbD 31 = false) ∧
    ((s.cn 3).sel = none ∧ (s.fn 130).toward = none ∧ ((fn 130 ⟨some 0, [], 0⟩).fn 130).toward = some 0 ∧ ((fn 120 ⟨some 1, [], 0⟩).fn 120).toward = some 1) ∧
    (({ s with can := [(3, { s.cn 3 with sel := some 127 })] } : State).cn 3).sel.isSome = true ∧ ((s.fn 121).toward = none ∧ (s.fn 231).toward = none) ∧
    (let t := { fn 121 ⟨some 0, [], 0⟩ with rind := { s.rind with demag := 0x80000000 } }
     t.rind.demag ≠ 0 ∧ (t.fn 121).toward = some 0) ∧
    (let t := { fn 231 ⟨some 0, [], 0⟩ with rind := { s.rind with demag := 0x80000000 } }
     t.rind.demag.getLsbD 31 = true ∧ (t.fn 231).toward = some 0) ∧
    (((fn 121 ⟨some 0, [], 0⟩).fn 121).toward = some 0 ∧ s.rind.demag = 0 ∧ ((fn 231 ⟨some 0, [], 0⟩).fn 231).toward = some 0) ∧
    (s.fn 0).held = [] ∧ (fn 133 ⟨none, [1, 0], 0⟩).fn 133 = ⟨none, 1 :: [0], 0⟩ ∧ (fn 231 ⟨none, [1], 0⟩).fn 231 = ⟨none, 1 :: [], 0⟩ := by
  simp only [writes_iff]; decide +kernel


/-- A controller on both networks, five boundaries after the origin, with `regs` over that. -/
def controller (m : Nat) (regs : List (Nat × Word)) : State :=
  let s := cycling m (regs ++ [(Reg.VUV_CFG, 0x13)] ++ en 0x0D ++ en 0x1E ++ en 0x1F ++
    [(Reg.VUV_STNCFG 128, 1), (Reg.VUV_CONFBASE, 0x10000), (Reg.VUV_DIAGBASE, 0x20000), (Reg.VUV_STN_INBUF, 0x30000), (Reg.VUV_STN_OUTBUF, 0x40000)])
  { s with scn := { s.scn with lastB := some 5, cyc := 5 } }

/-- The port of network A takes the frame `f` on the wire, and the checks read it as `v`. -/
def readsAs (s : State) (f : List Byte) (v : VFrame) : Bool :=
  s.portTakes (s.netPort .a) (onWire f) && s.vuvPart (onWire f) == some f && decide (vuvCheck f = .ok v)

theorem test_meets_VuvasReception :
    let s := controller Mode.run []
    let rx := fun (r : StnRx) => { s with vuv := { s.vuv with stns := [(128, r)] } }
    let i : VSeg := ⟨128, 2, bytes 128⟩
    let h : VSeg := ⟨128, 0, bytes 32⟩
    let d : VSeg := ⟨128, 0, bytes 48⟩
    let o : VSeg := ⟨5, 0, bytes 128⟩
    let t := controller Mode.run [(Reg.PAGE_CTRL 0x0E, 1)]
    let reads := fun (s : State) (f : List Byte) (v : VFrame) => readsAs s f v = true
    let next := fun (s : State) => s.scn.lastB.map fun _ => (s.scn.cyc + 1) % 65536
    ((up []).netOn .a = false ∧ (up []).netOn .b = false) ∧ (s.netOn .a = true ∧ s.netOn .b = true ∧ s.netClash = false ∧ s.isStn = false ∧ s.vuv.crc = false) ∧
    s.portTakes (s.netPort .a) [] = false ∧
    (s.portTakes (s.netPort .a) [1, 2] = true ∧ s.vuvPart [1, 2] = none) ∧
    (s.portTakes (s.netPort .a) (onWire []) = true ∧ s.vuvPart (onWire []) = some [] ∧ vuvCheck [] = .fmt) ∧
    (s.vuvPart (onWire ((frame 4 0 0xF2 7 6 0 []).set 25 7)) = some ((frame 4 0 0xF2 7 6 0 []).set 25 7) ∧ vuvCheck ((frame 4 0 0xF2 7 6 0 []).set 25 7) = .crc) ∧
    (reads s (frame 4 0 0xF2 7 6 0 []) ⟨4, 0, 0xF2, 7, 6, 0, []⟩ ∧ 4 ∉ [1, 2, 6, 8]) ∧
    (reads s (frame 2 2 128 0 6 0 [i]) ⟨2, 2, 128, 0, 6, 0, [i]⟩ ∧ s.rb (Reg.VUV_STNCFG 128) 0 = true ∧ i.sflags / 2 % 2 = 1 ∧
      next s = some 6 ∧ (s.stnRx 128).seq ≠ some 6) ∧
    (reads s (frame 2 2 128 0 7 0 [i]) ⟨2, 2, 128, 0, 7, 0, [i]⟩ ∧ next s ≠ some 7) ∧
    ((rx { seq := some 6 }).stnRx 128).seq = some 6 ∧
    (reads s (frame 6 0 128 0 6 0 [h]) ⟨6, 0, 128, 0, 6, 0, [h]⟩ ∧ (up []).rb (Reg.VUV_STNCFG 128) 0 = false ∧ (s.stnRx 128).uid = none ∧
      ((rx { uid := some (BitVec.ofNat 64 (ofBE (sub h.data 0 8))) }).stnRx 128).uid = some (BitVec.ofNat 64 (ofBE (sub h.data 0 8)))) ∧
    (reads s (frame 8 0 128 9 6 77 [d]) ⟨8, 0, 128, 9, 6, 77, [d]⟩ ∧ s.vuvOverlap = false) ∧
    (reads t (frame 1 0 0xF2 7 6 0 [o]) ⟨1, 0, 0xF2, 7, 6, 0, [o]⟩ ∧ t.vuvTakes ⟨1, 0, 0xF2, 7, 6, 0, [o]⟩ = true ∧ t.rb (Reg.PAGE_CTRL 0x0E) 0 = true ∧
      t.netOn .a = true ∧ t.netClash = false ∧ t.isStn = false ∧ t.mode ≠ Mode.tracking) := by
  simp only [readsAs, vuvCheck, crc32c_strict]; decide +kernel

theorem test_meets_VuvasControl :
    let s := fun (m : Nat) (regs : List (Nat × Word)) => controller m regs
    let v := fun (s : State) (f : Vuv → Vuv) => { s with vuv := f s.vuv }
    let done := fun (s : State) => v s fun x => { x with outDone := true }
    (up [(Reg.TWN_STAT, 0)]).lead = false ∧
    (∀ m ∈ [Mode.run, Mode.stop, Mode.safeHalt, Mode.hold], (s m []).lead = true ∧ (s m []).isStn = false ∧ (s m []).netClash = false ∧ (s m []).mode = m) ∧
    ((v (s Mode.stop []) fun x => { x with schedSent := true }).vuv.schedSent = true ∧ (v (s Mode.run []) fun x => { x with outDone := false }).vuv.outDone = false) ∧
    ((s Mode.stop []).vuv.schedSent = false ∧ (done (s Mode.hold [])).vuv.outDone = true ∧ (done (s Mode.hold [])).vuv.schedSent = false ∧
      (let r := done (s Mode.run [(Reg.VUV_SCHED_DIV, 5)])
       r.mode = Mode.run ∧ r.vuv.schedSent = false ∧ r.vuv.outDone = true ∧ r.scn.cyc % max 1 (r.rf Reg.VUV_SCHED_DIV 7 0) = 0)) ∧
    ((done (s Mode.hold [(Reg.SCN_HOLDCFG, 1)])).rb Reg.SCN_HOLDCFG 0 = true ∧ (done (s Mode.hold [(Reg.SCN_HOLDCFG, 1)])).vuv.outDone = true ∧
      (v (s Mode.stop []) fun x => { x with safeSent := true }).vuv.safeSent = true ∧ (s Mode.stop []).scn.safeOut = false ∧ (s Mode.stop []).vuv.safeSent = false) ∧
    (let t := done (s Mode.run [(Reg.VUV_SAFEREQ 3, 0x80000000)])
     t.mode = Mode.run ∧ t.vuv.outDone = true ∧ ∀ i < 128, t.rb (Reg.VUV_SAFEREQ (i / 32)) (i % 32) = decide (i + 1 = 128)) ∧
    (let t := v (s Mode.run [(Reg.VUV_REL 3, 0x80000000)]) fun x => { x with outDone := true, relDue := [128], stns := [(128, { join := 3 })] }
     t.mode = Mode.run ∧ t.vuv.outDone = true ∧ t.vuv.relDue = [128] ∧ t.rb (Reg.VUV_REL ((128 - 1) / 32)) ((128 - 1) % 32) = true ∧ (t.stnRx 128).relLeft = none ∧
       (t.stnRx 128).join = 3) ∧
    (s Mode.run []).vuv.confQ = [] ∧
    (let t := v (s Mode.safeHalt []) fun x => { x with confQ := [128, 7], confN := 3, stns := [(128, { join := 1 })] }
     t.mode ∈ [Mode.stop, Mode.safeHalt] ∧ t.vuv.confN < 4 ∧ t.vuv.confQ = 128 :: [7] ∧ (t.stnRx 128).join = 1) ∧
    (Writes (up []) .host (Reg.VUV_REL 3) ∧ Writes (up []) .host (Reg.VUV_SAFEREQ 3)) := by
  simp only [writes_iff]; decide +kernel

/-- Station 5 led by controller F1 in epoch 7, in state `st` with `hb` cycles without a frame, with or without its CONF. -/
def station (m st hb held lead : Nat) : State :=
  let s := controller m [(Reg.SYS_STRAPS, 2), (Reg.VUV_STN_ADDR, 5), (Reg.TIM_STAT, 0), (Reg.VUV_STN_STATE, BitVec.ofNat 32 (st + 8 * held + 256 * hb + 65536 * 7)),
    (Reg.VUV_STN_LEAD, BitVec.ofNat 32 lead), (Reg.SCN_APPLY_OFS, 500)]
  { s with mem := [(Key.conf, 3)] }

theorem test_meets_StationReception :
    let s := station Mode.stnRun 2 0 1 0xF1
    let r := station Mode.stnSafe 2 0 1 0xF1
    let ok := fun (f : List Byte) (v : VFrame) => readsAs s f v = true
    let led := fun (s : State) (v : VFrame) => v.src = s.rf Reg.VUV_STN_LEAD 7 0 ∧ v.src ≠ 0 ∧ v.epoch = s.rf Reg.VUV_STN_STATE 31 16
    let o : VSeg := ⟨5, 0, bytes 128⟩
    let c : VSeg := ⟨0, 0, bytes 24⟩
    let e : VSeg := ⟨5, 0, []⟩
    (s.netOn .a = true ∧ s.netOn .b = true ∧ s.netClash = false ∧ s.isStn = true ∧ s.mode ∈ [Mode.stnRun, Mode.stnSafe] ∧ r.mode = Mode.stnSafe ∧
      s.rf Reg.VUV_STN_ADDR 7 0 = 5) ∧
    (ok (frame 9 16 0xF2 8 6 0 []) ⟨9, 16, 0xF2, 8, 6, 0, []⟩ ∧ (station Mode.stnSafe 0 0 0 0).rf Reg.VUV_STN_LEAD 7 0 = 0 ∧ s.rf Reg.VUV_STN_LEAD 7 0 ≠ 0 ∧
      0 < (8 + 65536 - s.rf Reg.VUV_STN_STATE 31 16) % 65536 ∧ (8 + 65536 - s.rf Reg.VUV_STN_STATE 31 16) % 65536 < 32768) ∧
    (ok (frame 9 16 0xF2 6 6 0 []) ⟨9, 16, 0xF2, 6, 6, 0, []⟩ ∧ 32768 ≤ (6 + 65536 - s.rf Reg.VUV_STN_STATE 31 16) % 65536) ∧
    (let v : VFrame := ⟨1, 0, 0xF1, 7, 5, 5500000, [o]⟩
     ok (frame 1 0 0xF1 7 5 5500000 [o]) v ∧ led s v ∧ s.scn.lastB = some 5 ∧ 5 % 65536 = v.seq ∧ v.time = s.applyAt 5 % 2 ^ 64 ∧
       (s.stn.seg.map fun x => (x.epoch.toNat, x.seq.toNat)) ≠ some (v.epoch, v.seq) ∧
       s.netT + max 6 (s.rf Reg.VUV_STN_PREP 7 0) * 1000 ≤ v.time ∧ v.time < 2 ^ 63 ∧
       (let l := { s with tim := { s.tim with ns := 5494001 } }
        l.scn.lastB = some 5 ∧ v.time = l.applyAt 5 % 2 ^ 64 ∧ v.time < l.netT + max 6 (l.rf Reg.VUV_STN_PREP 7 0) * 1000 ∧ l.netT < 2 ^ 63)) ∧
    (let u := station Mode.stnSafe 0 0 1 0xF1
     let v : VFrame := ⟨3, 0, 0xF1, 7, 5, 0, [c]⟩
     ok (frame 3 0 0xF1 7 5 0 [c]) v ∧ led u v ∧ u.rb Reg.TIM_STAT 0 = false ∧ u.rf Reg.VUV_STN_STATE 2 0 = 0) ∧
    (let v : VFrame := ⟨4, 0, 0xF1, 7, 5, 0, []⟩
     ok (frame 4 0 0xF1 7 5 0 []) v ∧ led s v ∧ s.mode = Mode.stnRun) ∧
    (let v : VFrame := ⟨5, 0, 0xF1, 7, 5, 0, [e]⟩
     ok (frame 5 0 0xF1 7 5 0 [e]) v ∧ led r v ∧ e.addr = 5 ∧ r.rb Reg.VUV_STN_STATE 3 = true ∧ r.rf Reg.VUV_STN_STATE 2 0 = 2 ∧
       r.stn.safeSeq ≠ some (BitVec.ofNat 16 v.seq) ∧ ∀ x ∈ r.sys.trans, x.row ≠ 28) := by
  simp only [readsAs, vuvCheck, crc32c_strict]; decide +kernel

/-- A CONF of 272 bytes whose digest is right. -/
def conf : List Byte := let x := bytes 272; x.take 4 ++ beBytes 8 (strictFold crc64Byte (x.take 4 ++ x.drop 12) 0).toNat ++ x.drop 12

theorem test_meets_StationConf :
    let s := station Mode.stnRun 2 0 1 0xF1
    let good : VSeg := ⟨5, 0, conf⟩
    let bad : VSeg := ⟨5, 0, bytes 272⟩
    (s.vuvPart (onWire (frame 7 0 0xF1 7 5 0 [good])) = some (frame 7 0 0xF1 7 5 0 [good]) ∧ vuvCheck (frame 7 0 0xF1 7 5 0 [good]) = .ok ⟨7, 0, 0xF1, 7, 5, 0, [good]⟩ ∧ (crc64 (conf.take 4 ++ conf.drop 12)).toNat = ofBE (sub conf 4 8)) ∧
    (vuvCheck (frame 7 0 0xF1 7 5 0 [bad]) = .ok ⟨7, 0, 0xF1, 7, 5, 0, [bad]⟩ ∧ (crc64 (bad.data.take 4 ++ bad.data.drop 12)).toNat ≠ ofBE (sub bad.data 4 8)) ∧
    0xF1 = s.rf Reg.VUV_STN_LEAD 7 0 ∧ 7 = s.rf Reg.VUV_STN_STATE 31 16 ∧ s.mode = Mode.stnRun := by
  simp only [vuvCheck, crc32c_strict, crc64_strict]; decide +kernel

theorem test_meets_StationWork :
    let s := station Mode.stnRun 2 0 1 0xF1
    let st := fun (s : State) (f : Stn → Stn) => { s with stn := f s.stn }
    let g : Seg := ⟨7, 5, 5500000, false, false⟩
    let at' := fun (s : State) (g : Seg) (n : Nat) => { s with tim := { s.tim with ns := n }, stn := { s.stn with seg := some g } }
    (s.stn.seg = none ∧ ((at' s { g with applied := true } 0).stn.seg.map (·.applied)) = some true) ∧
    (g.applied = false ∧ g.time.toNat < 2 ^ 63 ∧ (at' s g 5499999).netT < g.time.toNat) ∧
    (let l := at' s { g with late := true } 5500000
     l.stn.seg = some { g with late := true } ∧ l.netT < 2 ^ 63 ∧ g.time.toNat ≤ l.netT) ∧
    (g.time.toNat + 16 ≤ (at' s g 5500016).netT ∧ (at' (station Mode.stnSafe 2 0 1 0xF1) g 5500000).mode ≠ Mode.stnRun) ∧ (s.mode = Mode.stnRun ∧ s.vuvOverlap = false) ∧ (up []).isStn = false ∧
    (s.isStn = true ∧ s.mode ∈ [Mode.stnRun, Mode.stnSafe] ∧ 1 ≤ s.rf Reg.VUV_STN_ADDR 7 0 ∧ s.rf Reg.VUV_STN_ADDR 7 0 ≤ 128 ∧ s.netClash = false) ∧
    (s.rf Reg.VUV_STN_STATE 2 0 ≠ 0 ∧ s.rb Reg.VUV_STN_STATE 3 = true ∧ s.sampleCycle.isSome) ∧
    (let t := st (station Mode.stnSafe 1 0 0 0xF1) fun x => { x with hello := 0 }
     t.rf Reg.VUV_STN_STATE 2 0 = 1 ∧ t.rb Reg.VUV_STN_STATE 3 = false ∧ t.stn.hello = 0) ∧
    (let t := st { s with mem := [(Key.conf, 3), (Key.conf + 2, 0xEA), (Key.conf + 3, 0x60)] } fun x => { x with diag := 60000 }
     ofBE (t.rdBytes (Key.conf + 2) 2) ≠ 0 ∧ ofBE (t.rdBytes (Key.conf + 2) 2) ≤ t.stn.diag) ∧
    ((station Mode.stnRun 2 3 1 0xF1).rd Key.conf).toNat ≤ (station Mode.stnRun 2 3 1 0xF1).rf Reg.VUV_STN_STATE 15 8 ∧ s.rf Reg.VUV_STN_STATE 15 8 < (s.rd Key.conf).toNat ∧
    (let t := st s fun x => { x with noFrame := 12 }
     t.rf Reg.VUV_STN_LEAD 7 0 ≠ 0 ∧ 4 * (t.rd Key.conf).toNat ≤ t.stn.noFrame) ∧
    (let t := st (station Mode.stnSafe 1 0 0 0xF1) fun x => { x with noFrame := 40 }
     t.rf Reg.VUV_STN_LEAD 7 0 ≠ 0 ∧ t.rb Reg.VUV_STN_STATE 3 = false ∧ 40 ≤ t.stn.noFrame) := by
  decide +kernel

/-- The segment is applied from a state in canonical form. -/
theorem test_meets_StationApply :
    let g : Seg := ⟨7, 5, 5500000, false, false⟩
    let s := { dev [(Reg.SYS_MODE, 10)] with stn := { State.reset.stn with seg := some g }, tim := { State.reset.tim with sec := 0, ns := 5500015 } }
    s.stn.seg = some g ∧ g.applied = false ∧ g.late = false ∧ s.netT < 2 ^ 63 ∧ g.time.toNat < 2 ^ 63 ∧ g.time.toNat ≤ s.netT ∧ s.netT < g.time.toNat + 16 ∧ s.mode = Mode.stnRun ∧ s.vuvOverlap = false ∧ (Memory.wf s.mem = true ∧ Sparse.wf regReset s.regs = true) := by
  decide +kernel

/-- A twin with its link up, `regs` over that. -/
def twin (m : Nat) (regs : List (Nat × Word)) : State :=
  let s := cycling m (regs ++ [(Reg.TWN_STAT, 1), (Reg.PAGE_CTRL 0x0E, 1), (Reg.PAGE_STAT 0x0E, 1)])
  { s with scn := { s.scn with lastB := some 5, cyc := 5 } }

/-- The same with the lead. -/
def leading (m : Nat) : State := twin m [(Reg.TWN_STAT, 3)]

theorem test_meets_TwinLink :
    let hb := fun (b1 epoch : Nat) => leBytes 1 5 ++ leBytes 1 b1 ++ leBytes 2 epoch ++ leBytes 6 7 ++ leBytes 6 0
    let l := leading Mode.run
    (up [(Reg.PAGE_CTRL 0x0E, 0)]).twnOn = false ∧ l.twnOn = true ∧ (twnParse [] = none ∧ l.twn.linkErr = false) ∧
    (twnParse (record 1 0 5 0 (hb 0x11 0)) = some ⟨1, 0, 5, 0, hb 0x11 0⟩ ∧ byteAt (hb 0x11 0) 1 / 16 = 1 ∧ byteAt (hb 0x11 0) 1 % 2 = 1 ∧ l.twn.hbGood < 3) ∧
    (let s := { twin Mode.tracking [(Reg.TWN_STAT, 0)] with twn := { State.reset.twn with hbGood := 3 } }
     s.twnOn = true ∧ 3 ≤ s.twn.hbGood ∧ s.rb Reg.TWN_STAT 0 = false ∧ s.lead = false) ∧
    (twnParse (record 1 0 5 0 (hb 0x11 32767)) = some ⟨1, 0, 5, 0, hb 0x11 32767⟩ ∧ l.lead = true ∧ l.mode = Mode.run ∧ l.sys.trans = [] ∧
      0 < (ofLE (sub (hb 0x11 32767) 2 2) + 65536 - l.rf Reg.TWN_STAT 31 16) % 65536 ∧ (ofLE (sub (hb 0x11 32767) 2 2) + 65536 - l.rf Reg.TWN_STAT 31 16) % 65536 < 32768) ∧
    ((up [(Reg.TWN_STAT, 0)]).rb Reg.TWN_STAT 0 = false ∧ l.rb Reg.TWN_STAT 0 = true) ∧ 99 < 100 ∧
    (500 ≤ 500 ∧ (up [(Reg.PAGE_CTRL 0x0E, 0)]).rb (Reg.PAGE_CTRL 0x0E) 0 = false) ∧
    (∀ m ∈ [Mode.tracking, Mode.syncing, Mode.run], (twin m []).rb (Reg.PAGE_CTRL 0x0E) 0 = true ∧ (twin m []).mode = m) := by
  simp only [twnParse, crc32c_strict]; decide +kernel

theorem test_meets_TwinDelta :
    let s := twin Mode.tracking []
    let w := fun (x : Twn) => { s with twn := x }
    let one : Delta := ⟨5, 9, 77, false, false, [(0x4000FFFF, bytes 64)], [], 1, false⟩
    let ok := fun (r : List Byte) (p : TRec) => twnParse r = some p
    (s.twnOn = true ∧ s.mode = Mode.tracking ∧ s.rb Reg.TWN_STAT 0 = true) ∧ ((twin Mode.run []).twnOn = true ∧ (twin Mode.run []).mode ≠ Mode.tracking ∧ (twin Mode.run []).mode ≠ Mode.hold) ∧
    ok (record 2 0 5 0 (leBytes 6 9 ++ leBytes 6 77 ++ leBytes 4 3)) ⟨2, 0, 5, 0, leBytes 6 9 ++ leBytes 6 77 ++ leBytes 4 3⟩ ∧
    (ok (record 3 0 5 0x4000FFFF (bytes 64)) ⟨3, 0, 5, 0x4000FFFF, bytes 64⟩ ∧ 0x4000FFFF / 2 ^ 28 ∈ [0, 2, 4] ∧ State.pantryLines (s.twn.delta.getD ⟨0, 0, 0, false, false, [], [], 0, true⟩) < 1024) ∧
    (ok (record 4 0 5 0 (bytes 8)) ⟨4, 0, 5, 0, bytes 8⟩ ∧ (s.twn.delta.getD one).cfgw.length < 256) ∧
    (ok (record 5 0 5 1 []) ⟨5, 0, 5, 1, []⟩ ∧ (w { delta := some one }).twn.delta = some one ∧ 1 = one.count ∧ 5 = one.seq ∧ one.grf = false ∧ (w { delta := some one }).twn.resume = false ∧
      0x4000FFFF % 2 ^ 28 < 65536 ∧ (bytes 64).length = 64 ∧ one.cfgw = [] ∧ one.swap = false ∧ s.ecc = []) ∧
    (ok (record 5 0 6 1 []) ⟨5, 0, 6, 1, []⟩ ∧ 6 ≠ one.seq) ∧
    (s.twn.committed ≠ s.scn.lastB.map (· % 2 ^ 48) ∧ s.rb Reg.TWN_STAT 0 = true ∧ (twin Mode.tracking [(Reg.TWN_STAT, 0)]).rb Reg.TWN_STAT 0 = false ∧ (w { committed := some 5 }).twn.committed = s.scn.lastB.map (· % 2 ^ 48)) ∧
    ((w { sent := true }).twn.sent = true ∧ s.twn.sent = false ∧ s.twn.part = none ∧ s.scn.invalid = false) ∧
    (let o : Dig := ⟨5, BitVec.ofNat 64 (ofLE (bytes 8)), false⟩
     ok (record 6 0 5 0 (bytes 8)) ⟨6, 0, 5, 0, bytes 8⟩ ∧ (w { own := some o }).twn.own = some o ∧ o.invalid = false ∧ o.cyc % 65536 = 5 % 65536 ∧ o.val.toNat = ofLE (bytes 8) ∧
       ({ o with val := 1 } : Dig).val.toNat ≠ ofLE (bytes 8) ∧ (leading Mode.run).lead = true ∧ (leading Mode.run).mode = Mode.run) ∧
    (let y := twin Mode.syncing []
     y.mode = Mode.syncing ∧ ok (record 7 0 5 0x4000FFFF (bytes 64)) ⟨7, 0, 5, 0x4000FFFF, bytes 64⟩ ∧ y.rf Reg.TWN_STAT 10 8 = 0 ∧
       ok (record 8 0 5 0 (leBytes 1 1 ++ bytes 15)) ⟨8, 0, 5, 0, leBytes 1 1 ++ bytes 15⟩ ∧ ok (record 8 0 5 0 (leBytes 1 2 ++ bytes 15)) ⟨8, 0, 5, 0, leBytes 1 2 ++ bytes 15⟩ ∧ y.sys.trans = []) := by
  simp only [twnParse, crc32c_strict]; decide +kernel

theorem test_meets_TwinCommands :
    let t := twin Mode.tracking []
    let l := leading Mode.run
    let w := fun (s : State) (x : Twn) => { s with twn := x }
    let sw : Switch := ⟨7, true, false⟩
    (∀ c ∈ [1, 2, 3, 4, 5, 6, 7], twnParse (record 9 0 5 0 (cmd c 0 7)) = some ⟨9, 0, 5, 0, cmd c 0 7⟩ ∧ byteAt (cmd c 0 7) 0 = c ∧ ofLE (sub (cmd c 0 7) 4 8) = 7) ∧
    (t.twnOn = true ∧ t.mode = Mode.tracking ∧ (w t { matched := true }).twn.matched = true ∧ (w t { matched := false }).twn.matched = false ∧ t.rb Reg.TWN_STAT 0 = true) ∧
    (t.twn.sw = none ∧ (w l { sw := some sw }).twn.sw = some sw ∧ l.mode = Mode.run ∧ l.netT < l.boundaryAt 7) ∧ l.boundaryAt 5 ≤ l.netT ∧
    (l.mode ∉ [Mode.syncing, Mode.tracking] ∧ l.twnOn = true) ∧ ((w t { dropped := some 7 }).twn.dropped = some (7 % 2 ^ 48) ∧ t.twn.dropped ≠ some (7 % 2 ^ 48)) ∧
    (let h := twin (Mode.hold + 16) []
     h.twnOn = true ∧ h.mode = Mode.hold ∧ h.stby = true) ∧
    (Writes l .host Reg.TWN_PRESET ∧ (0x3D : Word).toNat % 256 ≠ 0x3C ∧ (0x3C : Word).toNat % 256 = 0x3C ∧ l.twnOn = true ∧ l.rb Reg.TWN_STAT 0 = true) ∧
    (Writes l .host Reg.TWN_CMD ∧ Writes t .host Reg.TWN_CMD ∧ t.lead = false) ∧
    (let p := twin Mode.run [(Reg.TWN_STAT, 0x93)]
     Writes p .host Reg.TWN_CMD ∧ p.lead = true ∧ p.mode = Mode.run ∧ p.partnerTracking = true ∧ p.rf Reg.GRF_STAT 2 0 = 0 ∧ p.twn.sw = none ∧
       p.cycleAt (p.netT + 100000) = some 5) ∧
    (let p := twin Mode.run [(Reg.TWN_STAT, 0x103)]
     Writes p .host Reg.TWN_CMD ∧ p.rf Reg.TWN_STAT 10 8 ≠ 0 ∧ p.partnerTracking = false ∧ p.mode ∉ [Mode.tracking, Mode.hold]) := by
  simp only [twnParse, crc32c_strict, writes_iff]; decide +kernel

theorem test_meets_TimeBase :
    let s := up []
    let t := { s with tim := ⟨5, 999999999, 0xFFFFFFFF, false⟩ }
    (Writes s .host Reg.TIM_CMD ∧ (up [(Reg.TIM_SET_NS, 999999999)]).rf Reg.TIM_SET_NS 29 0 < 1000000000 ∧ Writes (up [(Reg.TIM_SET_NS, 999999999)]) .host Reg.TIM_CMD) ∧
    t.tim.loadPend = false ∧
    (s.tim.loadPend = true ∧ s.domOn 9 = true) ∧
    (let c := up [(Reg.RTC_TIME, 0x06235959), (Reg.RTC_CAL, 0x20991231)]
     c.tim.loadPend = true ∧ c.domOn 9 = true ∧ ∀ f ∈ rtcFields (c.reg Reg.RTC_TIME) (c.reg Reg.RTC_CAL), bcdOk f = true) ∧
    (let c := up [(Reg.TIM_STAT, 0), (Reg.TIM_UNLOCKTHR, 1000)]
     Writes c .host Reg.TIM_OFSMEAS ∧ c.rf Reg.TIM_UNLOCKTHR 15 0 < (1001 : Word).toInt.natAbs ∧ c.rb Reg.TIM_STAT 0 = false ∧ (1000 : Word).toInt.natAbs ≤ c.rf Reg.TIM_UNLOCKTHR 15 0) ∧
    (let c := up [(Reg.TIM_STAT, 1)]
     Writes c .host Reg.TIM_OFSMEAS ∧ c.rb Reg.TIM_STAT 0 = true) ∧ (up [(Reg.TIM_STAT, 0)]).domOn 9 = true := by
  simp only [writes_iff]; decide +kernel

theorem test_meets_CaptureAndPulses :
    let c : Capt := ⟨1, 77, true⟩
    let s := fun (regs : List (Nat × Word)) => up (regs ++ en 0x10)
    let q := fun (s : State) (l : List Capt) => { s with tci := [(3, l)] }
    let x := fun (y : Tpo) => { s [] with tpo := [(7, y)], tim := { State.reset.tim with sec := 1, ns := 5000000 } }
    let now := 1005000000
    (up []).rb (Reg.TCI_CFG 3) 0 = false ∧
    (let a := s [(Reg.TCI_CFG 3, 7)]
     a.domOn 9 = true ∧ a.rb (Reg.TCI_CFG 3) 0 = true ∧ a.rb (Reg.TCI_CFG 3) 1 = true ∧ a.rb (Reg.TCI_CFG 3) 2 = true ∧ ((q a [c, c, c]).tciFifo 3).length < 4 ∧
       4 ≤ ((q a [c, c, c, c]).tciFifo 3).length ∧ Sparse.get (fun _ => 0) a.tciNext 3 ≤ a.now) ∧
    ((s [(Reg.TCI_CFG 3, 3)]).rb (Reg.TCI_CFG 3) 0 = true ∧ (s [(Reg.TCI_CFG 3, 3)]).rb (Reg.TCI_CFG 3) 2 = false) ∧
    (Reads (s []) .host (Reg.TCI_TS 3) ∧ (s []).tciFifo 3 = [] ∧ (q (s []) [c]).tciFifo 3 = c :: []) ∧
    (Writes (s [(Reg.TPO_START_NS 7, 999999999)]) .host (Reg.TPO_CTRL 7) ∧ (s [(Reg.TPO_START_NS 7, 999999999)]).rf (Reg.TPO_START_NS 7) 29 0 < 1000000000 ∧ ((s []).tpoOf 7).writers.length ≤ 1) ∧
    ((x { armed := true, level := true }).tpoOf 7).armed = true ∧ ((s []).tpoOf 7).armed = false ∧
    ((s []).rb (Reg.PAGE_CTRL 0x10) 0 = true ∧ (s []).domOn 9 = true) ∧
    (let y := (x { armed := true, start := now - 25, p := 100, w := 20, level := true, ending := true }).tpoOf 7
     y.ending = true ∧ y.start ≤ now ∧ ¬ now - y.start < 0 * 100 + y.w) ∧
    (let y := (x { armed := true, start := now - 10, p := 100, w := 20 }).tpoOf 7
     y.ending = false ∧ y.start ≤ now ∧ now - y.start < 0 * 100 + y.w ∧ y.c = 0) ∧
    (let y := (x { armed := true, start := now - 4, p := 0, w := 2, c := 1 }).tpoOf 7
     y.c ≠ 0 ∧ y.start + (y.c - 1) * 2 ^ 32 + 4 ≤ now) := by
  simp only [writes_iff, reads_iff]; decide +kernel

/-- `l` stored from key `k` on. -/
def cells (k : Nat) (l : List Byte) : List (Nat × Byte) := (List.range l.length).filterMap fun i => if l.getD i 0 = 0 then none else some (k + i, l.getD i 0)

/-- Port 3 enabled, its transmit ring at 0x1000 with `n` entries of which the first is `ent`, its receive ring at 0x4000 with the entry `re`. -/
def ports (regs : List (Nat × Word)) (ent re : List Byte) : State :=
  let s := up (regs ++ en 0x21 ++ [(Reg.ETH_TXR_BASE 3, 0x1000), (Reg.ETH_TXR_LEN 3, 4), (Reg.ETH_TXR_PROD 3, 3), (Reg.ETH_RXR_BASE 3, 0x4000), (Reg.ETH_RXR_LEN 3, 4),
    (Reg.ETH_RXR_CONS 3, 2), (Reg.ETH_MAXLEN 3, 1518)])
  { s with mem := cells (Key.sram + 0x1000) ent ++ cells (Key.sram + 0x4000) re }

theorem test_meets_EthernetPorts :
    let on := fun (s : State) => s.rb (Reg.PAGE_CTRL (0x1E + 3)) 0 = true ∧ s.rb (Reg.PAGE_STAT (0x1E + 3)) 0 = true ∧ s.domOn 9 = true
    let ent := fun (w : Nat) => leBytes 4 0x2000 ++ leBytes 4 100 ++ leBytes 4 w ++ leBytes 4 0
    let re := fun (n : Nat) => leBytes 4 0x5000 ++ leBytes 2 n ++ List.replicate 26 0
    let s := fun (w : Nat) => ports [] (ent w) (re 1518)
    let w := fun (s : State) => ofLE (sub (s.sramRd 0x1000 16) 8 4)
    let y : TxTs := ⟨7, 1, 2, 3⟩
    let m := bytes 64
    let q := fun (s : State) (l : List TxTs) => { s with txts := [(3, l)] }
    ((up []).rb (Reg.PAGE_CTRL 0x21) 0 = false ∧ (up []).rf (Reg.ETH_TXR_CONS 3) 7 0 = (up []).rf (Reg.ETH_TXR_PROD 3) 7 0) ∧
    (on (s 0) ∧ (s 0).rf (Reg.ETH_TXR_CONS 3) 7 0 ≠ (s 0).rf (Reg.ETH_TXR_PROD 3) 7 0 ∧ (s 0).rf (Reg.ETH_TXR_PROD 3) 7 0 < (s 0).rf (Reg.ETH_TXR_LEN 3) 8 0 ∧
      (w (s 0)).testBit 17 = false ∧ (w (s 0)).testBit 16 = false ∧
      (s 0).ethClash 3 = false ∧ (∀ k ∈ [0, 2 ^ 16, 2 ^ 17], State.entryResv (ent k) = false)) ∧
    ((w (s (2 ^ 17))).testBit 17 = true ∧ (w (s (2 ^ 17))).testBit 18 = false ∧ w (s (2 ^ 17)) / 2 ^ 24 = 0 ∧ byteAt ((s (2 ^ 17)).sramRd 0x2000 100) 0 % 16 = 0 ∧
      0 + 44 ≤ ((s (2 ^ 17)).sramRd 0x2000 100).length) ∧
    ((w (s (2 ^ 16))).testBit 16 = true ∧ ((s 0).txQueue 3).length < 8 ∧ 8 ≤ ((q (s 0) (List.replicate 8 y)).txQueue 3).length) ∧
    (Reads (s 0) .host (Reg.ETH_TXTS 3) ∧ (s 0).txQueue 3 = [] ∧ (q (s 0) [y]).txQueue 3 = y :: []) ∧
    ((s 0).rf (Reg.ETH_MAXLEN 3) 13 0 < (List.replicate 1519 (0 : Byte)).length ∧ m.length ≤ (s 0).rf (Reg.ETH_MAXLEN 3) 13 0) ∧
    (m.head?.any (fun b => b.toNat % 2 = 1) = true ∧ (m.set 0 0).head?.any (fun b => b.toNat % 2 = 1) = false ∧ (s 0).rb (Reg.ETH_MODE 3) 7 = false ∧
      sub (m.set 0 0) 0 6 ≠ beBytes 2 ((s 0).rf (Reg.ETH_MACADDR_HI 3) 15 0) ++ beBytes 4 ((s 0).reg (Reg.ETH_MACADDR_LO 3)).toNat) ∧
    ((s 0).vuvPort 3 = false ∧
      (let v := ports ([(Reg.VUV_CFG, 0xD)] ++ en 0x0D) (ent 0) (re 1518)
       v.vuvPort 3 = true ∧ v.isPtp 3 m = false ∧ v.vuvPart m = none)) ∧ ((s 0).ethClash 3 = false ∧ State.entryResv ((s 0).sramRd 0x4000 32) = false) ∧
    ((s 0).rf (Reg.ETH_RXR_CONS 3) 7 0 < (s 0).rf (Reg.ETH_RXR_LEN 3) 8 0 ∧ (s 0).rf (Reg.ETH_RXR_PROD 3) 7 0 + 1 ≠ (s 0).rf (Reg.ETH_RXR_CONS 3) 7 0 ∧
      (ports [(Reg.ETH_RXR_PROD 3, 1)] [] []).rf (Reg.ETH_RXR_PROD 3) 7 0 + 1 = (ports [(Reg.ETH_RXR_PROD 3, 1)] [] []).rf (Reg.ETH_RXR_CONS 3) 7 0 ∧
      m.length ≤ ofLE (sub ((s 0).sramRd 0x4000 32) 4 2) % 2 ^ 14 ∧ 0x4000 + 32 ≤ ofLE (sub ((s 0).sramRd 0x4000 32) 0 4) ∧
      ofLE (sub ((s 0).sramRd 0x4000 32) 0 4) + m.length ≤ 2 ^ 20) ∧
    (Writes (s 0) .host (Reg.ETH_MDIO 3) ∧ (s 0).rb (Reg.ETH_MDIO 3) 12 = false) ∧
    (let t := up [(Reg.ETH_MDIO 3, 0x1000)]
     Writes t .host (Reg.ETH_MDIO 3) ∧ t.rb (Reg.ETH_MDIO 3) 12 = true) := by
  simp only [writes_iff, reads_iff]; decide +kernel

/-- CAN controller 3 enabled, with bit times that its checks pass. -/
def canBus (regs : List (Nat × Word)) (c : Can) : State :=
  { up (regs ++ en 0x14 ++ [(Reg.CAN_NBT 3, 0x03032003), (Reg.CAN_DBT 3, 0x03030301), (Reg.CAN_CTRL 3, 7)]) with can := [(3, c)] }

theorem test_meets_CanControllers :
    let s := canBus [] { next := 127 }
    let full := canBus ((List.range 4).map fun m => (Reg.CAN_RXFULL 3 m, 0xFFFFFFFF)) {}
    let rdy := fun (c : Can) => canBus [(Reg.CAN_OBJCFG 3 3, 0x80000000), (Reg.CAN_TXRDY 3 3, 0x80000000)] c
    let free := fun (s : State) (j : Nat) => s.isTxObj 3 j = false ∧ s.isFull 3 j = false
    ((up []).canOn 3 = false ∧ (canBus [(Reg.CAN_CTRL 3, 6)] {}).rb (Reg.CAN_CTRL 3) 0 = false) ∧
    (s.canOn 3 = true ∧ (s.cn 3).off = false ∧ s.rb (Reg.CAN_CTRL 3) 0 = true ∧ s.rb (Reg.CAN_CTRL 3) 5 = false ∧ s.canTimingErr 3 = false ∧
      s.rf (Reg.CAN_ERRCNT 3) 23 16 ≤ 127 ∧ 0 < 128 ∧ free s (((s.cn 3).next + 0) % 128)) ∧
    (full.canOn 3 = true ∧ (full.cn 3).off = false ∧ ∀ j < 128, full.isFull 3 j = true) ∧
    (Writes s .host (Reg.CAN_RXFULL 3 3) ∧ Writes s .host (Reg.CAN_TXRDY 3 3) ∧ Writes s .host (Reg.CAN_TXCAN 3 3)) ∧
    ((0x80000000 : Word).toNat.testBit 31 = true ∧ (rdy {}).isReady 3 (32 * 3 + 31) = true ∧ ((rdy {}).cn 3).sel ≠ some 127 ∧ ((rdy { sel := some 127 }).cn 3).sel = some 127 ∧
      s.isReady 3 127 = false) ∧
    ((∀ j < 128, s.isReady 3 j = false) ∧ ((rdy { sel := some 127 }).cn 3).sel.isSome ∧ (canBus [(Reg.CAN_CTRL 3, 0x17)] {}).rb (Reg.CAN_CTRL 3) 4 = true) ∧
    ((rdy {}).canOn 3 = true ∧ ((rdy {}).cn 3).sel = none ∧ (rdy {}).rb (Reg.CAN_CTRL 3) 4 = false ∧ ∃ j < 128, (rdy {}).isReady 3 j = true) ∧
    (let t := canBus [(Reg.CAN_OBJCFG 3 3, 0x80000000), (Reg.CAN_TXRDY 3 3, 0x80000000), (Reg.CAN_TXCAN 3 3, 0x80000000), (Reg.CAN_ERRCNT 3, 248)] { sel := some 127 }
     (t.cn 3).sel = some 127 ∧ t.isTxObj 3 127 = true ∧ t.objBit (Reg.CAN_TXCAN 3 0) 127 = true ∧ t.rb (Reg.CAN_CTRL 3) 5 = false ∧ t.rf (Reg.CAN_ERRCNT 3) 8 0 ≤ 255 ∧
       255 < t.rf (Reg.CAN_ERRCNT 3) 8 0 + 8 ∧ (t.cn 3).off = false) ∧
    (({ rdy { sel := some 127 } with mem := [(Key.can 3 + 80 * 127 + 3, 0x20)] } : State).canObjFrame 3 127).2 = false ∧
    (Writes s .host (Reg.CAN_CMD 3) ∧ (s.cn 3).off = false) ∧
    (let t := canBus [] { off := true }
     Writes t .host (Reg.CAN_CMD 3) ∧ (t.cn 3).off = true ∧ (t.cn 3).recov = false) ∧
    (let t := canBus [] { off := true, recov := true }
     (t.cn 3).off = true ∧ (t.cn 3).recov = true ∧ t.canOn 3 = true) := by
  simp only [writes_iff]; decide +kernel

/-- The Rind link enabled and its die ON, in mode `m`. -/
def rindOn (m : Nat) (regs : List (Nat × Word)) (r : Rind → Rind) : State :=
  let s := up (regs ++ [inMode m, (Reg.IMG_RINDBLK, 128)] ++ en 0x15)
  { s with rind := r { s.rind with on := true, ch := 0xFFFFFFFF } }

theorem test_meets_RindFrames :
    let s := rindOn Mode.run [] id
    let pub := fun (s : State) => { s with scn := { s.scn with published := true, pubDue := false } }
    let q := fun (s : State) (l : List RindFrame) => { s with rndQ := l }
    let active := fun (s : State) => s.rb (Reg.PAGE_CTRL 0x15) 0 = true ∧ s.mode ∈ [Mode.run, Mode.stnRun] ∧ s.pwr.coreRun = true
    let goes := fun (s : State) (f : RindFrame) => f ∈ s.rndQ ∧ s.rndTurn f = true ∧ s.rndWait f = false ∧ s.pwr.coreRun = true
    (up []).rb (Reg.PAGE_CTRL 0x15) 0 = false ∧
    (active (pub s) ∧ (pub s).scn.published = true ∧ (pub s).scn.pubDue = false ∧ (pub s).rb Reg.IMG_STAT 1 = false ∧ s.rind.refDone = false ∧ s.isStn = false ∧
      RindFrame.safe ∉ s.rndQ ∧ RindFrame.release ∉ s.rndQ ∧ s.ecc = [] ∧
      1 ≤ s.rf Reg.IMG_RINDBLK 7 0 ∧ s.rf Reg.IMG_RINDBLK 7 0 ≤ 128 ∧ s.rind.on = true ∧ s.rind.safe = false) ∧
    s.rind.sent = none ∧
    (let t := rindOn Mode.run [(Reg.RND_CHCFG 31, 1)] fun r => { r with sent := some 3, refr := some (0x80000000, 3), cfg := [(31, 1)], demag := 0x40000000 }
     t.rind.sent = some 3 ∧ t.rind.refr = some (0x80000000, 3) ∧ t.rind.on = true ∧ t.rind.safe = false ∧ t.rind.refSafe = false ∧ t.rindIsOut 31 = true) ∧
    (let t := { s with scn := { s.scn with published := false, interrupted := false } }
     active t ∧ t.scn.published = false ∧ t.mode ≠ Mode.hold ∧ t.scn.interrupted = false ∧ t.rind.refDone = false) ∧
    ((∀ f ∈ [RindFrame.safe, .release, .direct, .config 7], goes (q (pub s) [f]) f ∧ f ∉ s.rndQ) ∧ s.rind.on = true) ∧ (up []).rind.on = false ∧
    (7 < 8 ∧ (q (pub s) [.config 7, .safe]).rndQ = .config 7 :: [.safe] ∧ s.rndQ = []) ∧
    (Writes s .host Reg.RND_CMD ∧ s.rb (Reg.PAGE_CTRL 0x15) 0 = true) ∧ (Writes (up []) .host Reg.RND_CMD ∧ (up []).rb (Reg.PAGE_CTRL 0x15) 0 = false) := by
  simp only [writes_iff]; decide +kernel

theorem test_meets_RindReports :
    let s := fun (r : Rind → Rind) => rindOn Mode.run [] r
    let v := fun (s : State) (ok : Bool) => { s with pwr := { s.pwr with vfldOk := ok } }
    ((up []).rind.on = false ∧ (s fun r => { r with safe := true }).rind.safe = true ∧ (s id).rind.on = true ∧ (s id).rind.safe = false) ∧
    (1 ≤ (s fun r => { r with good := 1 }).rind.good ∧ (s id).rb Reg.RND_STAT 1 = false) ∧ (rindOn Mode.run [(Reg.RND_STAT, 4)] id).rb Reg.RND_STAT 2 = true ∧
    ((s id).isStn = false ∧ (s id).rf Reg.IMG_RINDBLK 7 0 = 128 ∧ (s id).domOn 8 = true ∧ (s id).rind.errSeen = false) ∧
    ((s fun r => { r with demag := 0x80000000 }).rind.demag.getLsbD 31 = true ∧ (s id).rind.demag.getLsbD 31 = false) ∧
    ((s id).rb (Reg.PAGE_CTRL 0x15) 0 = true ∧ (s id).rind.lost = false ∧ (s fun r => { r with lost := true }).rind.lost = true ∧ (s id).rb Reg.RND_STAT 0 = false) ∧
    (Writes (s id) .host Reg.RND_STAT ∧ (s id).rind.flt = false ∧ (s id).domOn 14 = true ∧ Writes (s fun r => { r with flt := true }) .host Reg.RND_STAT ∧
      (s fun r => { r with flt := true }).rind.flt = true) ∧
    ((v (s id) true).pwr.vfldOk = true ∧ (v (s id) false).pwr.vfldOk = false) ∧
    (let t := { v (up [(Reg.PWR_STAT 14, 0)]) false with fns := [(14, ⟨none, [2], 0⟩)] }
     t.pwr.vfldOk = false ∧ t.fn 14 = ⟨none, [2], 0⟩ ∧ t.domState 14 = 0) := by
  simp only [writes_iff]; decide +kernel

/-- The watchdog counting, its window open, with `regs` over that. -/
def dog (regs : List (Nat × Word)) (w : Wdt) : State :=
  let s := up (regs ++ [(Reg.WDT_STAT, 1)])
  { s with wdt := w, pwr := { s.pwr with coreRun := true } }

theorem test_meets_Watchdog :
    let s := up []
    let r := dog [] { window := true }
    (Writes s .steward Reg.WDT_PERIOD ∧ (0xFFFFFF : Word).toNat < 2 ^ 24 ∧ s.rb Reg.WDT_STAT 0 = false ∧ Writes r .steward Reg.WDT_PERIOD ∧ r.rb Reg.WDT_STAT 0 = true) ∧
    (Writes s .steward Reg.WDT_WARN ∧ Writes s .steward Reg.WDT_TASKS ∧ (0xFFFF : Word).toNat < 2 ^ 16) ∧
    (Writes s .steward Reg.WDT_SVC ∧ Writes r .steward Reg.WDT_SVC ∧ (0xA35C : Word).toNat % 2 ^ 16 = 0xA35C ∧ (0xA35D : Word).toNat % 2 ^ 16 ≠ 0xA35C ∧
      (dog [] {}).wdt.window = false ∧ r.wdt.window = true ∧ r.reg Reg.WDT_TASKS_ACT &&& ~~~r.reg Reg.WDT_CHECKIN = 0) ∧
    ((dog [(Reg.WDT_TASKS_ACT, 1)] { window := true }).reg Reg.WDT_TASKS_ACT &&& ~~~(dog [(Reg.WDT_TASKS_ACT, 1)] { window := true }).reg Reg.WDT_CHECKIN ≠ 0) ∧
    ((dog [(Reg.WDT_STAT, 5)] { window := true }).rb Reg.WDT_STAT 2 = true ∧ Writes r .host Reg.WDT_CHECKIN) ∧
    (r.pwr.coreRun = true ∧ (r.core 72).dbgHalt = false) ∧ r.rf Reg.WDT_WARN_ACT 23 0 = 0 ∧
    ((dog [(Reg.WDT_WARN_ACT, 6)] {}).rf Reg.WDT_WARN_ACT 23 0 ≠ 0 ∧ (dog [(Reg.WDT_WARN_ACT, 6)] {}).wdt.warned = false) ∧
    (s.wdt.pulse = false ∧ (dog [] { pulse := true }).wdt.pulse = true) := by
  simp only [writes_iff]; decide +kernel

theorem test_meets_KeepCommands :
    let s := fun (regs : List (Nat × Word)) (f : Keep → Keep) => let s := up regs; { s with keep := f s.keep }
    let stat := Reg.KEEP_CMDSTAT + bankKey 0
    let n := s [] id
    let pw : List Byte := [1, 2, 3, 4]
    let word := [(Reg.KEEP_ARG + bankKey 0, (4 : Word)), (Reg.KEEP_PWIN 0 + bankKey 0, 0x04030201)]
    (Writes n .host Reg.KEEP_CMD ∧ n.keep.bp < 4 ∧ ¬ (n.rf stat 2 0 = 1 ∨ n.rf stat 2 0 = 2)) ∧
    (State.bankOf .host = 0 ∧ State.bankOf (.svc 3) = 1 ∧ (s [] fun k => { k with user := some (State.agentNum (.svc 2)) }).keep.user ≠ none ∧
      some (State.agentNum (.svc 2)) ≠ some (State.agentNum (.svc 3)) ∧ Writes n (.svc 3) Reg.KEEP_CMD ∧ n.keep.user = none) ∧
    (Writes (s [(stat, 2)] id) .host Reg.KEEP_CMD ∧ (s [(stat, 2)] id).rf stat 2 0 = 2) ∧
    (¬ (2048 ≤ (2047 : BitVec 15).toNat ∨ (80 ≤ (2047 : BitVec 15).toNat ∧ (2047 : BitVec 15).toNat < 1240 ∧ State.bankOf .host = 2)) ∧
      2048 ≤ (2048 : BitVec 15).toNat ∧ 80 ≤ (1239 : BitVec 15).toNat ∧ (1239 : BitVec 15).toNat < 1240 ∧ State.bankOf .steward = 2 ∧ Writes n .steward Reg.KEEP_CMD) ∧
    ((s [] fun k => { k with rdPw := pw }).keep.rdPw ≠ [] ∧ 0 ∉ (s [] fun k => { k with rdPw := pw }).keep.rdOpen) ∧
    ((s [] fun k => { k with wrPw := pw }).keep.wrPw ≠ [] ∧ 0 ∉ (s [] fun k => { k with wrPw := pw }).keep.wrOpen) ∧
    (∀ b ∈ [(1, 24576), (2, 16384), (3, 2048)], (s [] fun k => { k with bp := b.1 }).keep.wrPw = [] ∧ (s [] fun k => { k with bp := b.1 }).keep.bp = b.1 ∧
      b.2 ≤ (BitVec.ofNat 15 b.2).toNat) ∧ n.keep.bp = 0 ∧
    (let t := s word fun k => { k with rdPw := pw, wrPw := pw, rdFails := 7 }
     Writes t .host Reg.KEEP_CMD ∧ (t.reg (Reg.KEEP_ARG + bankKey 0)).toNat % 32 ≤ 16 ∧ t.keep.rdFails < 8 ∧
       ((List.range 4).flatMap fun i => leBytes 4 (t.reg (Reg.KEEP_PWIN 0 + bankKey 0 + 4 * i)).toNat).take 4 = t.keep.rdPw) ∧
    (let t := s [] fun k => { k with rdPw := pw, rdFails := 7, wrFails := 8 }
     (t.reg (Reg.KEEP_ARG + bankKey 0)).toNat % 32 = 0 ∧ [] ≠ t.keep.rdPw ∧ t.keep.rdFails = 7 ∧ 8 ≤ t.keep.wrFails) := by
  simp only [writes_iff]; decide +kernel

theorem test_meets_KeepArray :
    let s := fun (f : Keep → Keep) => let s := up []; { s with keep := f s.keep }
    let c : Nat → KCmd := fun op => ⟨2, op, 32767, bytes 64, 16, bytes 16⟩
    let fine := fun (s : State) (p : Nat) => p ∉ s.keep.bad ∧ Sparse.get (fun _ => 0) s.keep.progs p < 1000000
    let pip := fun (l : List Byte) => { s (fun k => { k with exec := some ⟨0, 3, 4095, bytes 64, 0, []⟩ }) with mem := cells (Key.keep + 64 * 4095) l }
    ((s id).keep.exec = none ∧ (s id).keep.queue = [] ∧ (s id).domOn 13 = true ∧ (s id).pwr.coreRun = true ∧ (dev [(Reg.PWR_STAT 13, 0)]).domOn 13 = false) ∧
    ((s fun k => { k with queue := [c 1] }).keep.exec = none ∧ (s fun k => { k with queue := [c 1] }).keep.queue = c 1 :: []) ∧
    (∀ op ∈ [1, 2, 9, 10, 11], (s fun k => { k with exec := some (c op) }).keep.exec = some (c op) ∧ (c op).page < 32768 ∧ (c op).bank < 3 ∧ (c op).data.length = 64 ∧
      (c op).op = op ∧ (c op).arg % 32 ≤ 16) ∧
    ((s id).ecc = [] ∧ fine (s id) 32767 ∧ fine (s id) 64 ∧ (1 : Fin 3).val ≠ 2) ∧
    (¬ fine (s fun k => { k with bad := [32767], spares := 1 }) 32767 ∧ (s fun k => { k with bad := [32767], spares := 1 }).keep.spares ≠ 0) ∧
    (s fun k => { k with bad := [32767], spares := 0 }).keep.spares = 0 ∧
    ((pip (List.replicate 64 0xFF)).pipNewest 4095).map (·.val) = some 0xFFFFFF ∧
    ((pip [5, 0, 0, 1]).pipNewest 4095).any (fun x => x.val != 0xFFFFFF) = true ∧ ((pip []).pipNewest 4095).isSome ∧
    (let t := s fun k => { k with rewrite := [32767] }
     t.keep.exec = none ∧ t.keep.queue = [] ∧ (32767 : BitVec 15).toNat ∈ t.keep.rewrite ∧ (0 : BitVec 15).toNat ∉ t.keep.rewrite) := by
  decide +kernel

/-- A device whose calendar shows `t`, `c`, with command `cmd` pending. -/
def clock (t c : Word) (cmd : Nat) (regs : List (Nat × Word)) : State := { up (regs ++ [(Reg.RTC_TIME, t), (Reg.RTC_CAL, c)]) with rtc := ⟨cmd, 0, true, 0⟩ }

theorem test_meets_Calendar :
    let valid := fun (k : Cal) => k.sec < 60 ∧ k.min < 60 ∧ k.hour < 24 ∧ 1 ≤ k.dow ∧ k.dow ≤ 7 ∧ 1 ≤ k.month ∧ k.month ≤ 12 ∧ k.year < 100 ∧ 20 ≤ k.cent ∧ k.cent ≤ 23 ∧
      1 ≤ k.date ∧ k.date ≤ monthDays k.month k.year k.cent
    let s := clock 0x07235959 0x20240229 0 [(Reg.RTC_ALMCTRL, 3), (Reg.RTC_ALM0_TIME, 0x80808080), (Reg.RTC_ALM0_CAL, 0x8080), (Reg.RTC_ALM1_TIME, 0x80808059), (Reg.RTC_ALM1_CAL, 0x8080)]
    (s.mode ≠ Mode.backup ∧ valid s.cal ∧ s.rtc.cmd = 0 ∧ s.cal ≠ ⟨59, 59, 23, s.cal.dow, 31, 12, 99, 23⟩) ∧
    (s.rb Reg.RTC_ALMCTRL 0 = true ∧ s.reg Reg.RTC_ALM0_TIME &&& 0x80808080 = 0x80808080 ∧ s.reg Reg.RTC_ALM0_CAL &&& 0x8080 = 0x8080 ∧
      (s.reg Reg.RTC_ALM1_TIME).toNat % 256 < 0x60 ∧ s.reg Reg.RTC_ALM1_TIME &&& 0x80808000 = 0x80808000 ∧ (s.reg Reg.RTC_ALM1_TIME).toNat % 16 < 10) ∧
    (let t := clock 0x05235959 0x23991231 0 []
     valid t.cal ∧ t.cal = ⟨59, 59, 23, t.cal.dow, 31, 12, 99, 23⟩) ∧
    (let t := clock 0x05215959 0x20240229 1 []
     valid t.cal ∧ t.rtc.cmd = 1 ∧ t.cal.hour < 22) ∧
    (let t := clock 0x05000000 0x20240302 2 []
     valid t.cal ∧ t.rtc.cmd = 2 ∧ t.cal.hour ≠ 23 ∧ 2 ≤ t.cal.date) := by
  decide +kernel

theorem test_meets_CalendarCommands :
    let s := up []
    let set := fun (t c : Word) (regs : List (Nat × Word)) => up (regs ++ [(Reg.RTC_SETTIME, t), (Reg.RTC_SETCAL, c), (Reg.RTC_STAT, 0), (Reg.RTC_ALMCTRL, 0)])
    let digits := fun (s : State) => ∀ f ∈ rtcFields (s.reg Reg.RTC_SETTIME) (s.reg Reg.RTC_SETCAL), bcdOk f = true
    let net := fun (n : Nat) => { clock 0 0 3 [(Reg.TIM_RTCOFS, 0)] with tim := ⟨n, 0, 0, false⟩ }
    (s.rb Reg.RTC_COMPCFG 0 = false ∧ (up [(Reg.RTC_COMPCFG, 1)]).rb Reg.RTC_COMPCFG 0 = true) ∧
    (Writes (up [(Reg.RTC_STAT, 1)]) .host Reg.RTC_CMD ∧ (up [(Reg.RTC_STAT, 1)]).rb Reg.RTC_STAT 0 = true) ∧
    (let t := set 0x07235959 0x23991231 []
     Writes t .host Reg.RTC_CMD ∧ t.rb Reg.RTC_STAT 0 = false ∧ digits t ∧ State.setErr (t.reg Reg.RTC_SETTIME) (t.reg Reg.RTC_SETCAL) = none ∧
       t.rb Reg.RTC_ALMCTRL 0 = false ∧ t.rb Reg.RTC_ALMCTRL 1 = false ∧ t.rb Reg.RTC_STAT 3 = false) ∧
    (let t := set 0x07245959 0x23991231 []
     Writes t .host Reg.RTC_CMD ∧ t.rb Reg.RTC_STAT 0 = false ∧ digits t ∧ State.setErr (t.reg Reg.RTC_SETTIME) (t.reg Reg.RTC_SETCAL) = some 2) ∧
    (up [(Reg.TIM_STAT, 0)]).rb Reg.TIM_STAT 0 = false ∧ s.rtc.cmd ≠ 3 ∧
    (∀ n ∈ [946684800, 13569465599], (net n).rtc.cmd = 3 ∧ (net n).mode ≠ Mode.backup ∧ 946684800 ≤ ((net n).tim.sec : Int) - ((net n).reg Reg.TIM_RTCOFS).toInt ∧
      ((net n).tim.sec : Int) - ((net n).reg Reg.TIM_RTCOFS).toInt < 13569465600) := by
  simp only [writes_iff]; decide +kernel

theorem test_meets_HostLink :
    let s := up []
    let l := up [(Reg.HST_LINK, 0x50)]
    (({ dev [(Reg.PWR_STAT 10, 0)] with rdata := 0 }).domOn 10 = false ∧ s.domOn 10 = true) ∧ (s.rb Reg.HST_LINK 6 = false ∧ l.rb Reg.HST_LINK 6 = true) ∧
    (s.rb Reg.HST_LINK 4 = false ∧ l.rb Reg.HST_LINK 4 = true) ∧
    (Writes s .host Reg.HST_MBX_H2D ∧ Writes s (.svc 3) Reg.HST_MBX_H2D ∧ Writes s .steward Reg.HST_MBX_D2H ∧ Writes s .host Reg.HST_MBX_D2H) ∧
    State.bankOf .host = 0 ∧ State.bankOf (.svc 3) ≠ 0 := by
  simp only [writes_iff]; decide +kernel

/-- The service port enabled, MODE_REQ and DIAG_DUMP allowed, with `regs` over that. -/
def port (regs : List (Nat × Word)) (f : Svc → Svc) : State :=
  let s := up (regs ++ [(Reg.PAGE_CTRL 0x1A, 1), (Reg.SVC_CFG, 3)])
  { s with svc := f s.svc }

theorem test_meets_ServicePort :
    let s := port [] id
    let hears := fun (s : State) => s.domOn 11 = true ∧ s.rb (Reg.PAGE_CTRL 0x1A) 0 = true ∧ s.mode ≠ Mode.backup ∧ s.sys.inReset = false ∧
      (s.mode ≠ Mode.boot ∨ s.bootPhase = 15 ∨ 7 ≤ s.bootPhase)
    (hears s ∧ s.svc.wait = none ∧ s.svc.queued = none ∧ s.svc.last = none ∧ s.upd.cmd = none ∧ s.svc.errSeen = false) ∧ (State.reset.mode = Mode.boot ∧ State.reset.bootPhase < 7) ∧
    (hears (port [] fun v => { v with queued := some (3, 2, [], true) }) ∧ (port [] fun v => { v with queued := some (3, 2, [], true) }).svc.queued ≠ none) ∧
    (let t := port [(Reg.SYS_MODESTAT, 0x10)] fun v => { v with wait := some (3, 0) }
     hears t ∧ t.svc.wait = some (3, 0) ∧ t.rf Reg.SYS_MODESTAT 5 4 = 1 ∧ t.now < 0 + 1200000000) := by
  decide +kernel

theorem test_meets_ServiceCommands :
    let s := port [] id
    let rom := port [inMode Mode.boot, (Reg.SYS_BOOTSTAT, 15)] id
    (port [] fun v => { v with last := some (7, [1]) }).svc.last = some (7, [1]) ∧
    ([] : List Byte).length ≠ 1 ∧ (List.replicate 256 (0 : Byte)).length = 256 ∧
    ({ s with upd := { s.upd with cmd := some ⟨1, 0, 0, 0, []⟩ } } : State).upd.cmd ≠ none ∧
    (rom.mode = Mode.boot ∧ rom.bootPhase = 15 ∧ byteAt [3, 0, 0] 0 = 3) ∧
    ((port [(Reg.SVC_CFG, 0)] id).rb Reg.SVC_CFG 1 = false ∧ s.rb Reg.SVC_CFG 1 = true ∧ byteAt [1, 0, 0] 0 = 1 ∧ ∀ i < 9, Reads s .steward (Reg.WDT_EVID_INFO + 4 * i)) ∧
    ((port [(Reg.SVC_CFG, 0)] id).rb Reg.SVC_CFG 0 = false ∧ s.rb Reg.SVC_CFG 0 = true ∧ s.mode ≠ Mode.boot ∧ byteAt [11] 0 ≤ 11) ∧
    ¬ ((7 : Byte).toNat = 0 ∨ 7 < (7 : Byte).toNat) ∧ 7 < (8 : Byte).toNat := by
  simp only [reads_iff]; decide +kernel

/-- The page of a session record. -/
def sessionPage (ident : List Byte) (target state members npiece last : Nat) : List Byte :=
  let b := ident ++ leBytes 1 target ++ leBytes 1 state ++ leBytes 1 members ++ leBytes 1 npiece ++ leBytes 4 last ++ leBytes 4 0
  b ++ leBytes 4 (strictFold crc32cByte b 0xFFFFFFFF ^^^ 0xFFFFFFFF).toNat

/-- A device with a session of the image `bytes 48` (target Stone) in `state`, `members` and `npiece` pieces, bit map byte `map`. -/
def session (state members npiece map : Nat) (regs : List (Nat × Word)) : State :=
  { port regs id with mem := cells (Key.keep + 64 * 1112) (sessionPage (bytes 48) 1 state members npiece 0) ++ cells (Key.keep + 64 * 1113) [BitVec.ofNat 8 map] }

theorem test_meets_Sessions :
    (∀ q ∈ [(0, 0, 0), (1, 3, 2), (2, 1, 96)], ((session q.1 q.2.1 q.2.2 0 []).sess.state, (session q.1 q.2.1 q.2.2 0 []).sess.members, (session q.1 q.2.1 q.2.2 0 []).sess.npiece) = q) ∧
    (session 1 3 2 0 []).sess.ident = bytes 48 ∧ (session 1 3 2 0 []).sess.ident ≠ bytes 47 ∧ (session 1 3 2 2 []).pieceHere 1 = true ∧ (session 1 3 2 2 []).pieceHere 0 = false ∧
    (port [inMode Mode.boot, (Reg.SYS_BOOTSTAT, 15)] id).sess.state ∉ [1, 2] ∧ (session 1 3 2 0 [inMode Mode.boot, (Reg.SYS_BOOTSTAT, 15)]).sess.target = 1 := by
  simp only [State.sess, crc32c_strict]; decide +kernel

/-- A header of Stone's image with one piece. -/
def drupe : List Byte :=
  let b := [0x44, 0x52, 0x55, 0x50, 1, 0, 1, 0] ++ leBytes 2 64 ++ leBytes 2 1 ++ leBytes 4 4096 ++ List.replicate 60 0 ++ bytes 48 ++ List.replicate 128 0
  b ++ leBytes 4 (strictFold crc32cByte b 0xFFFFFFFF ^^^ 0xFFFFFFFF).toNat

theorem test_meets_UpdateSessions :
    let s := port [] id
    let good := fun (s : State) (f : List Byte) => ofLE (sub f 252 4) = (crc32c (f.take 252)).toNat ∧ f.take 8 = [0x44, 0x52, 0x55, 0x50, 1, 0, f.getD 6 0, f.getD 7 0] ∧
      (f.getD 6 0 = 1 ∨ f.getD 6 0 = 2) ∧ ofLE (sub f 10 2) = (ofLE (sub f 12 4) + 4095) / 4096 ∧ s.keyAccepted (byteAt f 7) = true ∧ byteAt f 8 ≤ 64 ∧
      s.fuseCount ≤ byteAt f 8 ∧ s.runningArb (byteAt f 6) ≤ byteAt f 8
    (s.svc.wait = none ∧ s.svc.queued = none ∧ s.svcHears = true ∧ s.svcRom = false ∧ s.svc.last = none ∧ s.upd.cmd = none) ∧
    (good s drupe ∧ drupe.length = 256 ∧ sub drupe 76 48 = bytes 48) ∧ ¬ good s (drupe.set 252 0) ∧
    (∀ p ∈ [1112, 1113], p ∉ s.keep.bad ∧ Sparse.get (fun _ => 0) s.keep.progs p < 1000000) ∧
    (s.rb Reg.RTC_STAT 3 = true ∧ (session 1 1 2 0 [(Reg.RTC_STAT, 0), (Reg.UPD_IDLE_LIM, 0xFFFF)]).rb Reg.RTC_STAT 3 = false ∧
      (session 1 1 2 0 [(Reg.UPD_IDLE_LIM, 0xFFFF)]).rtcSecs - 0 ≤ (session 1 1 2 0 [(Reg.UPD_IDLE_LIM, 0xFFFF)]).rf Reg.UPD_IDLE_LIM 15 0 * 3600) := by
  simp only [crc32c_strict]; decide +kernel

/-- PIECE 1 from the service port with 4,096 bytes and their CRC. -/
theorem test_meets_Piece (data : List Byte) (h : data.length = 4096) : let f := leBytes 2 1 ++ leBytes 4 (crc32c data).toNat ++ data
    f.length = 4102 ∧ ofLE (sub f 2 4) = (crc32c (f.drop 6)).toNat ∧ ofLE (sub f 0 2) = 1 := by
  have := (crc32c data).isLt
  refine ⟨by simp [leBytes, h], ?_, rfl⟩
  simp [leBytes, sub, ofLE]
  omega

theorem delivery_with_cmd (s : State) (c : Option HCmd) : ({ s with upd := { s.upd with cmd := c } } : State).delivery = s.delivery := by
  simp only [State.delivery, State.sramRd, State.rf, State.reg, State.rd]

/-- A host command whose data still stand in the delivery area: with `port [] id` for `s`, the device of the tests above. -/
theorem test_meets_HostCommand (op : Nat) (s : State) (h : s.svc.wait = none ∧ s.svc.queued = none) : ∃ t c, t.svc.wait = none ∧ t.svc.queued = none ∧
    t.upd.cmd = some c ∧ c.data = State.delivery t ∧ c.key = 0x6B ∧ c.op = op := by
  obtain ⟨d, hd⟩ : ∃ d, s.delivery = d := ⟨_, rfl⟩
  exact ⟨{ s with upd := { s.upd with cmd := some ⟨op, 1, 0, 0x6B, d⟩ } }, ⟨op, 1, 0, 0x6B, d⟩, h.1, h.2, rfl, hd.symm.trans (delivery_with_cmd s _).symm, rfl, rfl⟩

theorem test_meets_FlashOperations :
    let guard := [(Reg.QSP_GUARD_LO, (0x1000 : Word)), (Reg.QSP_GUARD_HI, 0x30000)]
    let s := fun (regs : List (Nat × Word)) => up (regs ++ guard)
    let at' := fun (a n : Nat) => [(Reg.QSP_ADDR + bankKey 0, BitVec.ofNat 32 a), (Reg.QSP_LEN + bankKey 0, BitVec.ofNat 32 n)]
    let addr := fun (s : State) => s.rf (Reg.QSP_ADDR + bankKey 0) 26 0
    let len := fun (s : State) => s.rf (Reg.QSP_LEN + bankKey 0) 16 0
    let inside := fun (s : State) (n : Nat) => s.rf Reg.QSP_GUARD_LO 26 0 ≤ addr s ∧ addr s + n ≤ s.rf Reg.QSP_GUARD_HI 26 0
    let run := fun (o : QOp) (m : List (Nat × Byte)) => { up [] with upd := { State.reset.upd with qsp := [(2, o)] }, mem := m }
    let full := cells Key.sram (bytes 16) ++ cells (Key.flash + 0x1000) (List.replicate 16 0xFF)
    (let t := s ([(Reg.QSP_STAT + bankKey 0, 0x21)])
     Writes t .host Reg.QSP_CMD ∧ (t.reg (Reg.QSP_STAT + bankKey 0)).toNat % 4 = 1) ∧
    (let t := s (at' 0 65536)
     Writes t .host Reg.QSP_CMD ∧ ¬ (t.reg (Reg.QSP_STAT + bankKey 0)).toNat % 4 = 1 ∧ 1 ≤ len t ∧ len t ≤ 65536 ∧ ¬ inside t (len t)) ∧
    (inside (s (at' 0x1001 16)) 4096 ∧ addr (s (at' 0x1001 16)) % 4096 ≠ 0) ∧ (inside (s (at' 0x1000 16)) 16 ∧ addr (s (at' 0x1000 16)) % 4096 = 0 ∧ 1 ≤ len (s (at' 0x1000 16))) ∧
    (∀ e ∈ (up []).upd.qsp, e.1 ≠ 2) ∧
    (∀ op ∈ [1, 2, 3, 4], let t := run ⟨op, 0x1000, 16, 0, false⟩ full
      t.upd.qsp.find? (fun e => e.1 == 2) = some (2, ⟨op, 0x1000, 16, 0, false⟩) ∧ 0 + 16 ≤ 0x100000 ∧
        ∀ i < 16, t.rd (Key.flash + (0x1000 + i)) &&& t.rd (Key.sram + 0 + i) = t.rd (Key.sram + 0 + i)) ∧
    (let t := run ⟨2, 0x1000, 16, 0, false⟩ (cells Key.sram (bytes 16))
     0 < 16 ∧ t.rd (Key.flash + 0x1000) &&& t.rd Key.sram = t.rd Key.sram ∨ t.rd (Key.flash + 0x1000) &&& t.rd Key.sram ≠ t.rd Key.sram) := by
  simp only [writes_iff]; decide +kernel

theorem test_meets_FlashReadBack :
    let t := { up [] with upd := { State.reset.upd with qsp := [(2, ⟨2, 0x1000, 2, 0, false⟩)] }, mem := [(Key.sram, 1), (Key.sram + 1, 3), (Key.flash + 0x1000, 1), (Key.flash + 0x1001, 1)] }
    1 < 2 ∧ (∀ i < 1, t.rd (Key.flash + (0x1000 + i)) &&& t.rd (Key.sram + 0 + i) = t.rd (Key.sram + 0 + i)) ∧
    t.rd (Key.flash + (0x1000 + 1)) &&& t.rd (Key.sram + 0 + 1) ≠ t.rd (Key.sram + 0 + 1) := by
  decide +kernel

theorem test_meets_KeysAndFuses :
    let s := up []
    let cmd := { s with upd := { s.upd with cmd := some ⟨1, 0, 0, 0, []⟩ } }
    let v : Word := 0x6B000F01
    (Writes s .host Reg.UPD_HCMD ∧ s.upd.cmd = none ∧ Writes cmd .host Reg.UPD_HCMD ∧ cmd.upd.cmd ≠ none) ∧
    (fld 0x006B0F04 7 4 = 0 ∧ fld 0x006B0F04 15 12 = 0 ∧ fld 0x006B0F04 31 24 = 0) ∧
    (min (s.rf Reg.UPD_ARB 14 8) (s.rf Reg.UPD_ARB 22 16) ≤ s.fuseCount) ∧
    (let t := up [(Reg.UPD_ARB, 0x00404000)]
     t.fuseCount < min (t.rf Reg.UPD_ARB 14 8) (t.rf Reg.UPD_ARB 22 16)) ∧
    (Writes s .steward Reg.UPD_KEYCMD ∧ Writes s .steward Reg.UPD_XCMD) ∧
    (let t := up [(Reg.UPD_XADDR, 0xFF000), (Reg.UPD_XLEN, 0x1000)]
     Writes t .steward Reg.UPD_XCMD ∧ t.rf Reg.UPD_XADDR 19 0 + t.rf Reg.UPD_XLEN 12 0 ≤ 0x100000 ∧ t.rf Reg.UPD_XLEN 12 0 % 16 = 0 ∧
       ({ t with upd := { t.upd with key := some 5 } } : State).upd.key = some 5) ∧
    (Writes s .steward Reg.UPD_EVTSET ∧ (15 : Word).toNat < 16) ∧
    (Writes s .steward Reg.FUS_CMD ∧ fld (0 : Word) 31 24 ≠ 0x6B ∧ fld v 31 24 = 0x6B ∧ s.upd.fuse = none ∧ fld v 7 4 = 0 ∧ fld v 23 12 = 0) ∧
    ({ s with upd := { s.upd with fuse := some (1, 63) } } : State).upd.fuse = some (1, 63) := by
  simp only [writes_iff]; decide +kernel

theorem test_meets_Scrubbing :
    let s := up [(Reg.BGD_CTRL, 0x7F), (Reg.SCN_POISONPOL, 0)]
    let runs := fun (s : State) (i k : Nat) => s.rb Reg.BGD_CTRL i = true ∧ s.mode ≠ Mode.backup ∧ s.mode ≠ Mode.boot ∧ s.pwr.coreRun = true ∧ s.scrubTaken i = false ∧
      ((scrubAt i k).all fun a => s.domOn a.dom) = true
    (∀ q ∈ [(0, Key.instr 0 0 0), (1, Key.scratch 0), (2, Key.pantry), (3, Key.input), (4, Key.cells), (5, Key.keep)], runs s q.1 q.2) ∧
    ¬ runs (up [(Reg.BGD_CTRL, 0)]) 0 (Key.instr 0 0 0) ∧ (scrubAt 2 Key.pantry).any (fun a => s.domOn a.dom) = true ∧ scrubAt 0 (Key.instr 73 0 0) = none ∧
    (∀ q ∈ [(0, Key.instr 0 0 0), (1, Key.scratch 0), (2, Key.pantry), (3, Key.input), (4, Key.cells), (5, Key.keep)], (scrubAt q.1 q.2).isSome ∧ scrubLast q.1 q.2 = false ∧ s.eccMark q.2 = 0) ∧
    (∀ q ∈ [(0, Key.instr 72 0 0x7FFF), (1, regFileKey 72 0), (2, Key.pantry + 0x3FFFFC), (3, Key.publish + 0x3FFC), (4, Key.cells + 0x7FFC)], (scrubAt q.1 q.2).isSome ∧ scrubLast q.1 q.2 = true) ∧
    (scrubAt 0 (Key.instr 67 1 5) = some (.instr 67 1 5) ∧ scrubAt 0 (Key.instr 71 0 9) = some (.instr 71 0 9)) ∧
    ((scrubAt 1 (Key.scratch 67), scrubAt 1 (Key.scratch 68), scrubAt 1 (regFileKey 67 0)) = (some (.scratch 67 0), some (.scratch 68 0), some (.regs 67))) ∧
    (scrubAt 4 Key.cells = some .cell ∧ scrubAt 3 Key.input = some .shared ∧ scrubAt 2 Key.pantry = some .shared ∧ s.rb Reg.SCN_POISONPOL 0 = false) ∧
    (scrubAt 5 (Key.keep + 64 * 5) = some (.keep 5) ∧ Sparse.wf (fun _ => 0) s.ecc = true ∧ (∀ g < 16, s.eccMark (Key.keep + 64 * 5 + 4 * g) = 0) ∧ 5 ∉ s.keep.bad) ∧
    (s.eccMark Key.pantry ≠ 1 ∧ ({ s with ecc := [(Key.pantry, 1)] } : State).eccMark Key.pantry = 1) := by
  decide +kernel

theorem test_meets_ScrubPass : let s := up [(Reg.BGD_CTRL, 0x7F)]
    s.ueCount = Sparse.get (fun _ => 0) s.bgd.ue 4 ∧ ({ s with bgd := { s.bgd with ue := [(4, 1)] } } : State).ueCount ≠ 1 := by
  decide +kernel

theorem test_meets_CalibrationAndTelemetry :
    let s := up ([(Reg.BGD_CTRL, 0xFF), (Reg.RND_CHEN, 0x80000000), (Reg.TIM_STAT, 0), (Reg.TLM_TWARN, 0x1A4), (Reg.TLM_TCRIT, 0x1CC)] ++ en 0x15)
    let temp := fun (n : Nat) => ((BitVec.ofNat 10 n).toInt : Int)
    (up []).rb (Reg.PAGE_CTRL 0x15) 0 = false ∧
    (s.rb (Reg.PAGE_CTRL 0x15) 0 = true ∧ s.rb Reg.BGD_CTRL 6 = true ∧ 31 < 32 ∧ (∀ j < 31, s.rb Reg.RND_CHEN ((s.bgd.cal + j) % 32) = false) ∧
      s.rb Reg.RND_CHEN ((s.bgd.cal + 31) % 32) = true) ∧
    (s.rb Reg.BGD_CTRL 7 = true ∧ s.rb Reg.TIM_STAT 0 = false ∧ s.bgd.voided = false ∧ s.pwr.coreRun = true) ∧ (up [(Reg.TIM_STAT, 1)]).rb Reg.TIM_STAT 0 = true ∧
    (temp (s.rf Reg.TLM_TWARN 9 0) ≤ temp (s.rf Reg.TLM_TCRIT 9 0) ∧ s.rf Reg.TLM_VWIN 7 0 ≤ 100) ∧
    (Writes s .host Reg.TLM_LCLR ∧ Sparse.wf (fun _ => {}) s.cores = true) := by
  simp only [writes_iff]; decide +kernel

theorem test_meets_IdleTick :
    let s := up []
    let a := { up [(Reg.SYS_MODESTAT, 0x10)] with svc := { State.reset.svc with wait := some (3, 0) }, now := 1200000000 - 32 }
    (s.pending = [] ∧ ∀ c : Core, (s.core c).stop = none ∧ (s.canIssue c = false ∨ (decodeLimlis c (s.wordAt c)).isSome)) ∧ s.domOn 9 = true ∧ (dev [(Reg.PWR_STAT 9, 0)]).domOn 9 = false ∧
    ((lane0 id).canIssue 0 = true ∧ ((lane0 id).core 0).stop = none ∧ (decodeLimlis 0 ((lane0 id).wordAt 0)).isSome) ∧
    (let d := dog [] {}
     d.rb Reg.WDT_STAT 0 = true ∧ d.pwr.coreRun = true ∧ (d.core 72).dbgHalt = false) ∧
    ({ s with rind := { s.rind with flt := true } } : State).rind.flt = true ∧ s.rb Reg.RND_STAT 0 = false ∧ s.svc.wait = none ∧
    (a.svc.wait = some (3, 0) ∧ 0 + 1200000000 ≤ a.now + 32) := by
  decide +kernel

theorem test_meets_InvariantKept : Machine.Inv State.reset ∧ Machine.Inv (dev [(Reg.SYS_CFGSWAP, 2)]) := by
  unfold Machine.Inv; decide +kernel

/-! ## What `Instr.wf` refuses -/

/-- 1,501 bytes, more than a frame holds. -/
def tooLong : List Byte := List.replicate 1501 0

theorem test_wf_sizes : (Instr.lowPartLatch .host 0x01000000 ⟨0, false⟩).wf = false ∧ (Instr.lowPartLatch .host 0x01000000 ⟨9, false⟩).wf = false ∧
    (Instr.registerWrite .host 0x01000000 ⟨0, false⟩ 0).wf = false ∧ (Instr.registerWrite .host 0x01000000 ⟨9, false⟩ 0).wf = false ∧ (Instr.rstNLow 0).wf = false ∧
    (Instr.repImm 0 33).wf = false ∧ (Instr.updateDone 1601).wf = false ∧ (Instr.takeInPulse 0).wf = false := by decide +kernel

theorem test_wf_numbers : (Instr.heldRequestStart 15).wf = false ∧ (Instr.heldRequestStart 137).wf = false ∧ (Instr.enableDone 232).wf = false ∧
    (Instr.arbiterDecision 4 [] false).wf = false ∧ (Instr.arbiterDecision 0x31 [] false).wf = false ∧ (Instr.arbiterDecision 0 [1, 1] false).wf = false ∧
    (Instr.laneFault 0 0).wf = false ∧ (Instr.laneFault 0 7).wf = false ∧ (Instr.linkChange 0 true 3).wf = false ∧ (Instr.pcieLinkUp 0 1).wf = false ∧
    (Instr.pcieLinkUp 1 3).wf = false ∧ (Instr.unknownCmd 0 1).wf = false ∧ (Instr.unknownCmd 0 7).wf = false ∧ (Instr.qspDone 0 1).wf = false ∧
    (Instr.scrubRead 0 0 true true).wf = false ∧ (Instr.canRxError 0 0 false).wf = false ∧ (Instr.canRxError 0 7 false).wf = false ∧
    (Instr.canTxEnd 0 (.error 0 false) 0).wf = false ∧ (Instr.canTxEnd 0 (.error 7 false) 0).wf = false := by decide +kernel

theorem test_wf_frames : ∀ i ∈ [Instr.inFrameRx .a tooLong true, .helloRx .a tooLong, .diagRx .a tooLong, .partnerOutRx .a tooLong, .outFrameRx .a tooLong, .schedRx .a tooLong,
    .safeFrameRx .a tooLong, .releaseRx .a tooLong, .confRx .a tooLong, .takeRx .a tooLong], i.wf = false := by decide +kernel

theorem test_wf_buffers : (Instr.ethRxFrame 0 (List.replicate 2049 0) true).wf = false ∧
    ∀ i ∈ [Instr.updOpen 0 (List.replicate 4161 0) true, .updPiece 0 (List.replicate 4161 0) true, .diagDump 0 (List.replicate 4161 0), .modeReq 0 (List.replicate 4161 0)], i.wf = false := by
  decide +kernel

theorem test_wf_can : (Instr.canRxFrame 0 ⟨false, 0, false, false, false, false, 8, List.replicate 7 0⟩ 0).wf = false ∧
    (Instr.canRxFrame 0 ⟨false, 0, true, true, false, false, 0, []⟩ 0).wf = false ∧ (Instr.canRxFrame 0 ⟨false, 0, false, true, true, false, 9, List.replicate 12 0⟩ 0).wf = true := by
  decide +kernel

theorem test_wf_telemetry : (Instr.telemetrySample [0, 0, 0] [0, 0, 0, 0, 0, 0]).wf = false ∧ (Instr.telemetrySample [0, 0, 0, 0] [0]).wf = false ∧
    (Instr.telemetrySample [0, 0, 0, 0] [0, 0, 0, 0, 0, 0]).wf = true := by decide +kernel

/-! ## Single steps, expected values by hand from the rule named -/

/-- `i` at `s` answers a next state of which `f` holds. -/
def after (i : Instr) (s : State) (f : State → Bool) : Bool :=
  match exec i s with
  | .next t => f t
  | _ => false

/-- The check string of the CRCs. -/
def digits : List Byte := [0x31, 0x32, 0x33, 0x34, 0x35, 0x36, 0x37, 0x38, 0x39]

/-- 10 R323. -/
theorem test_crc32c : crc32c digits = 0xE3069283 := by decide +kernel
/-- 09 R294. -/
theorem test_crc64 : crc64 digits = 0x6C40DF5F0B497347 := by decide +kernel
/-- 18 R551. -/
theorem test_crc16 : crc16 digits = 0x29B1 := by decide +kernel

/-- Lane 0 with G1 = `a` and G2 = `b`. -/
def operands (a b : Byte) : State := lane0 fun x => { x with g := [(1, a), (2, b)] }

/-- 05 R181. -/
theorem test_add_wraps : after (.add 0 3 1 2) (operands 0xFF 1) (fun t => (t.cx 0).reg 3 == 0 && (t.cx 0).fc && (t.cx 0).fz && !(t.cx 0).fv) = true := by decide +kernel
/-- 05 R181: the source is the destination. -/
theorem test_sub_borrow : after (.sub 0 1 1 2) (operands 0 1) (fun t => (t.cx 0).reg 1 == 0xFF && !(t.cx 0).fc && (t.cx 0).fn) = true := by decide +kernel
/-- 05 R182: a count of 9. -/
theorem test_shl_beyond : after (.shl 0 3 1 2) (operands 0xFF 9) (fun t => (t.cx 0).reg 3 == 0 && !(t.cx 0).fc) = true := by decide +kernel
/-- 05 R182: a count of 9 of a negative byte. -/
theorem test_asr_beyond : after (.asr 0 3 1 2) (operands 0x80 9) (fun t => (t.cx 0).reg 3 == 0xFF && (t.cx 0).fc) = true := by decide +kernel
/-- 05 R182: a rotation by 9 is one by 1. -/
theorem test_rol_nine : after (.rol 0 3 1 2) (operands 0x81 9) (fun t => (t.cx 0).reg 3 == 3 && (t.cx 0).fc) = true := by decide +kernel
/-- 05 R184: division by zero sets D and V. -/
theorem test_divu_zero : after (.divu 0 4 1 2) (operands 7 0) (fun t => (t.cx 0).flights.map (fun f => (f.left, f.val)) == [(2, 255), (2, 7), (2, 0), (2, 0)]) = true := by decide +kernel
/-- 05 R189: G31:G30 takes the address after the slot. -/
theorem test_call_link : after (.call 0 0x1234) (lane0 id) (fun t => (t.cx 0).reg 30 == 102 && (t.cx 0).reg 31 == 0 && (t.cx 0).pc == 101 && (t.cx 0).slot == .taken 0x1234) = true := by
  decide +kernel
/-- 04 R130: a push at depth 8 sets OVF. -/
theorem test_pshk_full : after (.pshk 0) (lane0 fun x => { x with depth := 8, fk := true }) (fun t => (t.cx 0).depth == 8 && (t.cx 0).ovf) = true := by decide +kernel
/-- 02 R56: the host cannot write OWNER. -/
theorem test_owner_host : after (.ownerWrite .host 5 0) (up []) (fun t => t.reg (Reg.OWNER 5) == 0x3F && t.rb (Reg.PAGE_STAT 5) 3) = true := by decide +kernel
/-- 17 R525: 29 February 2024 is followed by 1 March, and so is 28 February 2100. -/
theorem test_leap_day : after .rtcSecondTick (clock 0x05235959 0x20240229 0 []) (fun t => t.reg Reg.RTC_TIME == 0x06000000 && t.reg Reg.RTC_CAL == 0x20240301) = true := by
  decide +kernel
theorem test_no_leap_day : after .rtcSecondTick (clock 0x07235959 0x21000228 0 []) (fun t => t.reg Reg.RTC_CAL == 0x21000301) = true := by decide +kernel
/-- 15 R484: a wrong key expires the watchdog. -/
theorem test_wrong_key : after (.wdtService .steward 0) (dog [] { window := true }) (fun t => t.sys.inReset && t.rb Reg.SYS_RESETCAUSE 2) = true := by decide +kernel
/-- 12 R391: one tick adds 8 ns. -/
theorem test_tick : (match step { up [(Reg.TIM_RATE, 0)] with tim := ⟨5, 999999996, 0, false⟩ } with | .next t => t.tim == ⟨6, 4, 0, false⟩ | _ => false) = true := by decide +kernel
/-! ## Instruction words written out from the spec (04 R147; 05 R161–R189) -/

/-- The encoding examples of chapter 05, read and written. -/
theorem test_words_examples : ∀ q ∈ [((0x108205 : BitVec 24), Instr.ld 0 4 1 5), (0x14C440, .st 0 6 2 0x40), (0x200805, .ldk 0 0 1 5), (0x2E0800, .andkn 0 4 1 0),
    (0x3C0805, .stk 0 0 1 5), (0x4C1101, .rise 0 0 2 0x101), (0x60E741, .adc 0 7 7 8), (0x8068A0, .ldi 0 3 0x45), (0xC0C1DA, .br 0 3 474), (0xC0BFFA, .br 0 2 (-6))],
    decodeLimlis 0 q.1 = some q.2 ∧ encodeLimlis q.2 = some q.1 := by decide +kernel

/-- Opcode, sub or fn and fields written out by hand, one word of every other family: HALT, REP #32, MOVT IMS (R163), NOTK (R180), CMP (R181), NEG (R181), DIVS (R183),
MOVW (R185), KTO (R186), BRF (R188), JMP and CALL (R189). -/
theorem test_words_families : ∀ q ∈ [((0 : BitVec 24), Instr.halt 0), (0b000000_0010_00000000_100000, .repImm 0 32), (0b000000_1001_01010_00000110_0, .movt 0 6 10),
    (0b000001_0101_00000000000000, .notk 0), (0b011000_00000_00011_00100_111, .cmp 0 3 4), (0b011001_00101_00110_00000_111, .neg 0 5 6),
    (0b011010_00010_00100_00110_011, .divs 0 2 4 6), (0b011011_00010_00100_00000_011, .movw 0 2 4), (0b100000_00001_00000_111_10010, .kto 0 1 7),
    (0b110001_0010_11111111111111, .brf 0 2 (-1)), (0b110010_0000_10000000000001, .jmp 0 0x2001), (0b110011_0000_00000000000111, .call 0 7)],
    decodeLimlis 0 q.1 = some q.2 ∧ encodeLimlis q.2 = some q.1 := by decide +kernel

/-- Reserved operand bits at 1, unassigned fn, sub and opcodes (04 R160; 05 R161, R163, R180, R181, R189): no instruction. -/
theorem test_words_unassigned : [(0x000001 : BitVec 24), 0b000000_1101_00000000000000, 0b000001_1000_00000000000000, 0b011000_00001_00011_00100_111,
    0b011010_00010_00100_00110_100, 0b100000_00001_00001_111_10010, 0b100000_00001_00000000_10011, 0b110010_0001_00000000000001, 0xFC0000, 0x080000].all
    (fun w => (decodeLimlis 0 w).isNone) = true := by decide +kernel

/-! ## Rules of one step -/

/-- 04 R157: an access to another group ends the own lock before it waits for the group another lane holds. -/
theorem test_crossed_locks :
    let s := lane0 fun x => { x with g := [(3, 0x80)], lock := some ⟨2, 5, some 1⟩ }
    let t := { s with arbs := [(0x20, { owner := some 3 }), (0x21, { owner := some 0 })] }
    after (.ld 0 4 1 0) t (fun u => (u.arb 0x21).owner == none && (u.arb 0x20).owner == some 3 && (u.cx 0).pc == 100) = true := by decide +kernel
/-- 02 R68: a 1 written to EVT_PEND clears its EVT_RAW bit whatever EVT_MASK holds. -/
theorem test_pend_masked : after (.evtPendClear .host 0 1) (up [(Reg.EVT_RAW 0, 3), (Reg.EVT_MASK 0, 0)]) (fun t => t.reg (Reg.EVT_RAW 0) == 2) = true := by decide +kernel
/-- 02 R58, R71: EVT_ROUTE takes a write in its shadow window. -/
theorem test_route_shadow : after (.registerWrite .host (BitVec.ofNat 32 (Reg.page 0x03 + 0x500)) ⟨4, false⟩ 0x1F) (up [])
    (fun t => (t.reg (Reg.page 0x03 + 0x500)).toNat % 32 == 0x1F) = true := by decide +kernel
/-- 21 R621: the edge counted next is at least 16 ns behind the one before. -/
theorem test_tci_filter :
    let s := up (en 0x0F ++ [(Reg.TCI_CFG 3, 7)])
    after (.tciEdge 3 true) s (fun t => after (.tciEdge 3 true) { t with now := t.now + 32 } (fun u => (u.tciFifo 3).length == 1) &&
      after (.tciEdge 3 true) { t with now := t.now + 64 } (fun u => (u.tciFifo 3).length == 2)) = true := by decide +kernel
/-- 07 R252: a load waits while the merge uses the banks. -/
theorem test_load_waits_for_merge :
    let s := lane0 fun x => { x with g := [(3, 0x40)] }
    after (.ld 0 4 1 0) (s.setReg Reg.IMG_STAT 1) (fun t => (t.cx 0).pc == 100) = true ∧ after (.ld 0 4 1 0) s (fun t => (t.cx 0).pc == 101) = true := by decide +kernel
/-- 03 R120: a refused request leaves PWR_REQd as it was. -/
theorem test_refused_domain : after (.domainRequest .host 13 1) (up [(Reg.PWR_REQ 13, 2)]) (fun t => t.reg (Reg.PWR_REQ 13) == 2 && t.rb (Reg.PAGE_STAT 1) 3) = true := by decide +kernel
/-- 06 R233: SCN_HOLDCMD outside HOLD sets WIGN. -/
theorem test_holdcmd_outside : after (.registerWrite .host (BitVec.ofNat 32 Reg.SCN_HOLDCMD) ⟨4, false⟩ 0) (up []) (fun t => t.rb (Reg.PAGE_STAT 4) 3) = true := by decide +kernel
/-- No row of the table has bits. -/
theorem test_no_bits : decodeTableWord 16 0 = none ∧ ((up []).withFetchWord 16 0).pending = [] := by decide +kernel

end Sys2Proof.Tests
end

section
/-! PROOF. The configuration swap and copy (02 R58–R63, R66): GO and COPY, the exchange of the shadow sets, the end of the copy, the map check. -/

-- one declaration at a time: many at once take a thread and its stack each
set_option Elab.async false

namespace Sys2Proof.Machine

/-! ## Sparse maps whose keys are moved -/

namespace Sparse
variable {α : Type}

theorem get_congr_default {d d' : Nat → α} {k : Nat} (h : d k = d' k) (l : List (Nat × α)) : get d l k = get d' l k := by
  induction l with
  | nil => exact h
  | cons e t ih => simp only [get, ih]

theorem get_of_not_mem (d : Nat → α) {l : List (Nat × α)} {k : Nat} (h : k ∉ l.map Prod.fst) : get d l k = d k := by
  induction l with
  | nil => rfl
  | cons e t ih =>
    simp only [List.map_cons, List.mem_cons, not_or] at h
    simp only [get, if_neg (Ne.symm h.1), ih h.2]

/-- Entries whose keys an injective map moves are found under the moved key. -/
theorem get_map_key {f : Nat → Nat} (hf : Function.Injective f) (d : Nat → α) (l : List (Nat × α)) (k : Nat) :
    get d (l.map fun e => (f e.1, e.2)) (f k) = get (fun i => d (f i)) l k := by
  induction l with
  | nil => rfl
  | cons e t ih => simp only [List.map_cons, get, hf.eq_iff, ih]

/-- Entries with different keys, inserted in turn, are read before what the list held. -/
theorem get_insertAll [DecidableEq α] (d : Nat → α) {es : List (Nat × α)} (h : (es.map Prod.fst).Nodup) (l : List (Nat × α)) (k : Nat) :
    get d (insertAll d es l) k = get (fun i => get d l i) es k := by
  induction es generalizing l with
  | nil => rfl
  | cons e t ih =>
    obtain ⟨i, v⟩ := e
    obtain ⟨hi, ht⟩ := List.nodup_cons.mp h
    simp only [insertAll, ih ht, get]
    by_cases hk : i = k
    · subst hk; rw [if_pos rfl, get_of_not_mem _ hi, get_set_same]
    · rw [if_neg hk]; exact get_congr_default (get_set_ne d l v (Ne.symm hk)) t

/-- The keys of a canonical list are different. -/
theorem nodup_keys [DecidableEq α] {d : Nat → α} {l : List (Nat × α)} (h : wf d l = true) : (l.map Prod.fst).Nodup :=
  ((wf_iff d l).mp h).1.imp Nat.ne_of_lt

end Sparse

/-! ## Fields of registers after a write -/

namespace State
variable (s : State)

theorem rf_setRf_same (k lo v : Nat) {hi : Nat} (h : hi < 32) : (s.setRf k hi lo v).rf k hi lo = v % 2 ^ (hi + 1 - lo) := by
  unfold rf; rw [reg_setRf, if_pos rfl, fld_setFld _ _ _ _ h]

theorem rf_setRf_disjoint (k v j : Nat) {hi lo a b : Nat} (h : a < lo ∨ hi < b) : (s.setRf k hi lo v).rf j a b = s.rf j a b := by
  unfold rf; rw [reg_setRf]; split
  · next e => rw [fld_setFld_ne _ _ _ _ _ _ h, e]
  · rfl

theorem rb_setRb_same (k : Nat) {i : Nat} (b : Bool) (h : i < 32) : (s.setRb k i b).rb k i = b := by
  unfold rb setRb; rw [rf_setRf_same s k i _ h]; cases b <;> simp [bn]

theorem rb_setRf_disjoint (k v j : Nat) {hi lo i : Nat} (h : i < lo ∨ hi < i) : (s.setRf k hi lo v).rb j i = s.rb j i := by
  unfold rb; rw [rf_setRf_disjoint s k v j h]

theorem rb_setRb_disjoint (k j : Nat) {i n : Nat} (b : Bool) (h : i ≠ n) : (s.setRb k n b).rb j i = s.rb j i :=
  rb_setRf_disjoint s k _ j (by omega)

theorem rb_wign (p : Nat) : (s.wign p).rb (Reg.PAGE_STAT p) 3 = true := rb_setRb_same s _ _ (by decide)

@[simp] theorem modeIn_iff (l : List Nat) : s.modeIn l = true ↔ s.mode ∈ l := by unfold modeIn; exact List.contains_iff_mem

end State

theorem Only.rb {s t : State} {R : List Nat} (h : Only s t R) {k : Nat} (i : Nat) (hR : k ∉ R) (hl : k ∉ lossCounters) : t.rb k i = s.rb k i := by
  unfold State.rb State.rf; rw [h.regs k hR hl]

theorem Only.mem {s t : State} {R : List Nat} (h : Only s t R) : t.mem = s.mem := by rw [h.eq]

theorem Did.mem {s t : State} {R : List Nat} (h : Did s t R) : t.mem = s.mem := by rw [h.eq]

/-! ## GO and COPY (02 R60, R62, R63) -/

namespace State
variable {s : State} {ag : Agent}

/-- A swap is pending, a copy runs, or a Graft does (02 R63; 09 R295). -/
def SwapBusy (s : State) : Prop := s.rb Reg.SYS_CFGSWAP 1 ∨ s.rb Reg.SYS_CFGSWAP 3 ∨ s.rf Reg.GRF_STAT 2 0 ≠ 0
/-- The device is a standby that follows or joins an active. -/
def Follows (s : State) : Prop := s.mode = Mode.syncing ∨ s.mode = Mode.tracking

theorem swapBusy_iff : (s.swapPend || s.copyBusy || s.grafting) = true ↔ s.SwapBusy := by
  simp only [SwapBusy, swapPend, copyBusy, grafting, Bool.or_eq_true, bne_iff_ne, or_assoc]

theorem follows_iff : s.modeIn [Mode.syncing, Mode.tracking] = true ↔ s.Follows := by
  simp only [modeIn_iff, Follows, List.mem_cons, List.not_mem_nil, or_false]

theorem swapGo_guard_iff : (s.modeIn [Mode.syncing, Mode.tracking] || s.swapPend || s.copyBusy || s.grafting) = true ↔ s.SwapBusy ∨ s.Follows := by
  rw [Bool.or_assoc, Bool.or_assoc, Bool.or_eq_true, ← Bool.or_assoc, swapBusy_iff, follows_iff, or_comm]

theorem swapAtBoundary_iff : s.swapAtBoundary = true ↔ s.mode ∈ [Mode.run, Mode.hold, Mode.stnRun, Mode.stnSafe] := by
  unfold swapAtBoundary
  rw [modeIn_iff]
  simp only [List.mem_cons, List.not_mem_nil, or_false]
  omega

theorem not_follows_of_boundary (h : s.mode ∈ [Mode.run, Mode.hold, Mode.stnRun, Mode.stnSafe]) : ¬ s.Follows := by
  unfold Follows
  intro hf
  rcases hf with hf | hf <;> rw [hf] at h <;> exact absurd h (by decide)

theorem swapGo_of_busy (h : s.SwapBusy ∨ s.Follows) : s.swapGo = s.wign 0 := if_pos (swapGo_guard_iff.mpr h)

theorem swapGo_of_bad_map (hb : ¬ s.SwapBusy) (hm : s.mode ∈ [Mode.run, Mode.hold, Mode.stnRun, Mode.stnSafe]) (he : s.mapErr true ≠ 0) :
    s.swapGo = (s.wign 0).raise 27 (s.mapErr true) := by
  unfold swapGo
  rw [if_neg (fun h => (swapGo_guard_iff.mp h).elim hb (not_follows_of_boundary hm)), if_pos]
  rw [swapAtBoundary_iff.mpr hm, Bool.true_and]
  exact bne_iff_ne.mpr he

theorem swapGo_of_good_map (hb : ¬ s.SwapBusy) (hf : ¬ s.Follows)
    (hm : s.mode ∈ [Mode.run, Mode.hold, Mode.stnRun, Mode.stnSafe] → s.mapErr true = 0) :
    s.swapGo = ({ s with grf := { s.grf with goHold := s.grf.swapped } }.setRb Reg.SYS_CFGSWAP 1 true).setRb Reg.SYS_CFGSWAP 0 true := by
  have hgood : ¬ (s.swapAtBoundary && s.mapErr true != 0) = true := by
    rw [Bool.and_eq_true, swapAtBoundary_iff, bne_iff_ne]
    exact fun h => h.2 (hm h.1)
  unfold swapGo
  rw [if_neg (fun h => (swapGo_guard_iff.mp h).elim hb hf)]
  exact if_neg hgood

theorem swapCopy_of_busy (h : s.SwapBusy) : s.swapCopy = s.wign 0 := if_pos (swapBusy_iff.mpr h)
theorem swapCopy_of_idle (h : ¬ s.SwapBusy) : s.swapCopy = s.setRb Reg.SYS_CFGSWAP 3 true := if_neg (mt swapBusy_iff.mp h)

/-- A write that passes has its effect, and what the twin and the staging buffers note of it. -/
theorem regWrite_did {u : State} {a : Nat} {f : State → State} {R : List Nat} (w : Writes s ag a) (h : Did u (f s) R) : Did u (s.regWrite ag a f) R :=
  h.trans ((regWrite_of s w f).mono (by simp))

/-- After a write that passes, a register that neither the twin nor a full queue touches reads as its effect left it. -/
theorem regWrite_rb {a k : Nat} {f : State → State} (w : Writes s ag a) (i : Nat) (hl : k ∉ lossCounters) (hc : k ∉ copyMarks) :
    (s.regWrite ag a f).rb k i = (f s).rb k i := by
  unfold rb rf; rw [(regWrite_of s w f).regs k (by simp) hl hc]

theorem cfgswap_regular : Reg.SYS_CFGSWAP ∉ lossCounters ∧ Reg.SYS_CFGSWAP ∉ copyMarks := by decide
theorem sysStat_regular : Reg.PAGE_STAT 0 ∉ lossCounters ∧ Reg.PAGE_STAT 0 ∉ copyMarks := by decide

/-- A command at SYS_CFGSWAP that sets WIGN alone. -/
theorem regWrite_wign {f : State → State} (w : Writes s ag Reg.SYS_CFGSWAP) (h : f s = s.wign 0) :
    (s.regWrite ag Reg.SYS_CFGSWAP f).rb (Reg.PAGE_STAT 0) 3 = true ∧ Did s (s.regWrite ag Reg.SYS_CFGSWAP f) [Reg.PAGE_STAT 0] := by
  refine ⟨?_, regWrite_did w ?_⟩
  · rw [regWrite_rb w 3 sysStat_regular.1 sysStat_regular.2, h, rb_wign]
  · rw [h]; exact Did.wign s (by simp)

theorem cfgswapGo_ignored (w : Writes s ag Reg.SYS_CFGSWAP) (h : s.SwapBusy ∨ s.Follows) :
    ∃ t, exec (.cfgswapGo ag) s = .next t ∧ t.rb (Reg.PAGE_STAT 0) 3 = true ∧ Did s t [Reg.PAGE_STAT 0] :=
  ⟨_, rfl, regWrite_wign w (swapGo_of_busy h)⟩

theorem cfgswapGo_arms (w : Writes s ag Reg.SYS_CFGSWAP) (hb : ¬ s.SwapBusy) (hf : ¬ s.Follows)
    (hm : s.mode ∈ [Mode.run, Mode.hold, Mode.stnRun, Mode.stnSafe] → s.mapErr true = 0) :
    ∃ t, exec (.cfgswapGo ag) s = .next t ∧ t.rb Reg.SYS_CFGSWAP 0 = true ∧ t.rb Reg.SYS_CFGSWAP 1 = true ∧
      Did { s with grf := { s.grf with goHold := s.grf.swapped } } t [Reg.SYS_CFGSWAP] := by
  have he := swapGo_of_good_map hb hf hm
  obtain ⟨hl, hc⟩ := cfgswap_regular
  refine ⟨_, rfl, ?_, ?_, regWrite_did w ?_⟩
  · rw [regWrite_rb w 0 hl hc, he, rb_setRb_same _ _ _ (by decide)]
  · rw [regWrite_rb w 1 hl hc, he, rb_setRb_disjoint _ _ _ _ (by decide), rb_setRb_same _ _ _ (by decide)]
  · rw [he]; exact (Did.setRb _ (by simp)).trans (Did.setRb _ (by simp))

theorem cfgswapGo_refused (w : Writes s ag Reg.SYS_CFGSWAP) (hb : ¬ s.SwapBusy)
    (hm : s.mode ∈ [Mode.run, Mode.hold, Mode.stnRun, Mode.stnSafe]) (he : s.mapErr true ≠ 0) :
    ∃ t, exec (.cfgswapGo ag) s = .next t ∧ t.rb (Reg.PAGE_STAT 0) 3 = true ∧ Raised s t 27 ∧ Did s t [Reg.PAGE_STAT 0, rawReg 27] := by
  have hgo := swapGo_of_bad_map hb hm he
  have hraise := raise_only (s.wign 0) 27 (s.mapErr true) (R := [rawReg 27]) (by simp)
  obtain ⟨hl, hc⟩ := sysStat_regular
  refine ⟨_, rfl, ?_, fun hrun => ?_, regWrite_did w ?_⟩
  · rw [regWrite_rb w 3 hl hc, hgo, hraise.rb 3 (by decide) hl, rb_wign]
  · unfold raw
    rw [regWrite_rb w _ (rawReg_not_loss 27) (by decide), hgo]
    exact raise_raw _ 27 _ hrun (by decide)
  · rw [hgo]; exact (Did.wign s (by simp)).trans (Did.raise _ (by simp))

theorem cfgswapCopy_starts (w : Writes s ag Reg.SYS_CFGSWAP) (hb : ¬ s.SwapBusy) :
    ∃ t, exec (.cfgswapCopy ag) s = .next t ∧ t.rb Reg.SYS_CFGSWAP 3 = true ∧ Did s t [Reg.SYS_CFGSWAP] := by
  have he := swapCopy_of_idle hb
  refine ⟨_, rfl, ?_, regWrite_did w ?_⟩
  · rw [regWrite_rb w 3 cfgswap_regular.1 cfgswap_regular.2, he, rb_setRb_same _ _ _ (by decide)]
  · rw [he]; exact Did.setRb s (by simp)

theorem cfgswapCopy_ignored (w : Writes s ag Reg.SYS_CFGSWAP) (h : s.SwapBusy) :
    ∃ t, exec (.cfgswapCopy ag) s = .next t ∧ t.rb (Reg.PAGE_STAT 0) 3 = true ∧ Did s t [Reg.PAGE_STAT 0] :=
  ⟨_, rfl, regWrite_wign w (swapCopy_of_busy h)⟩

/-! ## The windows of a page and its RS registers (02 R58) -/

/-- A register key in the active or the shadow window of its page. -/
def InWindows (k : Nat) : Prop := 0x100 ≤ k % 0x1000 ∧ k % 0x1000 < 0x900

theorem InWindows.not_loss {k : Nat} (h : InWindows k) : k ∉ lossCounters := by
  obtain ⟨_, hhi⟩ := h
  simp only [lossCounters, List.mem_cons, List.not_mem_nil, or_false, Reg.EVT_TASK_OVR, Reg.EVT_LOG_DROP, Reg.EVT_STW_OVF]
  omega

theorem InWindows.not_copyMark {k : Nat} (h : InWindows k) : k ∉ copyMarks := by
  obtain ⟨hlo, hhi⟩ := h
  have hraw := rawReg_mod 104
  simp only [copyMarks, List.mem_cons, List.not_mem_nil, or_false, Reg.TWN_STAT]
  rintro (rfl | rfl) <;> omega

theorem InWindows.ne_header {k : Nat} (h : InWindows k) (p : Nat) : k ≠ Reg.PAGE_STAT p ∧ k ≠ Reg.SHD_SEQ p := by
  obtain ⟨hlo, _⟩ := h
  simp only [Reg.PAGE_STAT, Reg.SHD_SEQ, Reg.page]
  constructor <;> (rintro rfl; omega)

/-- The pages that have shadow sets. -/
abbrev shadowPages : List Nat := [0x03, 0x04, 0x0A, 0x0B, 0x0D]

theorem shadow_of_mem {p : Nat} (h : p ∈ shadowPages) : (pageInfo p).shadow = true := by
  revert p; decide

theorem mem_swapPages {p : Nat} : p ∈ s.swapPages ↔ p ∈ shadowPages ∧ s.rb (Reg.PAGE_CTRL p) 2 = true := by
  unfold swapPages
  rw [List.mem_filter, Bool.and_eq_true]
  exact ⟨fun ⟨h, _, hp⟩ => ⟨h, hp⟩, fun ⟨h, hp⟩ => ⟨h, shadow_of_mem h, hp⟩⟩

theorem swapPages_nodup : s.swapPages.Nodup := List.Pairwise.filter _ (by decide)

/-- An RS word lies in the active window. -/
theorem of_mem_rsOffs {p o : Nat} (h : o ∈ rsOffs p) : 0x100 ≤ o ∧ o < 0x500 ∧ isRs p o = true := by
  unfold rsOffs at h
  obtain ⟨i, hi, hio⟩ := List.mem_filterMap.mp h
  have := List.mem_range.mp hi
  split at hio
  · next hrs => obtain rfl := Option.some.inj hio; exact ⟨by omega, by omega, hrs⟩
  · exact absurd hio (by simp)

/-- What a register of a page with shadow sets holds after reset: the reset value of its row, in the active window as in the shadow window. -/
theorem regReset_of_target {p off : Nat} {t : Target} (hp : p ∈ shadowPages) (ho : off < 0x1000) (ht : target p off = some t)
    (hs : (t.shadow && !t.row.rs) = false) : regReset (Reg.page p + off) = BitVec.ofNat 32 t.row.reset := by
  have hp' : p = 0x03 ∨ p = 0x04 ∨ p = 0x0A ∨ p = 0x0B ∨ p = 0x0D := by simpa using hp
  have hkey : Reg.page p + off = (0x01000000 + p * 0x1000 + off) % 2 ^ 32 := by unfold Reg.page; omega
  have hpage : (Reg.page p + off - 0x01000000) / 0x1000 = p := by unfold Reg.page; omega
  have hoff : (Reg.page p + off) % 0x1000 = off := by unfold Reg.page; omega
  have hmod : (Reg.page p + off) % 2 ^ 32 = Reg.page p + off := hkey.symm
  unfold regReset
  dsimp only
  rw [hmod, hpage, hoff, ht]
  dsimp only
  rw [hs]
  rcases hp' with rfl | rfl | rfl | rfl | rfl <;> simp

/-- An RS register and its shadow copy hold the same after reset. -/
theorem regReset_shadow {p o : Nat} (hp : p ∈ shadowPages) (ho : o ∈ rsOffs p) : regReset (Reg.page p + o + 0x400) = regReset (Reg.page p + o) := by
  obtain ⟨hlo, hhi, hrs⟩ := of_mem_rsOffs ho
  have hactive : target p o = (findRow o (pageRows p)).map (⟨·, false⟩) := by
    unfold target; rw [if_neg (by omega), if_neg]
    simp only [Bool.and_eq_true, decide_eq_true_eq]
    exact fun h => absurd h.1.2 (by omega)
  have hshadow : target p (o + 0x400) = (findRow o (pageRows p)).map (⟨·, true⟩) := by
    unfold target; rw [if_neg (by omega), if_pos, Nat.add_sub_cancel]
    simp only [shadow_of_mem hp, Bool.true_and, Bool.and_eq_true, decide_eq_true_eq]
    omega
  unfold isRs at hrs
  rw [hactive] at hrs
  cases hrow : findRow o (pageRows p) with
  | none => rw [hrow] at hrs; exact absurd hrs (by simp)
  | some r =>
    rw [hrow] at hrs hactive hshadow
    rw [Nat.add_assoc, regReset_of_target hp (by omega) hshadow (by simpa using hrs), regReset_of_target hp (by omega) hactive rfl]

/-! ## The swap (02 R61) -/

theorem swapKey_up {p k : Nat} (hp : k / 0x1000 * 0x1000 = Reg.page p)
    (h : 0x100 ≤ k % 0x1000 ∧ k % 0x1000 < 0x500 ∧ isRs p (k % 0x1000) = true) : swapKey p k = k + 0x400 := by
  unfold swapKey; dsimp only; rw [if_pos hp, if_pos h]

theorem swapKey_down {p k : Nat} (hp : k / 0x1000 * 0x1000 = Reg.page p)
    (h : 0x500 ≤ k % 0x1000 ∧ k % 0x1000 < 0x900 ∧ isRs p (k % 0x1000 - 0x400) = true) : swapKey p k = k - 0x400 := by
  unfold swapKey; dsimp only; rw [if_pos hp, if_neg (by omega), if_pos h]

theorem pageBase_add {k n : Nat} (h : k % 0x1000 + n < 0x1000) : (k + n) / 0x1000 * 0x1000 = k / 0x1000 * 0x1000 := by omega
theorem pageBase_sub {k n : Nat} (h : n ≤ k % 0x1000) : (k - n) / 0x1000 * 0x1000 = k / 0x1000 * 0x1000 := by omega

/-- A second swap restores every register (02 R61). -/
theorem swapKey_swapKey (p k : Nat) : swapKey p (swapKey p k) = k := by
  by_cases hp : k / 0x1000 * 0x1000 = Reg.page p
  · by_cases ha : 0x100 ≤ k % 0x1000 ∧ k % 0x1000 < 0x500 ∧ isRs p (k % 0x1000) = true
    · have hoff : (k + 0x400) % 0x1000 = k % 0x1000 + 0x400 := by omega
      have hpage : (k + 0x400) / 0x1000 * 0x1000 = Reg.page p := hp ▸ pageBase_add (by omega)
      rw [swapKey_up hp ha, swapKey_down hpage (by rw [hoff, Nat.add_sub_cancel]; exact ⟨by omega, by omega, ha.2.2⟩), Nat.add_sub_cancel]
    · by_cases hb : 0x500 ≤ k % 0x1000 ∧ k % 0x1000 < 0x900 ∧ isRs p (k % 0x1000 - 0x400) = true
      · have hoff : (k - 0x400) % 0x1000 = k % 0x1000 - 0x400 := by omega
        have hpage : (k - 0x400) / 0x1000 * 0x1000 = Reg.page p := hp ▸ pageBase_sub (by omega)
        rw [swapKey_down hp hb, swapKey_up hpage (by rw [hoff]; exact ⟨by omega, by omega, hb.2.2⟩)]
        omega
      · have hfix : swapKey p k = k := by unfold swapKey; dsimp only; rw [if_pos hp, if_neg ha, if_neg hb]
        rw [hfix, hfix]
  · have hfix : swapKey p k = k := if_neg hp
    rw [hfix, hfix]

theorem swapKey_injective (p : Nat) : Function.Injective (swapKey p) := Function.LeftInverse.injective (swapKey_swapKey p)

theorem swapKey_active {p o : Nat} (ho : o ∈ rsOffs p) : swapKey p (Reg.page p + o) = Reg.page p + o + 0x400 := by
  obtain ⟨hlo, hhi, hrs⟩ := of_mem_rsOffs ho
  have hoff : (Reg.page p + o) % 0x1000 = o := by unfold Reg.page; omega
  refine swapKey_up (by unfold Reg.page; omega) ?_
  rw [hoff]
  exact ⟨hlo, hhi, hrs⟩

theorem swapKey_shadow {p o : Nat} (ho : o ∈ rsOffs p) : swapKey p (Reg.page p + o + 0x400) = Reg.page p + o := by
  rw [← swapKey_active ho, swapKey_swapKey]

/-- The swap of a page moves no register of another page. -/
theorem swapKey_other {p q off : Nat} (h : q ≠ p) (ho : off < 0x1000) : swapKey q (Reg.page p + off) = Reg.page p + off := by
  unfold swapKey; rw [if_neg (by unfold Reg.page; omega)]

/-- After the swap of a page a register of the windows is found where `swapKey` puts it. -/
theorem reg_swapPage_swapKey (hw : Sparse.wf regReset s.regs = true) {p k : Nat} (hk : InWindows (swapKey p k))
    (hr : regReset (swapKey p k) = regReset k) : (s.swapPage p).reg (swapKey p k) = s.reg k := by
  have hkeys : ((s.regs.map fun e : Nat × Word => (swapKey p e.1, e.2)).map Prod.fst).Nodup := by
    have h : ((s.regs.map Prod.fst).map (swapKey p)).Nodup :=
      List.Pairwise.map (swapKey p) (fun _ _ hne he => hne (swapKey_injective p he)) (Sparse.nodup_keys hw)
    rw [List.map_map] at h ⊢
    exact h
  obtain ⟨hstat, hseq⟩ := hk.ne_header p
  unfold swapPage
  dsimp only
  rw [reg_setRb, if_neg hstat, reg_setReg_ne _ _ hseq]
  unfold reg
  rw [Sparse.get_insertAll regReset hkeys, Sparse.get_map_key (swapKey_injective p)]
  exact Sparse.get_congr_default hr _

theorem swapPage_wf (p : Nat) : Sparse.wf regReset (s.swapPage p).regs = true :=
  Sparse.wf_set (Sparse.wf_set (Sparse.wf_insertAll _ (Sparse.wf_nil _)) _ _) _ _

/-- A window register of page `p` through the swaps of other pages. -/
theorem reg_foldl_swapPage_other (hw : Sparse.wf regReset s.regs = true) {p off : Nat} (ho : InWindows (Reg.page p + off)) (hoff : off < 0x1000)
    {l : List Nat} (hl : p ∉ l) : (l.foldl swapPage s).reg (Reg.page p + off) = s.reg (Reg.page p + off) := by
  induction l generalizing s with
  | nil => rfl
  | cons q l ih =>
    obtain ⟨hq, hl⟩ := not_or.mp (mt List.mem_cons.mpr hl)
    have hkey := swapKey_other (Ne.symm hq) hoff
    rw [List.foldl_cons, ih (swapPage_wf q) hl]
    have := reg_swapPage_swapKey hw (p := q) (k := Reg.page p + off) (by rwa [hkey]) (by rw [hkey])
    rwa [hkey] at this

/-- A window register of a page that takes part reads what its counterpart held. -/
theorem reg_foldl_swapPage {p a b : Nat} (hw : Sparse.wf regReset s.regs = true) (ha : a < 0x1000) (hb : b < 0x1000)
    (hin : InWindows (Reg.page p + a)) (hin' : InWindows (Reg.page p + b)) (hk : swapKey p (Reg.page p + b) = Reg.page p + a)
    (hr : regReset (Reg.page p + a) = regReset (Reg.page p + b)) {l : List Nat} (hd : l.Nodup) (hl : p ∈ l) :
    (l.foldl swapPage s).reg (Reg.page p + a) = s.reg (Reg.page p + b) := by
  induction l generalizing s with
  | nil => exact absurd hl (by simp)
  | cons q l ih =>
    obtain ⟨hq, hd⟩ := List.nodup_cons.mp hd
    rw [List.foldl_cons]
    by_cases hpq : p = q
    · subst hpq
      rw [reg_foldl_swapPage_other (swapPage_wf p) hin ha hq, ← hk]
      exact reg_swapPage_swapKey hw (by rwa [hk]) (by rwa [hk])
    · rw [ih (swapPage_wf q) hd ((List.mem_cons.mp hl).resolve_left hpq)]
      exact reg_foldl_swapPage_other hw hin' hb (l := [q]) (by simpa using hpq)

theorem foldl_swapPage_mem (l : List Nat) : (l.foldl swapPage s).mem = s.mem := by
  induction l generalizing s with
  | nil => rfl
  | cons q l ih => exact ih

theorem reslot_only (s : State) : Only s s.reslot [] := by
  unfold reslot
  exact (Only.evt s _ []).trans (Only.count _ (.inr (by simp [lossCounters])))

/-- What follows the exchange in a swap leaves the registers of the windows as they are. -/
theorem reg_configSwap {k : Nat} (hk : InWindows k) : s.configSwap.reg k = (s.swapPages.foldl swapPage s).reg k :=
  calc s.configSwap.reg k
      _ = s.swapSets.reg k := (fcRestart_did s.swapSets 2 []).regs k (by simp) hk.not_loss hk.not_copyMark
      _ = ((s.swapPages.foldl swapPage s).reslot).reg k := by unfold swapSets; dsimp only; split <;> rfl
      _ = (s.swapPages.foldl swapPage s).reg k := (reslot_only _).regs k (by simp) hk.not_loss

theorem configSwap_mem : s.configSwap.mem = s.mem :=
  calc s.configSwap.mem
      _ = s.swapSets.mem := (fcRestart_did s.swapSets 2 []).mem
      _ = ((s.swapPages.foldl swapPage s).reslot).mem := by unfold swapSets; dsimp only; split <;> rfl
      _ = s.mem := (reslot_only _).mem.trans (foldl_swapPage_mem _)

/-- The two words of an RS register of a page that takes part are exchanged. -/
theorem reg_configSwap_rs (hw : Sparse.wf regReset s.regs = true) {p o : Nat} (hp : p ∈ shadowPages) (hpart : s.rb (Reg.PAGE_CTRL p) 2 = true)
    (ho : o ∈ rsOffs p) : s.configSwap.reg (Reg.page p + o) = s.reg (Reg.page p + o + 0x400) ∧
      s.configSwap.reg (Reg.page p + o + 0x400) = s.reg (Reg.page p + o) := by
  obtain ⟨hlo, hhi, _⟩ := of_mem_rsOffs ho
  have hin : InWindows (Reg.page p + o) := by unfold InWindows Reg.page; omega
  have hin' : InWindows (Reg.page p + (o + 0x400)) := by unfold InWindows Reg.page; omega
  have hmem := mem_swapPages.mpr ⟨hp, hpart⟩
  have hreset := regReset_shadow hp ho
  have hsum : Reg.page p + o + 0x400 = Reg.page p + (o + 0x400) := Nat.add_assoc _ _ _
  have hdown := swapKey_shadow ho
  have hup := swapKey_active ho
  rw [hsum] at hreset hdown hup ⊢
  rw [reg_configSwap hin, reg_configSwap hin']
  exact ⟨reg_foldl_swapPage hw (by omega) (by omega) hin hin' hdown hreset.symm swapPages_nodup hmem,
    reg_foldl_swapPage hw (by omega) (by omega) hin' hin hup hreset swapPages_nodup hmem⟩

/-- A swap takes effect here only while one is pending, outside the modes that wait for a boundary or follow an active (02 R62). -/
theorem configSwap_idle (h : s.rb Reg.SYS_CFGSWAP 1 = false ∨
    s.mode ∈ [Mode.run, Mode.hold, Mode.stnRun, Mode.stnSafe, Mode.syncing, Mode.tracking]) : exec .configSwap s = .next s := by
  refine if_neg fun hg => ?_
  simp only [Bool.and_eq_true, Bool.not_eq_true', ← Bool.not_eq_true, swapAtBoundary_iff] at hg
  obtain ⟨⟨⟨⟨hpend, hbound⟩, hshut⟩, _⟩, _⟩ := hg
  rcases h with h | h
  · exact absurd (hpend.symm.trans h) (by decide)
  · have hf : s.Follows := by
      simp only [List.mem_cons, List.not_mem_nil, or_false] at h hbound
      unfold Follows
      omega
    exact hshut (by unfold shut; rw [follows_iff.mpr hf, Bool.true_or])

/-- In these modes a swap waits for no boundary and follows no active (02 R62). -/
theorem not_waiting (hm : s.mode ∈ [Mode.config, Mode.service, Mode.stop, Mode.safeHalt]) : s.swapAtBoundary = false ∧ s.shut = false := by
  have hmodes : ∀ stby : Bool, ∀ m ∈ [Mode.config, Mode.service, Mode.stop, Mode.safeHalt],
      [Mode.run, Mode.stnRun, Mode.stnSafe, Mode.hold].contains m = false ∧
        ([Mode.syncing, Mode.tracking].contains m || (m == Mode.hold && stby)) = false := by decide
  exact hmodes s.stby s.mode hm

theorem exec_configSwap (hpend : s.rb Reg.SYS_CFGSWAP 1 = true) (hm : s.mode ∈ [Mode.config, Mode.service, Mode.stop, Mode.safeHalt])
    (hg : s.grf.goHold = none) (hrun : s.pwr.coreRun = true) :
    exec .configSwap s = .next ((s.configSwap.setRb Reg.SYS_CFGSWAP 1 false).setRb Reg.SYS_CFGSWAP 0 false) := by
  obtain ⟨hbound, hshut⟩ := not_waiting hm
  refine if_pos ?_
  simp [swapPend, hpend, hbound, hshut, graftHold, hg, hrun]

/-- The pages with shadow sets lie above SYS_CFGSWAP. -/
theorem ne_cfgswap {p k : Nat} (hp : p ∈ shadowPages) (hk : Reg.page p ≤ k) : k ≠ Reg.SYS_CFGSWAP := by
  have : p ≠ 0 := by rintro rfl; exact absurd hp (by decide)
  unfold Reg.page at hk; unfold Reg.SYS_CFGSWAP; omega

theorem configSwap_swaps {p : Nat} (hpend : s.rb Reg.SYS_CFGSWAP 1 = true) (hi : Inv s) (hm : s.mode ∈ [Mode.config, Mode.service, Mode.stop, Mode.safeHalt])
    (hg : s.grf.goHold = none) (hrun : s.pwr.coreRun = true) :
    ∃ t, exec .configSwap s = .next t ∧ t.rb Reg.SYS_CFGSWAP 0 = false ∧ t.rb Reg.SYS_CFGSWAP 1 = false ∧ t.mem = s.mem ∧
      (p ∈ shadowPages ∧ s.rb (Reg.PAGE_CTRL p) 2 = true → ∀ o ∈ rsOffs p,
        t.reg (Reg.page p + o) = s.reg (Reg.page p + o + 0x400) ∧ t.reg (Reg.page p + o + 0x400) = s.reg (Reg.page p + o)) := by
  refine ⟨_, exec_configSwap hpend hm hg hrun, rb_setRb_same _ _ _ (by decide), ?_, ?_, fun ⟨hp, hpart⟩ o ho => ?_⟩
  · rw [rb_setRb_disjoint _ _ _ _ (by decide), rb_setRb_same _ _ _ (by decide)]
  · rw [setRb_mem, setRb_mem, configSwap_mem]
  · have hne : Reg.page p + o ≠ Reg.SYS_CFGSWAP := ne_cfgswap hp (by omega)
    have hne' : Reg.page p + o + 0x400 ≠ Reg.SYS_CFGSWAP := ne_cfgswap hp (by omega)
    rw [reg_setRb, if_neg hne, reg_setRb, if_neg hne, reg_setRb, if_neg hne', reg_setRb, if_neg hne']
    exact reg_configSwap_rs hi.2 hp hpart ho

/-! ## The end of the copy (02 R60) -/

/-- From `s` to `t` registers alone changed. -/
def RegsOnly (s t : State) : Prop := { t with regs := s.regs } = s

theorem RegsOnly.refl (s : State) : RegsOnly s s := rfl

theorem RegsOnly.setReg {t : State} (h : RegsOnly s t) (k : Nat) (v : Word) : RegsOnly s (t.setReg k v) := h

theorem RegsOnly.foldl {β : Type} {t : State} {f : State → β → State} (h : RegsOnly s t) (hf : ∀ u b, RegsOnly s u → RegsOnly s (f u b)) (l : List β) :
    RegsOnly s (l.foldl f t) := by
  induction l generalizing t with
  | nil => exact h
  | cons b l ih => exact ih (hf t b h)

theorem RegsOnly.copyPage {t : State} (h : RegsOnly s t) (p : Nat) : RegsOnly s (t.copyPage p) :=
  (RegsOnly.foldl h (fun _ _ hu => hu.setReg _ _) (rsOffs p)).setReg _ _

/-- One word of page `p` copied into its shadow window. -/
def copyWord (p : Nat) (t : State) (o : Nat) : State := t.setReg (Reg.page p + o + 0x400) (t.reg (Reg.page p + o))

theorem copyPage_eq (p : Nat) : s.copyPage p = ((rsOffs p).foldl (copyWord p) s).setRb (Reg.PAGE_STAT p) 2 false := rfl

theorem reg_foldl_copyWord_ne {p k : Nat} {l : List Nat} (h : ∀ o ∈ l, k ≠ Reg.page p + o + 0x400) : (l.foldl (copyWord p) s).reg k = s.reg k := by
  induction l generalizing s with
  | nil => rfl
  | cons o l ih =>
    obtain ⟨ho, hl⟩ := List.forall_mem_cons.mp h
    rw [List.foldl_cons, ih hl, copyWord, reg_setReg_ne _ _ ho]

theorem reg_foldl_copyWord {p o : Nat} {l : List Nat} (hl : ∀ i ∈ l, 0x100 ≤ i ∧ i < 0x500) (ho : o ∈ l) :
    (l.foldl (copyWord p) s).reg (Reg.page p + o + 0x400) = s.reg (Reg.page p + o) := by
  induction l generalizing s with
  | nil => exact absurd ho (by simp)
  | cons i l ih =>
    have hwin := hl o ho
    obtain ⟨hi, hl⟩ := List.forall_mem_cons.mp hl
    rw [List.foldl_cons]
    by_cases hol : o ∈ l
    · rw [ih hl hol, copyWord, reg_setReg_ne _ _ (by omega)]
    · obtain rfl := (List.mem_cons.mp ho).resolve_right hol
      rw [reg_foldl_copyWord_ne (fun j hj e => hol (by rwa [show o = j by omega])), copyWord, reg_setReg_same]

/-- The copy of page `p` changes shadow words and PAGE_STAT of that page alone. -/
theorem reg_copyPage_ne {p k : Nat} (hstat : k ≠ Reg.PAGE_STAT p) (h : ∀ o ∈ rsOffs p, k ≠ Reg.page p + o + 0x400) : (s.copyPage p).reg k = s.reg k := by
  rw [copyPage_eq, reg_setRb, if_neg hstat, reg_foldl_copyWord_ne h]

theorem reg_copyPage_shadow {p o : Nat} (ho : o ∈ rsOffs p) : (s.copyPage p).reg (Reg.page p + o + 0x400) = s.reg (Reg.page p + o) := by
  obtain ⟨hlo, hhi, _⟩ := of_mem_rsOffs ho
  rw [copyPage_eq, reg_setRb, if_neg (by unfold Reg.PAGE_STAT Reg.page; omega),
    reg_foldl_copyWord (fun i hi => ⟨(of_mem_rsOffs hi).1, (of_mem_rsOffs hi).2.1⟩) ho]

theorem reg_copyPage_below {p k : Nat} (h : k % 0x1000 < 0x500) (hstat : k ≠ Reg.PAGE_STAT p) : (s.copyPage p).reg k = s.reg k := by
  refine reg_copyPage_ne hstat fun i hi => ?_
  obtain ⟨hlo, hhi, _⟩ := of_mem_rsOffs hi
  unfold Reg.page; omega

/-- Outside the shadow windows and PAGE_STAT no copy changes a register. -/
theorem reg_foldl_copyPage_below {k : Nat} (h : k % 0x1000 < 0x500) {l : List Nat} (hstat : ∀ p ∈ l, k ≠ Reg.PAGE_STAT p) :
    (l.foldl copyPage s).reg k = s.reg k := by
  induction l generalizing s with
  | nil => rfl
  | cons q l ih =>
    obtain ⟨hq, hl⟩ := List.forall_mem_cons.mp hstat
    rw [List.foldl_cons, ih hl, reg_copyPage_below h hq]

/-- The copy of another page leaves the windows of page `p` alone. -/
theorem reg_copyPage_other {p q off : Nat} (h : q ≠ p) (hlo : 0x100 ≤ off) (hhi : off < 0x900) :
    (s.copyPage q).reg (Reg.page p + off) = s.reg (Reg.page p + off) := by
  refine reg_copyPage_ne (by unfold Reg.PAGE_STAT Reg.page; omega) fun i hi => ?_
  obtain ⟨_, _, _⟩ := of_mem_rsOffs hi
  unfold Reg.page; omega

theorem reg_foldl_copyPage_other {p off : Nat} (hlo : 0x100 ≤ off) (hhi : off < 0x900) {l : List Nat} (hl : p ∉ l) :
    (l.foldl copyPage s).reg (Reg.page p + off) = s.reg (Reg.page p + off) := by
  induction l generalizing s with
  | nil => rfl
  | cons q l ih =>
    obtain ⟨hq, hl⟩ := not_or.mp (mt List.mem_cons.mpr hl)
    rw [List.foldl_cons, ih hl, reg_copyPage_other (Ne.symm hq) hlo hhi]

/-- The shadow word of an RS register of a copied page takes the active one. -/
theorem reg_foldl_copyPage {p o : Nat} (ho : o ∈ rsOffs p) {l : List Nat} (hp : p ∈ l) :
    (l.foldl copyPage s).reg (Reg.page p + o + 0x400) = s.reg (Reg.page p + o) := by
  obtain ⟨hlo, hhi, _⟩ := of_mem_rsOffs ho
  induction l generalizing s with
  | nil => exact absurd hp (by simp)
  | cons q l ih =>
    rw [List.foldl_cons]
    by_cases hpl : p ∈ l
    · rw [ih hpl, reg_copyPage_below (by unfold Reg.page; omega) (by unfold Reg.PAGE_STAT Reg.page; omega)]
    · obtain rfl := (List.mem_cons.mp hp).resolve_right hpl
      rw [Nat.add_assoc, reg_foldl_copyPage_other (by omega) (by omega) hpl, ← Nat.add_assoc, reg_copyPage_shadow ho]

theorem copyDone_idle (h : s.rb Reg.SYS_CFGSWAP 3 = false) : exec .copyDone s = .next s :=
  if_neg (by simp [copyBusy, h])

theorem copyDone_copies {p : Nat} (hbusy : s.rb Reg.SYS_CFGSWAP 3 = true) (hrun : s.pwr.coreRun = true) :
    ∃ t, exec .copyDone s = .next t ∧ t.rb Reg.SYS_CFGSWAP 3 = false ∧ { t with regs := s.regs } = s ∧
      (p ∈ shadowPages ∧ s.rb (Reg.PAGE_CTRL p) 2 = true → ∀ o ∈ rsOffs p, t.reg (Reg.page p + o + 0x400) = s.reg (Reg.page p + o)) ∧
      ∀ o, o < 0x500 → t.reg (Reg.page p + o) = s.reg (Reg.page p + o) ∨ o = 0x0C ∨ Reg.page p + o = Reg.SYS_CFGSWAP := by
  refine ⟨(s.swapPages.foldl copyPage s).setRb Reg.SYS_CFGSWAP 3 false, if_pos (by simp [copyBusy, hbusy, hrun]), rb_setRb_same _ _ _ (by decide),
    (RegsOnly.foldl (RegsOnly.refl s) (fun _ q hu => hu.copyPage q) s.swapPages).setReg _ _, fun ⟨hp, hpart⟩ o ho => ?_, fun o ho => ?_⟩
  · rw [reg_setRb, if_neg (ne_cfgswap hp (by omega)), reg_foldl_copyPage ho (mem_swapPages.mpr ⟨hp, hpart⟩)]
  · by_cases hstat : o = 0x0C
    · exact .inr (.inl hstat)
    by_cases hcfg : Reg.page p + o = Reg.SYS_CFGSWAP
    · exact .inr (.inr hcfg)
    refine .inl ?_
    rw [reg_setRb, if_neg hcfg, reg_foldl_copyPage_below (by unfold Reg.page; omega)]
    intro q _
    unfold Reg.PAGE_STAT Reg.page; omega

/-! ## The map check (06 R198) -/

theorem ite_lt {c : Prop} [Decidable c] {a b n : Nat} (ha : a < n) (hb : b < n) : (if c then a else b) < n := by
  split
  · exact ha
  · exact hb

/-- Each of the nine checks has a code of four bits. -/
theorem mapErr_lt (s : State) (sh : Bool) : s.mapErr sh < 16 := by
  unfold mapErr
  lift_lets
  intro o per ofs role ks
  iterate 9 refine ite_lt (by decide) ?_
  decide

theorem mapErr_of_bad_period (h : s.rf Reg.SCN_PERIOD 19 0 < 50 ∨ 1000000 < s.rf Reg.SCN_PERIOD 19 0) : s.mapErr false = 1 := if_pos h

theorem mapCheck_active : s.mapCheck.rf Reg.SCN_STAT 7 4 = s.mapErr false := by
  unfold mapCheck
  dsimp only
  rw [rf_setRf_disjoint _ _ _ _ (by decide), rf_setRf_same _ _ _ _ (by decide)]
  exact Nat.mod_eq_of_lt (mapErr_lt s false)

theorem mapCheck_shadow : s.mapCheck.rf Reg.SCN_STAT 11 8 = s.mapErr true := by
  unfold mapCheck
  dsimp only
  rw [rf_setRf_same _ _ _ _ (by decide)]
  exact Nat.mod_eq_of_lt (mapErr_lt s true)

theorem mapCheck_valid : s.mapCheck.rb Reg.SCN_STAT 0 = (s.mapErr false == 0) ∧ s.mapCheck.rb Reg.SCN_STAT 1 = (s.mapErr true == 0) := by
  unfold mapCheck
  dsimp only
  constructor
  · rw [rb_setRf_disjoint _ _ _ _ (by decide), rb_setRf_disjoint _ _ _ _ (by decide), rb_setRb_disjoint _ _ _ _ (by decide), rb_setRb_same _ _ _ (by decide)]
  · rw [rb_setRf_disjoint _ _ _ _ (by decide), rb_setRf_disjoint _ _ _ _ (by decide), rb_setRb_same _ _ _ (by decide)]

theorem reg_mapCheck_ne {k : Nat} (h : k ≠ Reg.SCN_STAT) : s.mapCheck.reg k = s.reg k := by
  unfold mapCheck
  dsimp only
  rw [reg_setRf, if_neg h, reg_setRf, if_neg h, reg_setRb, if_neg h, reg_setRb, if_neg h]

theorem mapCheck_regsOnly (s : State) : RegsOnly s s.mapCheck :=
  ((((RegsOnly.refl s).setReg _ _).setReg _ _).setReg _ _).setReg _ _

theorem mapCheck_shows (s : State) : ∃ t, exec .mapCheck s = .next t ∧ (∀ k, k ≠ Reg.SCN_STAT → t.reg k = s.reg k) ∧ { t with regs := s.regs } = s ∧
    t.rb Reg.SCN_STAT 0 = decide (t.rf Reg.SCN_STAT 7 4 = 0) ∧ t.rb Reg.SCN_STAT 1 = decide (t.rf Reg.SCN_STAT 11 8 = 0) ∧
    (s.rf Reg.SCN_PERIOD 19 0 < 50 ∨ 1000000 < s.rf Reg.SCN_PERIOD 19 0 → t.rf Reg.SCN_STAT 7 4 = 1) := by
  refine ⟨s.mapCheck, rfl, fun _ => reg_mapCheck_ne, mapCheck_regsOnly s, ?_, ?_, fun h => ?_⟩
  · rw [mapCheck_valid.1, mapCheck_active]; rfl
  · rw [mapCheck_valid.2, mapCheck_shadow]; rfl
  · rw [mapCheck_active, mapErr_of_bad_period h]

end State

open State in
/-- Settles O15: it holds. GO and COPY by the cases of their guard; the swap by following one word of the windows through the swaps of the participating
pages, each an involution on the register keys; the copy by following it through the words copied. -/
theorem configurationSwap : Obligations.ConfigurationSwap := by
  intro ag p s busy follows part
  exact ⟨fun w => ⟨cfgswapGo_ignored w, cfgswapGo_arms w, cfgswapGo_refused w, cfgswapCopy_starts w, cfgswapCopy_ignored w⟩,
    configSwap_idle, configSwap_swaps, copyDone_idle, copyDone_copies, mapCheck_shows s⟩

end Sys2Proof.Machine
end

section
/-! PROOF. Branches, jumps and CALL with their delay slot, REP with its count and its repetitions (04 R143–R146; 05 R168–R170, R187–R189). -/

-- one declaration at a time: many at once take a thread and its stack each
set_option Elab.async false

namespace Sys2Proof.Machine
open State

/-! ## The control flow of a context -/

/-- What says where a context goes on: its address, its delay slot, its repetition. -/
def flow (x : Ctx) : Nat × Slot × Option Rep := (x.pc, x.slot, x.rep)

/-- Results that land leave the control flow alone. -/
theorem flow_land (x : Ctx) : flow x.land = flow x := by
  unfold Ctx.land
  exact foldl_put flow (fun _ dest _ => by cases dest <;> rfl) _ x

theorem flow_countLock (x : Ctx) (k : Kind) (g : Goes) (last : Bool) : flow (countLock x k g last) = flow x := by
  unfold countLock
  split <;> rfl

/-- The next control flow depends on the present one alone. -/
theorem flow_advance'_congr {x y : Ctx} (h : flow x = flow y) (n : Nat) (g : Goes) (last : Bool) :
    flow (advance' x n g last) = flow (advance' y n g last) := by
  simp only [flow, Prod.mk.injEq] at h
  obtain ⟨hpc, hslot, hrep⟩ := h
  cases g with
  | seq => cases last <;> simp [advance', flow, hpc, hslot, hrep]
  | skip => simp [advance', flow, hpc, hrep]
  | slot t => cases t <;> simp [advance', flow, hpc, hslot, hrep]

theorem flow_ctxAfter (x : Ctx) (c : Nat) (k : Kind) (g : Goes) : flow (ctxAfter x c k g) = flow (advance' x (pcSize c) g (lastRep x)) := by
  calc flow (ctxAfter x c k g)
      = flow (advance' (countLock (unexpired x) k g (lastRep x)) (pcSize c) g (lastRep x)).land := rfl
    _ = flow (advance' (countLock (unexpired x) k g (lastRep x)) (pcSize c) g (lastRep x)) := flow_land _
    _ = flow (advance' x (pcSize c) g (lastRep x)) := flow_advance'_congr (y := x) (flow_countLock (unexpired x) k g (lastRep x)) ..

/-- After an instruction the control flow is that of its results at once: those that its distance delays do not reach it. -/
theorem Ran.flow_eq {s t : State} {c : Nat} {k : Kind} {g : Goes} {f : Ctx → Ctx} {l : List (Dest × Half)} (r : Ran s t c k g f l) :
    flow (t.cx c) = flow (f (ctxAfter (s.cx c) c k g)) := (congrArg flow r.ctx).trans rfl

theorem flow_advance'_slot {x : Ctx} (h : x.slot = .none) (n : Nat) (p : Option Nat) (last : Bool) :
    flow (advance' x n (.slot p) last) = ((x.pc + 1) % n, p.elim .untaken .taken, x.rep) := by
  cases p <;> simp [advance', flow, h]

theorem flow_advance'_skip (x : Ctx) (n : Nat) (last : Bool) : flow (advance' x n .skip last) = ((x.pc + 2) % n, .none, x.rep) := rfl

theorem flow_advance'_last {x : Ctx} (h : x.slot = .none) (n : Nat) : flow (advance' x n .seq true) = ((x.pc + 1) % n, .none, none) := by
  simp [advance', flow, h]

theorem flow_advance'_inSlot {x : Ctx} {p : Nat} (h : x.slot = .taken p) (n : Nat) : flow (advance' x n .seq true) = (p, .none, none) := by
  simp [advance', flow, h]

theorem flow_advance'_again (x : Ctx) (n : Nat) :
    flow (advance' x n .seq false) = (x.pc, x.slot, x.rep.map fun r => { r with done := r.done + 1 }) := rfl

theorem lastRep_of_none {x : Ctx} (h : x.rep = none) : lastRep x = true := by simp [lastRep, h]

theorem lastRep_of_some {x : Ctx} {r : Rep} (h : x.rep = some r) : lastRep x = decide (r.count ≤ r.done + 1) := by simp [lastRep, h]

/-- A branch or a REP that stands where it may is neither in a delay slot nor repeated (04 R160; 05 R191). -/
theorem Executes.outside {s : State} {c : Nat} {k : Kind} (h : Executes s c k) (hk : k = .branch ∨ k = .repPrefix) :
    (s.cx c).slot = .none ∧ (s.cx c).rep = none := by
  have hp := h.placed
  obtain rfl | rfl := hk <;> simpa [misplaced] using hp

/-! ## Targets and conditions (04 R144; 05 R187, R188) -/

theorem pcSize_pos (c : Nat) : 0 < pcSize c := by unfold pcSize; split <;> decide

theorem pcSize_le (c : Nat) : pcSize c ≤ 32768 := by unfold pcSize; split <;> decide

theorem relTarget_mod (c : Nat) (x : Ctx) (off : BitVec 14) : relTarget c x off % pcSize c = relTarget c x off := by
  have hpos : (0 : Int) < pcSize c := by exact_mod_cast pcSize_pos c
  have hlt := Int.emod_lt_of_pos ((x.pc : Int) + off.toInt) hpos
  exact Nat.mod_eq_of_lt (by unfold relTarget; omega)

theorem absTarget_mod (c : Nat) (x : Ctx) (target : BitVec 14) :
    absTarget c x target % pcSize c = target.toNat + (if 68 ≤ c ∧ x.cpg then 16384 else 0) := by
  have ht := target.isLt
  unfold absTarget pcSize
  by_cases hc : c < 68
  · simp [hc, Nat.not_le.mpr hc]
    omega
  · cases hg : x.cpg <;> simp [hc, Nat.le_of_not_lt hc, bn] <;> omega

theorem pair_toNat (x : Ctx) (r : Nat) : (x.pair r).toNat = (x.reg r).toNat + 256 * (x.reg (r + 1)).toNat := by
  rw [Ctx.pair, append_toNat]
  omega

/-- The conditions of BR by number (05 R187). -/
def brConds (x : Ctx) : List Bool :=
  [true, x.fz, !x.fz, x.fc, !x.fc, x.fn, !x.fn, x.fv, !x.fv, x.fc && !x.fz, !x.fc || x.fz, x.fn == x.fv, x.fn != x.fv,
    !x.fz && (x.fn == x.fv), x.fz || (x.fn != x.fv)]

theorem cond_eq_brConds (x : Ctx) : ∀ {n : Nat}, n < 15 → x.cond n = (brConds x).getD n false
  | 0, _ | 1, _ | 2, _ | 3, _ | 4, _ | 5, _ | 6, _ | 7, _ | 8, _ | 9, _ | 10, _ | 11, _ | 12, _ | 13, _ | 14, _ => rfl
  | _ + 15, h => absurd h (by omega)

theorem condF_eq (x : Ctx) : ∀ {n : Nat}, n < 4 → x.condF n = [x.fk, !x.fk, x.fd, !x.fd].getD n false
  | 0, _ | 1, _ | 2, _ | 3, _ => rfl
  | _ + 4, h => absurd h (by omega)

/-! ## Branches, jumps and CALL (04 R143–R146; 05 R168, R187–R189) -/

/-- Instruction `i` of core `c` goes on to its delay slot, and behind that to `p`, or on in sequence where `p` is none; `f` is what it writes at once. -/
def Jumps (s : State) (c : Core) (i : Instr) (p : Option Nat) (f : Ctx → Ctx) : Prop :=
  ∃ t, exec i s = .next t ∧ Ran s t c .branch (.slot p) f [] ∧ (t.cx c).pc = ((s.cx c).pc + 1) % pcSize c ∧ (t.cx c).slot = p.elim .untaken .taken

section
variable {s : State} {c : Core} (h : Executes s c .branch)
include h

theorem jumps_of_jumpOp {i : Instr} {t : Ctx → Option Nat} {now : Ctx → Ctx → Ctx} {p : Option Nat} {f : Ctx → Ctx}
    (hi : exec i s = .next (s.jumpOp c t now)) (hp : (t (unexpired (s.cx c))).map (· % pcSize c) = p) (hf : now (unexpired (s.cx c)) = f)
    (hkeep : ∀ y, flow (f y) = flow y) : Jumps s c i p f := by
  subst hp hf
  have hran : Ran s (s.jumpOp c t now) c .branch (.slot ((t (unexpired (s.cx c))).map (· % pcSize c))) (now (unexpired (s.cx c))) [] :=
    issue_ran s h rfl rfl
  have hflow := hran.flow_eq
  rw [hkeep, flow_ctxAfter, flow_advance'_slot (h.outside (.inl rfl)).1] at hflow
  exact ⟨_, hi, hran, congrArg Prod.fst hflow, congrArg (·.2.1) hflow⟩

/-- A relative branch that writes nothing goes to its target where condition `b` holds. -/
theorem jumps_of_relative {i : Instr} {b : Ctx → Bool} {q : Bool} {off : BitVec 14}
    (hi : exec i s = .next (s.jumpOp c (fun x => if b x then some (relTarget c x off) else none) fun _ y => y)) (hq : b (unexpired (s.cx c)) = q) :
    Jumps s c i (if q then some (relTarget c (s.cx c) off) else none) id := by
  refine jumps_of_jumpOp h hi ?_ rfl fun _ => rfl
  rw [hq]
  cases q
  · rfl
  · exact congrArg some (relTarget_mod c (s.cx c) off)

theorem br_jumps {cond : BitVec 4} (off : BitVec 14) (hc : cond.toNat < 15) :
    Jumps s c (.br c cond off) (if (brConds (s.cx c)).getD cond.toNat false then some (relTarget c (s.cx c) off) else none) id :=
  jumps_of_relative h (b := fun x => x.cond cond.toNat) (congrArg Host.Outcome.next (if_neg (by omega))) (cond_eq_brConds _ hc)

theorem brf_jumps {cond : BitVec 4} (off : BitVec 14) (hc : cond.toNat < 4) :
    Jumps s c (.brf c cond off)
      (if [(s.cx c).fk, !(s.cx c).fk, (s.cx c).fd, !(s.cx c).fd].getD cond.toNat false then some (relTarget c (s.cx c) off) else none) id :=
  jumps_of_relative h (b := fun x => x.condF cond.toNat) (congrArg Host.Outcome.next (if_neg (by omega))) (condF_eq _ hc)

theorem jmp_jumps (target : BitVec 14) :
    Jumps s c (.jmp c target) (some (target.toNat + (if 68 ≤ c.val ∧ (s.cx c).cpg then 16384 else 0))) id :=
  jumps_of_jumpOp h rfl (congrArg some (absTarget_mod c (unexpired (s.cx c)) target)) rfl fun _ => rfl

theorem call_jumps (target : BitVec 14) :
    Jumps s c (.call c target) (some (target.toNat + (if 68 ≤ c.val ∧ (s.cx c).cpg then 16384 else 0)))
      (pairSet 30 (((s.cx c).pc + 2) % pcSize c)) := by
  refine jumps_of_jumpOp h rfl (congrArg some (absTarget_mod c (unexpired (s.cx c)) target)) (funext fun y => ?_) fun _ => rfl
  have hlt := Nat.mod_lt ((s.cx c).pc + 2) (pcSize_pos c)
  have hle := pcSize_le c
  have hlink : (BitVec.ofNat 16 (((s.cx c).pc + 2) % pcSize c)).toNat = ((s.cx c).pc + 2) % pcSize c := by
    rw [BitVec.toNat_ofNat]
    exact Nat.mod_eq_of_lt (by omega)
  calc y.setPair 30 (BitVec.ofNat 16 (((s.cx c).pc + 2) % pcSize c))
      = pairSet 30 (BitVec.ofNat 16 (((s.cx c).pc + 2) % pcSize c)).toNat y := setPair_eq 30 _ y
    _ = pairSet 30 (((s.cx c).pc + 2) % pcSize c) y := by rw [hlink]

theorem jmpr_jumps (pb : PReg) :
    Jumps s c (.jmpr c pb) (some ((((s.cx c).reg (2 * pb.toNat)).toNat + 256 * ((s.cx c).reg (2 * pb.toNat + 1)).toNat) % pcSize c)) id :=
  jumps_of_jumpOp h rfl (congrArg (fun n => some (n % pcSize c)) (pair_toNat (s.cx c) (2 * pb.toNat))) rfl fun _ => rfl

end

/-! ## NOP in a delay slot and under REP (04 R145; 05 R170) -/

theorem nop_flow {s : State} {c : Core} (h : Executes s c .plain) :
    ∃ t, exec (.nop c) s = .next t ∧ flow (t.cx c) = flow (advance' (s.cx c) (pcSize c) .seq (lastRep (s.cx c))) :=
  ⟨_, rfl, (aluOp_ran h fun _ y => y).flow_eq.trans (flow_ctxAfter ..)⟩

theorem nop_in_slot {s : State} {c : Core} (h : Executes s c .plain) (hr : (s.cx c).rep = none) :
    ∃ t, exec (.nop c) s = .next t ∧ (t.cx c).slot = .none ∧ ∀ p, (s.cx c).slot = .taken p → (t.cx c).pc = p := by
  obtain ⟨t, ht, hflow⟩ := nop_flow h
  rw [lastRep_of_none hr] at hflow
  refine ⟨t, ht, congrArg (·.2.1) hflow, fun p hp => ?_⟩
  rw [flow_advance'_inSlot hp] at hflow
  exact congrArg Prod.fst hflow

theorem nop_repeated {s : State} {c : Core} (h : Executes s c .plain) (hs : (s.cx c).slot = .none) {r : Rep} (hr : (s.cx c).rep = some r) :
    ∃ t, exec (.nop c) s = .next t ∧
      if r.done + 1 < r.count then (t.cx c).pc = (s.cx c).pc ∧ (t.cx c).rep = some { r with done := r.done + 1 }
      else (t.cx c).pc = ((s.cx c).pc + 1) % pcSize c ∧ (t.cx c).rep = none := by
  obtain ⟨t, ht, hflow⟩ := nop_flow h
  rw [lastRep_of_some hr] at hflow
  refine ⟨t, ht, ?_⟩
  split
  next hmore =>
    rw [decide_eq_false (by omega), flow_advance'_again, hr] at hflow
    exact ⟨congrArg Prod.fst hflow, congrArg (·.2.2) hflow⟩
  next hdone =>
    rw [decide_eq_true (by omega), flow_advance'_last hs] at hflow
    exact ⟨congrArg Prod.fst hflow, congrArg (·.2.2) hflow⟩

/-! ## REP (05 R169, R170) -/

/-- What REP with count `k` writes at once: RC shows the count, and a repetition begins unless it is 0. -/
def repStart (k : Nat) (y : Ctx) : Ctx := { y with rc := BitVec.ofNat 8 k, rep := if k = 0 then none else some ⟨k, 0, false, false⟩ }

theorem flow_repStart (k : Nat) (y : Ctx) : flow (repStart k y) = ((flow y).1, (flow y).2.1, if k = 0 then none else some ⟨k, 0, false, false⟩) := rfl

theorem repOp_starts {s : State} {c : Core} (h : Executes s c .repPrefix) {n : Ctx → Nat} {k : Nat} (hk : min 32 (n (unexpired (s.cx c))) = k) :
    Ran s (s.repOp c n) c .repPrefix (if k = 0 then .skip else .seq) (repStart k) [] ∧
      ((s.repOp c n).cx c).pc = ((s.cx c).pc + (if k = 0 then 2 else 1)) % pcSize c ∧
      ((s.repOp c n).cx c).rep.map (·.count) = if k = 0 then none else some k := by
  subst hk
  have hran : Ran s (s.repOp c n) c .repPrefix (if min 32 (n (unexpired (s.cx c))) = 0 then .skip else .seq)
      (repStart (min 32 (n (unexpired (s.cx c))))) [] := issue_ran s h rfl rfl
  have hflow := hran.flow_eq
  obtain ⟨hslot, hrep⟩ := h.outside (.inr rfl)
  rw [flow_repStart, flow_ctxAfter, lastRep_of_none hrep] at hflow
  refine ⟨hran, ?_⟩
  by_cases hzero : min 32 (n (unexpired (s.cx c))) = 0
  · simp only [hzero, ↓reduceIte, flow_advance'_skip] at hflow ⊢
    exact ⟨congrArg Prod.fst hflow, congrArg (·.2.2.map (·.count)) hflow⟩
  · simp only [hzero, ↓reduceIte, flow_advance'_last hslot] at hflow ⊢
    exact ⟨congrArg Prod.fst hflow, congrArg (·.2.2.map (·.count)) hflow⟩

/-- Settles O8: it holds. Each instruction is a case of `jumpOp`, `repOp` or `aluOp`, and where the context goes on is read off the case of `advance'` that it
takes: neither the results that land nor the lock's counts reach the address, the slot or the repetition. -/
theorem branchesAndRepetition : Obligations.BranchesAndRepetition := by
  refine ⟨fun c cond off target pb s => ⟨fun h => ?_, nop_in_slot⟩, fun c n g s => ⟨fun h q hq hn => ?_, fun h hs r hr => nop_repeated h hs hr⟩⟩
  · exact ⟨br_jumps h off, brf_jumps h off, jmp_jumps h target, call_jumps h target, jmpr_jumps h pb⟩
  · simp only [List.mem_cons, List.not_mem_nil, or_false] at hq
    obtain rfl | rfl | rfl := hq
    · exact ⟨_, congrArg Host.Outcome.next (if_neg (Nat.not_lt.mpr (hn rfl))), repOp_starts h rfl⟩
    · exact ⟨_, rfl, repOp_starts h rfl⟩
    · exact ⟨_, rfl, repOp_starts h rfl⟩

end Sys2Proof.Machine
end

section
/-! PROOF. The byte instructions (04 R128; 05 R181, R182, R186): sums and differences, logic and bits, shifts and rotations. -/

-- one declaration at a time: many at once take a thread and its stack each
set_option Elab.async false

namespace Sys2Proof.Machine
open State

/-! ## An instruction of the ALU class -/

/-- Instruction `i` of core `c` runs, and its results at once are `f`. -/
def RunsTo (s : State) (c : Core) (i : Instr) (f : Ctx → Ctx) : Prop := ∃ t, exec i s = .next t ∧ Ran s t c .plain .seq f []

section
variable {s : State} {c : Core} (h : Executes s c .plain)
include h

/-- The operands are those before anything lands; the lock that may have run out is none of them. -/
theorem runsTo_of_aluOp {i : Instr} {f : Ctx → Ctx → Ctx} {g : Ctx → Ctx} (hi : exec i s = .next (s.aluOp c f)) (hf : f (unexpired (s.cx c)) = g) :
    RunsTo s c i g := ⟨_, hi, (aluOp_ran h f).congr hf⟩

/-- A shift whose result is `r` and whose carry is `cy`, both of the value shifted and the whole count (05 R182). -/
theorem runsTo_shift {i : Instr} {d : GReg} {op : Shift} {u : Ctx → Byte} {k : Ctx → Nat} {r : Byte → Nat → Byte} {cy : Byte → Nat → Bool → Bool}
    (hi : exec i s = .next (s.aluOp c fun x y => withShift y d (shiftAlu op (u x) (k x)))) (hr : ∀ v n, (shiftAlu op v n).1 = r v n)
    (hc : ∀ v n old, (shiftAlu op v n).2.getD old = cy v n old) {v : Byte} {n : Nat} (hv : u (unexpired (s.cx c)) = v) (hn : k (unexpired (s.cx c)) = n) :
    RunsTo s c i fun z => { znOf (r v n) (z.setReg d.toNat (r v n)) with fc := cy v n z.fc } := by
  subst hv hn
  exact runsTo_of_aluOp h hi (withShift_eq d _ _ _ (hr _ _) (hc _ _))

end

/-! ## The operations on bytes in numbers (05 R181, R186) -/

theorem not_eq_ofNat (u : Byte) : ~~~u = BitVec.ofNat 8 (255 - u.toNat) := by
  apply BitVec.eq_of_toNat_eq
  rw [BitVec.toNat_not, BitVec.toNat_ofNat]
  omega

/-- Settles O1: it holds. Each instruction is a case of `aluOp`; what it writes is read off the lemma that gives its operation in numbers. -/
theorem byteOperations : Obligations.ByteOperations := by
  refine ⟨fun c d a b imm s h => ?_, fun c d a b imm n s h => ?_, fun c d a b imm s h => ?_⟩
  · have add (u v : Byte) := withAlu_add d u v 0 (Nat.zero_le 1) false rfl
    have addCarry (u v : Byte) := withAlu_add d u v _ (bool_le (s.cx c).fc) _ (bool_one _)
    have sub (u v : Byte) := withAlu_sub d u v 0 (Nat.zero_le 1) true rfl
    have subBorrow (u v : Byte) := withAlu_sub d u v _ (Nat.sub_le 1 _) _ (bool_zero (s.cx c).fc)
    exact ⟨runsTo_of_aluOp h rfl (add _ _), runsTo_of_aluOp h rfl (addCarry _ _), runsTo_of_aluOp h rfl (add _ _), runsTo_of_aluOp h rfl (addCarry _ _),
      runsTo_of_aluOp h rfl (sub _ _), runsTo_of_aluOp h rfl (subBorrow _ _), runsTo_of_aluOp h rfl (sub _ _), runsTo_of_aluOp h rfl (subBorrow _ _),
      runsTo_of_aluOp h rfl (sub _ _), runsTo_of_aluOp h rfl (withCmp_sub _ _), runsTo_of_aluOp h rfl (withCmp_sub _ _)⟩
  · have put (r : Byte) := withLogic_eq d r r rfl
    have complement (u : Byte) := withLogic_eq d _ _ (not_eq_ofNat u)
    have test (r : Byte) : (fun z : Ctx => z.setZn r) = znOf r := funext (setZn_eq r)
    have setBit (w : Byte) (k : Bool) := congrArg (fun (r : Byte) (z : Ctx) => z.setReg d.toNat r) (kto_eq w n k)
    exact ⟨runsTo_of_aluOp h rfl (put _), runsTo_of_aluOp h rfl (put _), runsTo_of_aluOp h rfl (put _), runsTo_of_aluOp h rfl (complement _),
      runsTo_of_aluOp h rfl rfl, runsTo_of_aluOp h rfl rfl,
      runsTo_of_aluOp h rfl (put _), runsTo_of_aluOp h rfl (put _), runsTo_of_aluOp h rfl (put _), runsTo_of_aluOp h rfl (test _),
      runsTo_of_aluOp h rfl rfl, runsTo_of_aluOp h rfl (setBit _ _)⟩
  · exact ⟨runsTo_shift h rfl shl_1 shl_2 rfl rfl, runsTo_shift h rfl shr_1 shr_2 rfl rfl, runsTo_shift h rfl asr_1 asr_2 rfl rfl,
      runsTo_shift h rfl rol_s rol_2 rfl rfl, runsTo_shift h rfl ror_s ror_2 rfl rfl,
      runsTo_shift h rfl shl_1 shl_2 rfl rfl, runsTo_shift h rfl shr_1 shr_2 rfl rfl, runsTo_shift h rfl asr_1 asr_2 rfl rfl,
      runsTo_shift h rfl rol_s rol_2 rfl rfl, runsTo_shift h rfl ror_s ror_2 rfl rfl⟩

end Sys2Proof.Machine
end
